-- ==== Sys2Proof/Word.lean ====
section
/-!
DEFINITION. The word, the sheet and the accumulator of the IVK-9640 (spec 00, "Units"; R88, R107).
The 16-bit word is the only addressable unit of the device; a sheet is eight words, lanes 0 to 7.
-/
namespace Sys2Proof

/-- A 16-bit word (R107). -/
abbrev Word := BitVec 16
/-- A 20-bit word address in instruction space (R93, R132). -/
abbrev CodeAddr := BitVec 20
/-- A 48-bit axis position: a 32-bit integer count and a 16-bit fraction (R26). -/
abbrev Pos := BitVec 48

/-- A sheet: 128 bits as 8 lanes of one word; lane `k` holds word `A + k` (R88, R107). -/
structure Sheet where
  l0 : Word
  l1 : Word
  l2 : Word
  l3 : Word
  l4 : Word
  l5 : Word
  l6 : Word
  l7 : Word
deriving DecidableEq, Repr

/-- Eight 40-bit accumulator lanes (R88). -/
structure Acc where
  l0 : BitVec 40
  l1 : BitVec 40
  l2 : BitVec 40
  l3 : BitVec 40
  l4 : BitVec 40
  l5 : BitVec 40
  l6 : BitVec 40
  l7 : BitVec 40
deriving DecidableEq, Repr

/-- The sheet of eight zero words. -/
def Sheet.zero : Sheet := ⟨0, 0, 0, 0, 0, 0, 0, 0⟩
/-- The accumulator of eight zero lanes. -/
def Acc.zero : Acc := ⟨0, 0, 0, 0, 0, 0, 0, 0⟩

end Sys2Proof
end

