-- ==== Sys2Proof/Syntax.lean ====
section
/-!
DEFINITION. The commands the device takes, one constructor per row of the spec's command table, with the row's operands.
A command that acts for a register write carries its requester; an event carries what the outside world decides
(levels, data, error outcomes). Every operand type is exact where the spec bounds it; WellFormed checks the rest.
-/
namespace Sys2Proof

/-- Clerk numbers: 0 to 127 the sorting clerks (R9), 128 PM0, 129 PM1 (R8). -/
abbrev ClerkId := Fin 130
/-- A 4-bit register number (R134). -/
abbrev Reg4 := Fin 16
/-- Die numbers (R8): 0 HUB, 1 INT0, 2 INT1, 3 to 6 SORT0 to SORT3, 7 DISPATCH. -/
abbrev DieId := Fin 8
/-- Axis numbers (R25). -/
abbrev AxisId := Fin 16
/-- Who makes a register access: 0 to 129 a clerk (130 values, as `ClerkId`), 130 HOST, 131 the debug port (R3). -/
abbrev Requester := Fin 132

/-- A clerk, and how many younger instructions it has issued that an event squashes (R85). -/
structure SquashAt where
  clerk : ClerkId
  squashed : Fin 65
deriving DecidableEq, Repr

/-- What a wrong path has done until it is squashed: instructions issued, load-use stalls, and window loads issued (R85). -/
structure WrongPath where
  squashed : Fin 65
  stalls : Fin 65
  loads : Fin 9
deriving DecidableEq, Repr

/-- Data addressing forms of LD, ST, LDS and STS (R143). -/
inductive AddrMode where
  | ind (b : Reg4)
  | postInc (b : Reg4)
  | postDec (b : Reg4)
  | preDec (b : Reg4)
  | disp (b : Reg4) (x : Word)
deriving DecidableEq, Repr

/-- Port addressing forms of IN, OUT, INS and OUTS (R144). -/
inductive PortMode where
  | ind (b : Reg4)
  | disp (b : Reg4) (x : Word)
  | postInc (b : Reg4)
deriving DecidableEq, Repr

/-- Where a repeat prefix takes its count (R117, R154). -/
inductive RepCount where
  | reg (r : Reg4)
  | imm (n : Fin 256)
deriving DecidableEq, Repr

/-- What a stream packet carries: an image header as the camera states it, or samples of sensor rows with the stream bytes
that held them; `place` is the first sample's number in its image, as the standard's line markers tell it. The standard's
pixel packing is outside the spec, so samples stand unpacked (R232, log 20). -/
inductive StreamPart where
  | header (pf : Fin 16) (xsize ysize : Word)
  | samples (place : Nat) (xs : List Word) (raw : List (BitVec 8))
deriving DecidableEq, Repr

/-- A control-channel reply (R229, R230): an acknowledgement with its code and data, a wait acknowledgement, or a reply
whose CRC fails. -/
inductive CcReplyKind where
  | ack (code : Fin 256) (data : List (BitVec 32))
  | wait
  | badCrc
deriving DecidableEq, Repr

/-- Kinds of crossing channel (R268). -/
inductive CrossKind where
  | status
  | event
  | pulse
deriving DecidableEq, Repr

/-- A slot's up part as it returns: words U0 to U3 and UCRC (R306, R309). -/
structure NodeAnswer where
  u0 : Word
  u1 : Word
  u2 : Word
  u3 : Word
  ucrc : Word
deriving DecidableEq, Repr
/-- How a poll of a regulator ends (R363): without an answer after its retry, or with STATUS_WORD, READ_VOUT and READ_IOUT. -/
inductive PmbPoll where
  | failed
  | read (status vout iout : Word)
deriving DecidableEq, Repr

/-- How a code-store line reads: good; with a bit corrected; uncorrectable; or good, read again for a group whose cached copy had a parity
error (R493). -/
inductive LineRead where
  | good
  | corrected
  | uncorrectable
  | refetch
deriving DecidableEq, Repr

/-- What a DDR5 burst read meets (R399): good data, an error the code corrects or one it cannot, and the device that names
it. -/
inductive BurstRead where
  | good
  | corrected (dev : Fin 32)
  | uncorrectable (dev : Fin 32)
deriving DecidableEq, Repr

/-- A BAR0 request (R411): DWORDs written, each with its byte enables, or the number of DWORDs read. -/
inductive Bar0Op where
  | write (poisoned : Bool) (dws : List (BitVec 32 × BitVec 4))
  | read (n : Nat)
deriving DecidableEq, Repr

/-- A BAR4 request (R413): bytes written, each with its byte enable, or the number of bytes read. -/
inductive Bar4Op where
  | write (bs : List (BitVec 8 × Bool))
  | read (n : Nat)
deriving DecidableEq, Repr

/-- Where the PCIe link goes as it leaves L0: into L1, into a recovery that brings it back, or down (R409, R427; log 21). -/
inductive L0Exit where
  | l1
  | recovery
  | down
deriving DecidableEq, Repr

/-- Who waits for postage (R445): a clerk, a camera of an intake die, or the HOST block. -/
inductive PostageWaiter where
  | clerk (c : ClerkId)
  | camera (i : Fin 2) (k : Fin 16)
  | host
deriving DecidableEq, Repr


/-- The commands (spec/opcode_table.json). -/
inductive Instr where
  -- Clerk instructions (spec 05): each executes at its clerk's PC, whatever the code store holds there (log 5).
  | nop (c : ClerkId)
  | wait (c : ClerkId)
  | synci (c : ClerkId)
  | dsync (c : ClerkId)
  | reti (c : ClerkId)
  | ret (c : ClerkId)
  | ei (c : ClerkId)
  | di (c : ClerkId)
  | svc (c : ClerkId) (n : Fin 32)
  | brk (c : ClerkId) (n : Fin 32)
  | setlm (c : ClerkId) (m : Fin 3)
  | mfs (c : ClerkId) (d : Reg4) (sr : Fin 11)
  | mts (c : ClerkId) (sr : Fin 11) (r : Reg4)
  | mfsp (c : ClerkId) (d : Reg4) (hi : Bool)
  | mtsp (c : ClerkId) (hi : Bool) (r : Reg4)
  | repi (c : ClerkId) (n : RepCount)
  | repu (c : ClerkId) (n : RepCount)
  | bgath (c : ClerkId)
  | bscat (c : ClerkId)
  | bramp (c : ClerkId)
  | bmatch (c : ClerkId)
  | bsum (c : ClerkId)
  | bpget (c : ClerkId)
  | bpput (c : ClerkId)
  | mov (c : ClerkId) (d r : Reg4)
  | add (c : ClerkId) (d r : Reg4)
  | sub (c : ClerkId) (d r : Reg4)
  | and (c : ClerkId) (d r : Reg4)
  | or (c : ClerkId) (d r : Reg4)
  | xor (c : ClerkId) (d r : Reg4)
  | shl (c : ClerkId) (d r : Reg4)
  | shr (c : ClerkId) (d r : Reg4)
  | sar (c : ClerkId) (d r : Reg4)
  | rol (c : ClerkId) (d r : Reg4)
  | not (c : ClerkId) (d r : Reg4)
  | neg (c : ClerkId) (d r : Reg4)
  | movq (c : ClerkId) (d : Reg4) (u : Fin 16)
  | addq (c : ClerkId) (d : Reg4) (u : Fin 16)
  | subq (c : ClerkId) (d : Reg4) (u : Fin 16)
  | shlq (c : ClerkId) (d : Reg4) (u : Fin 16)
  | shrq (c : ClerkId) (d : Reg4) (u : Fin 16)
  | sarq (c : ClerkId) (d : Reg4) (u : Fin 16)
  | rolq (c : ClerkId) (d : Reg4) (u : Fin 16)
  | movi (c : ClerkId) (d : Reg4) (imm : Word)
  | addi (c : ClerkId) (d r : Reg4) (imm : Word)
  | andi (c : ClerkId) (d r : Reg4) (imm : Word)
  | ori (c : ClerkId) (d r : Reg4) (imm : Word)
  | xori (c : ClerkId) (d r : Reg4) (imm : Word)
  | mul (c : ClerkId) (a b : Reg4)
  | mulu (c : ClerkId) (a b : Reg4)
  | muli (c : ClerkId) (r : Reg4) (imm : Word)
  | mului (c : ClerkId) (r : Reg4) (imm : Word)
  | cmovnz (c : ClerkId) (d r q : Reg4)
  | cmovz (c : ClerkId) (d r q : Reg4)
  | sel (c : ClerkId) (d q a b : Reg4)
  | ceq (c : ClerkId) (d a b : Reg4)
  | cne (c : ClerkId) (d a b : Reg4)
  | clt (c : ClerkId) (d a b : Reg4)
  | cle (c : ClerkId) (d a b : Reg4)
  | cltu (c : ClerkId) (d a b : Reg4)
  | cleu (c : ClerkId) (d a b : Reg4)
  | cadc (c : ClerkId) (d a b : Reg4)
  | cova (c : ClerkId) (d a b : Reg4)
  | covs (c : ClerkId) (d a b : Reg4)
  | cbit (c : ClerkId) (d a b : Reg4)
  | ceqi (c : ClerkId) (d a : Reg4) (imm : Word)
  | cnei (c : ClerkId) (d a : Reg4) (imm : Word)
  | clti (c : ClerkId) (d a : Reg4) (imm : Word)
  | cgti (c : ClerkId) (d a : Reg4) (imm : Word)
  | cltui (c : ClerkId) (d a : Reg4) (imm : Word)
  | cgtui (c : ClerkId) (d a : Reg4) (imm : Word)
  | bnz (c : ClerkId) (q : Reg4) (disp : BitVec 8)
  | bz (c : ClerkId) (q : Reg4) (disp : BitVec 8)
  | bnzl (c : ClerkId) (q : Reg4) (disp : Word)
  | bzl (c : ClerkId) (q : Reg4) (disp : Word)
  | jmp (c : ClerkId) (t : CodeAddr)
  | call (c : ClerkId) (t : CodeAddr)
  | jmpr (c : ClerkId) (h l : Reg4)
  | callr (c : ClerkId) (h l : Reg4)
  | ld (c : ClerkId) (d : Reg4) (m : AddrMode)
  | st (c : ClerkId) (r : Reg4) (m : AddrMode)
  | lds (c : ClerkId) (d : Reg4) (m : AddrMode)
  | sts (c : ClerkId) (r : Reg4) (m : AddrMode)
  | inPort (c : ClerkId) (d : Reg4) (m : PortMode)
  | outPort (c : ClerkId) (r : Reg4) (m : PortMode)
  | ins (c : ClerkId) (d : Reg4) (m : PortMode)
  | outs (c : ClerkId) (r : Reg4) (m : PortMode)
  | geti (c : ClerkId) (d h l : Reg4)
  | getia (c : ClerkId) (d : Reg4) (t : CodeAddr)
  | puti (c : ClerkId) (r h l : Reg4)
  | putia (c : ClerkId) (r : Reg4) (t : CodeAddr)
  | sti (c : ClerkId) (b : Reg4) (x imm : Word)
  | outi (c : ClerkId) (b : Reg4) (x imm : Word)
  | smov (c : ClerkId) (d r : Reg4)
  | sadd (c : ClerkId) (d r : Reg4)
  | ssub (c : ClerkId) (d r : Reg4)
  | sand (c : ClerkId) (d r : Reg4)
  | sor (c : ClerkId) (d r : Reg4)
  | sxor (c : ClerkId) (d r : Reg4)
  | smin (c : ClerkId) (d r : Reg4)
  | smax (c : ClerkId) (d r : Reg4)
  | sabd (c : ClerkId) (d r : Reg4)
  | sshl (c : ClerkId) (d : Reg4) (u : Fin 16)
  | sshr (c : ClerkId) (d : Reg4) (u : Fin 16)
  | ssar (c : ClerkId) (d : Reg4) (u : Fin 16)
  | sceq (c : ClerkId) (d r : Reg4)
  | sclt (c : ClerkId) (d r : Reg4)
  | scltu (c : ClerkId) (d r : Reg4)
  | sandn (c : ClerkId) (d r : Reg4)
  | smul (c : ClerkId) (a b : Reg4)
  | smulu (c : ClerkId) (a b : Reg4)
  | smac (c : ClerkId) (k : Fin 4) (a b : Reg4)
  | smacw (c : ClerkId) (k : Fin 4) (a b : Reg4)
  | smacuw (c : ClerkId) (k : Fin 4) (a b : Reg4)
  | aclr (c : ClerkId) (k : Fin 4)
  | ahsum (c : ClerkId) (k : Fin 4)
  | aget (c : ClerkId) (d : Reg4) (k : Fin 4) (p : Fin 3)
  | aset (c : ClerkId) (r : Reg4) (k : Fin 4) (p : Fin 3)
  | aout (c : ClerkId) (d : Reg4) (k : Fin 4) (u : Fin 16)
  | aput (c : ClerkId) (k : Fin 4) (r : Reg4)
  | ssum (c : ClerkId) (d r : Reg4)
  | smaxr (c : ClerkId) (d r : Reg4)
  | sminr (c : ClerkId) (d r : Reg4)
  | sbcast (c : ClerkId) (d r : Reg4)
  | srot (c : ClerkId) (d : Reg4) (n : Fin 8)
  | scmov (c : ClerkId) (d r q : Reg4)
  | sget (c : ClerkId) (d r : Reg4) (l : Fin 8)
  | sput (c : ClerkId) (d r : Reg4) (l : Fin 8)
  | sperm (c : ClerkId) (d r p : Reg4)
  | eopen (c : ClerkId) (d r : Reg4)
  | post (c : ClerkId) (r : Reg4)
  | recall (c : ClerkId) (r : Reg4)
  -- Clerk pipeline events (spec 03)
  | modeChangeEffect (at_ : SquashAt)
  | branchMisprediction (c : ClerkId) (path : WrongPath)
  | windowLoadReturn (c : ClerkId) (n : Fin 8) (bad : Bool × Bool)
  | codeWriteQueueWrite (c : ClerkId)
  | tokenArrival (c : ClerkId)
  | pcntCtlClrall (c : ClerkId)
  -- Axes (spec 02)
  | encoderTransition (enc : Fin 12) (a b : Bool) (hold : Nat)
  | indexEdge (enc : Fin 12) (hold : Nat)
  | mainsZeroCross (m : Fin 6) (falling : Bool)
  | lateTimeout (n : AxisId)
  | stopTimeout (n : AxisId)
  | mainsLostTimeout (n : AxisId)
  | axnCfgWrite (who : Requester) (n : AxisId) (v : Word)
  | axnSetWrite (who : Requester) (n : AxisId) (seth : Word)
  | forceDev (who : Requester) (n : AxisId)
  | axnCtrlClrcnt (who : Requester) (n : AxisId)
  | axBcastWrite (who : Requester) (mask : Bool) (v : Word)
  | broadcastSample
  | broadcastApply (d : DieId) (n : AxisId)
  | replicaStale (d : DieId) (n : AxisId)
  | bepochAnnouncement (d : DieId)
  | bepochAckTimeout
  -- Epochs (spec 06)
  | epochRegistration (c : Fin 128)
  | lineageRegistration (c : Fin 128)
  | epochSettle (c : Fin 128) (slot : Fin 4)
  | recallDecision
  | epochRecall (who : Requester) (tag : Word)
  | epochCtlClrcnt (who : Requester)
  | settleParcelMbe (d : DieId)
  | recallParcelMbe (d : DieId)
  | clerkSettle (c : Fin 128)
  | clerkRecall (c : Fin 128)
  | draftPop (c : ClerkId) (slot : Fin 64) (d : Reg4)
  | journalWaitEnd (c : ClerkId)
  | heldWritePerformed (c : ClerkId)
  | epCtlClrcnt (c : ClerkId)
  | epRefuseNewClear (c : ClerkId)
  -- Mailbags (spec 07)
  | mailbagPush (box : Fin 1024) (flips : Fin 3)
  | slotPop (c : ClerkId) (slot : Fin 64) (d : Reg4)
  | popWaitEnd (c : ClerkId)
  | mbData0Read (who : Requester) (box : Fin 1024)
  | mbCtlFlush (who : Requester) (box : Fin 1024)
  | mbCtlClrcnt (who : Requester) (box : Fin 1024)
  | spillBlockWrite (box : Fin 1024)
  | spillBlockRead (box : Fin 1024)
  | arrivalBufferDrain (d : DieId)
  | mbeStatClear (c : ClerkId) (v : Word)
  -- Camera intake (spec 08); die 0 is INT0 and 1 is INT1
  | connectionLoss (die : Fin 2) (cx : Fin 20)
  | discoveryStep (die : Fin 2) (k : Fin 16) (locked : BitVec 8) (ids : List (Fin 8)) (speed : Fin 7) (ok : Bool)
  | discoveryRetry (die : Fin 2) (k : Fin 16)
  | rediscoveryDelay (die : Fin 2) (k : Fin 16)
  | camCtlRetry (who : Requester) (die : Fin 2) (k : Fin 16)
  | camCtlClrcnt (who : Requester) (die : Fin 2) (k : Fin 16)
  | camCfgWrite (who : Requester) (die : Fin 2) (k : Fin 16) (v : Word)
  | ccCmdGo (who : Requester) (die : Fin 2) (v : Word)
  | ccReply (die : Fin 2) (tag : Fin 256) (r : CcReplyKind)
  | ccTimeout (die : Fin 2)
  | eventPacket (die : Fin 2) (k : Fin 16) (crcOk : Bool) (id : Word) (data : List (BitVec 8))
  | streamPacket (die : Fin 2) (cx : Fin 20) (crcOk : Bool) (tag : Fin 256) (sid : Fin 256) (part : StreamPart)
  | lineFranked (die : Fin 2) (k : Fin 16) (bad : List Nat)
  | frameEnd (die : Fin 2) (k : Fin 16)
  | intCsdataAccess (who : Requester) (die : Fin 2) (wr : Option Word)
  | intCtlClrcnt (who : Requester) (die : Fin 2)
  | cxCtlClrcnt (who : Requester) (die : Fin 2) (cx : Fin 20)
  | rgWWrite (who : Requester) (die : Fin 2) (g : Fin 64) (w : Word)
  | connectionRegainsSignal (die : Fin 2) (cx : Fin 20)
  -- Fabric (spec 09)
  | linkFrameReceive (l : Fin 19) (fromA : Bool) (lseq : Fin 256) (crcOk : Bool)
  | nakReplay (l : Fin 19) (fromA : Bool)
  | ackTimeout (l : Fin 19) (fromA : Bool)
  | retrainComplete (l : Fin 19) (ok : Bool)
  | flCtlRetrain (who : Requester) (l : Fin 19)
  | flCtlUnfault (who : Requester) (l : Fin 19)
  | flCtlClrcnt (who : Requester) (l : Fin 19)
  | fdCtlClrcnt (who : Requester) (d : DieId)
  | undeliverableParcel (d : DieId) (post ctl : Word) (lanes : Sheet)
  | bringUpExchange (l : Fin 19)
  | exchangeRetry (l : Fin 19)
  | linkDownDeclaration (d : DieId)
  | crossingTransfer (d : DieId) (n : Fin 32) (kind : CrossKind) (offer : Option Word)
  | crossingReset (d : DieId) (n : Fin 32)
  | modeAcknowledge (d : DieId)
  -- Outbox and firing (spec 10)
  | outboxArrival
  | obPush7Write (who : Requester) (v : Word)
  | outboxTick
  | obPurge (who : Requester) (axis : AxisId)
  | obCtlClrcnt (who : Requester)
  | obSpillBufferTimeout
  | obSpillRead (bad : Bool)
  -- the safe inputs: whether it is B, and for how many ns the new level has lasted (R290)
  | safeInputFall (b : Bool × Nat)
  | safeInputRise (b : Bool × Nat)
  | discrepancyTimeout
  | feCtlRearm (who : Requester)
  | feCtlClrcnt (who : Requester)
  | refreshRoundBoundary
  | pwmPeriodStart (ch : Fin 64)
  | pwmActiveEnd (ch : Fin 64)
  | burstDecision (ch : Fin 64)
  | phaseTurnOn (ch : Fin 64)
  | phaseGateEnd (ch : Fin 64)
  | pulseEnd (ch : Fin 64)
  | chCfgWrite (who : Requester) (ch : Fin 64) (v : Word)
  | chCtlClrcnt (who : Requester) (ch : Fin 64)
  -- Zegen line (spec 11)
  | roundStart (p : Fin 8)
  | frameReturn (p : Fin 8) (hdr : List Word) (loop : Word) (answers : List (Nat × NodeAnswer)) (enrol : Option NodeAnswer)
  | frameLost (p : Fin 8) (loop : Option Word)
  | zpNcmdGo (who : Requester) (p : Fin 8) (v : Word)
  | nodeCtlRelease (who : Requester) (p : Fin 8) (a : Fin 63)
  | nodeCtlUnfault (who : Requester) (p : Fin 8) (a : Fin 63)
  | nodeCtlClrcnt (who : Requester) (p : Fin 8) (a : Fin 63)
  | zpCtlClrcnt (who : Requester) (p : Fin 8)
  | zpCfgWrite (who : Requester) (p : Fin 8) (v : Word)
  -- Interrupt controllers (spec 12)
  | localEvent (d : DieId) (src : Fin 256)
  | globalEventParcel (d : DieId) (g : Fin 128)
  | moderationRelease (d : DieId) (src : Fin 256)
  | interruptEntry (at_ : SquashAt)
  | icuCtlClrcnt (who : Requester) (d : DieId)
  | icuCtlClrpend (who : Requester) (d : DieId)
  | icuRaise (who : Requester) (d : DieId) (v : Word)
  | icuPendClear (who : Requester) (d : DieId) (j : Fin 16) (v : Word)
  | licDoorbell (c : ClerkId) (v : Word)
  | licAlmhWrite (c : ClerkId) (v : Word)
  | alarmFire (c : ClerkId)
  -- Device modes (spec 01)
  | modeReqReady (who : Requester)
  | modeReqRun (who : Requester)
  | modeReqRepair (who : Requester) (d : DieId)
  | modeReqService (who : Requester)
  | modeReqDormant (who : Requester)
  | modeReqSealed (who : Requester)
  | modeAckTimeout
  | deviceDiesClear (who : Requester) (v : Word)
  -- GPIO edges and held-back parcels (spec 12)
  | gpioEdge (n : Fin 32) (level : Bool) (ns : Nat)
  | heldBackEventParcel (g : Fin 128)
  -- Power (spec 13)
  | voteRaise (dom : Fin 56)
  | voteWithdraw (dom : Fin 56)
  | holdoffExpiry (dom : Fin 56)
  | pwrPlreqGo (who : Requester) (n : Fin 4) (v : Word)
  | voutInTolerance (n : Fin 4) (vout : Word)
  | pltoutExpiry (n : Fin 4) (failed : Bool)
  | pmbusPoll (k : Fin 8) (r : PmbPoll)
  | pmbCtlClrf (who : Requester) (k : Fin 8) (acked : Bool)
  | pmbCtlRead (who : Requester) (k : Fin 8) (r : PmbPoll)
  | pwrCtlClrcnt (who : Requester)
  | aonBrownout
  -- Sleep and wake (spec 14)
  | sleepStepComplete (refused : List (Fin 8))
  | d1Timeout
  | wakeSmbus
  | wakeTimer
  | wakeGpio (n : Fin 32)
  | wakeEncoder (e : Fin 12)
  | wakeStepComplete (rails : BitVec 4) (mismatch : List (Fin 128))
  | aonCtlClrcnt (who : Requester)
  | aonCtlSync (who : Requester)
  | aonPadholdRel (who : Requester) (v : Word)
  | aonSrdataAccess (who : Requester) (wr : Option Word)
  | ssPoisonClear (c : Fin 128) (hi : Bool) (v : Word)
  -- DDR5 (spec 15)
  | ddrBurstRead (burst : Fin 0x200000000) (r : BurstRead)
  | patrolScrub (ch : Fin 4) (r : BurstRead)
  | softPpr (ch : Fin 4) (spare : Bool)
  | ddrHppr (who : Requester) (v : Word)
  | ddrChctlClrcnt (who : Requester) (ch : Fin 4)
  | ddrCtlClrcnt (who : Requester)
  | selfRefreshExit (pair : Fin 2)
  -- Host interface (spec 16)
  | bar0Tlp (dw : Fin 65536) (op : Bar0Op)
  | bar4Tlp (byte : Fin 0x40000000) (op : Bar4Op)
  | bar2Write (w : Fin 131072) (ws : List Word)
  | phSubmit (p : Fin 64)
  | phCollect (p : Fin 64)
  | phOwnerWrite (who : Requester) (p : Fin 64) (v : Word)
  | hostCtlForcerel (who : Requester) (p : Fin 64)
  | hostCtlClrcnt (who : Requester)
  | hostDoorbell (who : Requester) (v : Word)
  | hostSdonehWrite (who : Requester) (v : Word)
  | hostSdataAccess (who : Requester) (k : Fin 8) (wr : Option Word)
  | phTimeout (p : Fin 64)
  | xfCtlGo (who : Requester) (ch : Fin 32)
  | xfCtlAbort (who : Requester) (ch : Fin 32)
  | xfTlpSent
  | msixMessage (v : Fin 64)
  | perstNFall
  | perstNRise (speed : Fin 4) (width : Fin 16)
  | pcieConfigWrite (bme msixEn mask : Bool) (link : Bool × Bool)   -- link: Max_Payload_Size 256; power state D3hot
  | pcieLinkLeftL0 (way : L0Exit)
  -- Countersign and postage (spec 17)
  | csCmdOpen (who : Requester)
  | csCmdSeal (who : Requester)
  | csCmdAbort (who : Requester)
  | csEput2Write (who : Requester) (v : Word)
  | csSign3Write (who : Requester) (v : Word)
  | envelopeApply
  | csWindowExpiry
  | csCtlClrcnt (who : Requester)
  | postageRoundBoundary (d : DieId) (rt : Fin 256) (ddr : Bool)
  | postageWaitEnd (w : PostageWaiter)
  | pstCtlClrcnt (who : Requester)
  -- Structure image and repair (spec 18)
  | imgCmdStage (who : Requester)
  | imgCmdCommit (who : Requester)
  | imgCmdDiscard (who : Requester)
  | imgRpctlAbort (who : Requester)
  | imgCtlClrcnt (who : Requester)
  | imgHloadWrite (who : Requester) (v : Word)
  | repairStepComplete (ok : Bool)
  | drainTimeout
  | move (src dst : Fin 1024)
  | dieReset (d : DieId)
  | stagingComplete
  -- Start-up (spec 19)
  | porstNLow
  | porstNRelease (boot smb : Fin 4)
  | startStepComplete (trng flash : Bool) (ddrFail : List (Fin 4 × Fin 8)) (rails pl0 : BitVec 4)
  | vaonLoss
  | vaonApplied
  -- Faults, service and debug (spec 20)
  | faultWindowEvent
  | deadLetterReport
  | errCtlClrcnt (who : Requester)
  | errCtlClrcap (who : Requester)
  | errCtlClrlast (who : Requester)
  | errRestart (who : Requester) (v : Word)
  | errDigdataRead (who : Requester)
  | digestUpdate
  | cstCtlClrcnt (c : Fin 128)
  | smbusDigest (k : Fin 8)
  | smbusBusTimeout
  -- Debug access and boundary scan (spec 20)
  | halt (c : ClerkId)
  | resume (c : ClerkId)
  | step (c : ClerkId)
  | rdreg (c : ClerkId) (arg : Word)
  | wrreg (c : ClerkId) (arg v : Word)
  | rdmem (c : ClerkId) (a : Word)
  | wrmem (c : ClerkId) (a v : Word)
  | rdport (c : ClerkId) (p : Word)
  | arm (c : ClerkId)
  | disarm (c : ClerkId)
  | extest
  | idcode
  | samplePreload (fire : BitVec 64) (gpio : BitVec 32)
  | clamp
  | highz
  | bypass
  -- Register writes with no row of their own (R6), code store reads (R65), read replies (R263)
  | registerWrite (who : Requester) (port : Word) (v : Word)
  | codeStoreLineRead (c : ClerkId) (line : Nat) (how : LineRead)
  | globalPortReadReply (who : Requester) (err : Bool)
deriving DecidableEq, Repr

end Sys2Proof
end

