-- ==== Sys2Proof/Decode.lean ====
section
/-!
DEFINITION. The clerk's decoder: which instruction the words of instruction space encode (spec 05, R132 to R159); an encoding that
the spec does not list is none, and raises ILLEGAL (R133). The command table gives its rows no bits, so no word spells a command.
-/
namespace Sys2Proof

/-- The command that a word of `nbits` bits spells by the table's bits: none, since no row of the table has bits. -/
def decodeTableWord (_nbits _w : Nat) : Option Instr := none

/-! ## Fields of an instruction word (R134) -/

/-- The 4-bit field of `w` from bit `4 * i`. -/
def nibble (w : Word) (i : Nat) : Reg4 := ⟨w.toNat / 16 ^ i % 16, Nat.mod_lt _ (by decide)⟩
/-- The primary opcode byte. -/
def opByte (w : Word) : Nat := w.toNat / 256
/-- The low byte: FN of format S. -/
def lowByte (w : Word) : Fin 256 := ⟨w.toNat % 256, Nat.mod_lt _ (by decide)⟩
/-- Bits 1:0, which name an accumulator. -/
def low2 (w : Nat) : Fin 4 := ⟨w % 4, Nat.mod_lt _ (by decide)⟩
/-- A field of `n` values. -/
def fieldOf (n : Nat) (w : Nat) : Option (Fin n) := if h : w < n then some ⟨w, h⟩ else none
/-- The address HI:LO of format JA. -/
def jumpAddr (w0 w1 : Word) : CodeAddr := w0.setWidth 4 ++ w1
/-- The instruction, where the fields that must be 0 are. -/
def when (ok : Bool) (i : Instr) : Option Instr := if ok then some i else none

/-- Words of the instruction whose first word is `w` (R134, R143, R144). -/
def wordCount (w : Word) : Nat :=
  let op := opByte w
  if op = 0xB4 ∨ op = 0xB5 then 3
  else if op = 0x1E ∨ op = 0x1F ∨ (0x30 ≤ op ∧ op ≤ 0x36) ∨ (0x40 ≤ op ∧ op ≤ 0x4F) ∨ op = 0x70 ∨ op = 0x71 ∨ op = 0x74 ∨
      op = 0x75 ∨ (0xB0 ≤ op ∧ op ≤ 0xB3) ∨ (0xF3 ≤ op ∧ op ≤ 0xF6) then 2
  else if 0x80 ≤ op ∧ op ≤ 0x9F then (if op % 8 < 4 then 1 else 2)
  else if 0xA0 ≤ op ∧ op ≤ 0xAF then (if op % 4 = 1 then 2 else 1)
  else 1

/-! ## The groups of the opcode map (R135) -/

/-- Opcode 00h (R159). -/
def decodeSystem (c : ClerkId) (w : Word) : Option Instr :=
  let n := w.toNat
  match n with
  | 0 => some (.nop c) | 1 => some (.wait c) | 2 => some (.synci c) | 3 => some (.dsync c) | 4 => some (.reti c)
  | 5 => some (.ret c) | 6 => some (.ei c) | 7 => some (.di c)
  | _ =>
    if 0x20 ≤ n ∧ n < 0x40 then (fieldOf 32 (n - 0x20)).map (.svc c)
    else if 0x40 ≤ n ∧ n < 0x60 then (fieldOf 32 (n - 0x40)).map (.brk c)
    else if 0x60 ≤ n then (fieldOf 3 (n - 0x60)).map (.setlm c)
    else none

/-- Opcodes 01h to 0Eh: moves (R152), prefixes (R154) and the block group (R156). -/
def decodeMoves (c : ClerkId) (w : Word) : Option Instr :=
  let d := nibble w 1
  let r := nibble w 0
  match opByte w with
  | 0x01 => (fieldOf 11 r.val).map (.mfs c d)
  | 0x02 => (fieldOf 11 d.val).map fun sr => .mts c sr r
  | 0x03 => when (decide (r.val ≤ 1)) (.mfsp c d (r == 1))
  | 0x04 => when (decide (d.val ≤ 1)) (.mtsp c (d == 1) r)
  | 0x08 => when (d == 0) (.repi c (.reg r))
  | 0x09 => when (d == 0) (.repu c (.reg r))
  | 0x0A => some (.repi c (.imm (lowByte w)))
  | 0x0B => some (.repu c (.imm (lowByte w)))
  | _ =>
    match (lowByte w).val with
    | 0 => some (.bgath c) | 1 => some (.bscat c) | 2 => some (.bramp c) | 3 => some (.bmatch c) | 4 => some (.bsum c)
    | 5 => some (.bpget c) | 6 => some (.bpput c) | _ => none

/-- Opcodes 10h to 26h (R137, R138); `x` is word 1. -/
def decodeScalar (c : ClerkId) (w x : Word) : Option Instr :=
  let d := nibble w 1
  let r := nibble w 0
  match opByte w with
  | 0x10 => some (.mov c d r) | 0x11 => some (.add c d r) | 0x12 => some (.sub c d r) | 0x13 => some (.and c d r)
  | 0x14 => some (.or c d r) | 0x15 => some (.xor c d r) | 0x16 => some (.shl c d r) | 0x17 => some (.shr c d r)
  | 0x18 => some (.sar c d r) | 0x19 => some (.rol c d r) | 0x1A => some (.not c d r) | 0x1B => some (.neg c d r)
  | 0x1C => some (.mul c d r) | 0x1D => some (.mulu c d r)
  | 0x1E =>
    if x.toNat % 4096 = 0 then some (.cmovnz c d r (nibble x 3))
    else if x.toNat % 4096 = 0x800 then some (.cmovz c d r (nibble x 3)) else none
  | 0x1F => when (lowByte x == 0) (.sel c d r (nibble x 3) (nibble x 2))
  | 0x20 => some (.movq c d r) | 0x21 => some (.addq c d r) | 0x22 => some (.subq c d r) | 0x23 => some (.shlq c d r)
  | 0x24 => some (.shrq c d r) | 0x25 => some (.sarq c d r) | 0x26 => some (.rolq c d r)
  | _ => none

/-- Opcodes 30h to 36h: 16-bit immediates (R137, R138). -/
def decodeImm (c : ClerkId) (w x : Word) : Option Instr :=
  let d := nibble w 1
  let r := nibble w 0
  match opByte w with
  | 0x30 => when (r == 0) (.movi c d x)
  | 0x31 => some (.addi c d r x) | 0x32 => some (.andi c d r x) | 0x33 => some (.ori c d r x) | 0x34 => some (.xori c d r x)
  | 0x35 => when (d == 0) (.muli c r x)
  | 0x36 => when (d == 0) (.mului c r x)
  | _ => none

/-- Opcodes 40h to 4Fh: compares (R139). -/
def decodeCompare (c : ClerkId) (w x : Word) : Option Instr :=
  let d := nibble w 1
  let a := nibble w 0
  let b := nibble x 3
  let plain := when (x.toNat % 4096 == 0)
  match opByte w with
  | 0x40 => plain (.ceq c d a b) | 0x41 => plain (.cne c d a b) | 0x42 => plain (.clt c d a b) | 0x43 => plain (.cle c d a b)
  | 0x44 => plain (.cltu c d a b) | 0x45 => plain (.cleu c d a b) | 0x46 => plain (.cadc c d a b)
  | 0x47 => plain (.cova c d a b) | 0x48 => plain (.covs c d a b) | 0x49 => plain (.cbit c d a b)
  | 0x4A => some (.ceqi c d a x) | 0x4B => some (.cnei c d a x) | 0x4C => some (.clti c d a x) | 0x4D => some (.cgti c d a x)
  | 0x4E => some (.cltui c d a x) | 0x4F => some (.cgtui c d a x)
  | _ => none

/-- Opcodes 50h to 75h: branches and calls (R140). -/
def decodeBranch (c : ClerkId) (w x : Word) : Option Instr :=
  let d := nibble w 1
  let r := nibble w 0
  let op := opByte w
  if 0x50 ≤ op ∧ op ≤ 0x5F then some (.bnz c (nibble w 2) (w.setWidth 8))
  else if 0x60 ≤ op ∧ op ≤ 0x6F then some (.bz c (nibble w 2) (w.setWidth 8))
  else match op with
  | 0x70 => when (d == 0) (.jmp c (jumpAddr w x))
  | 0x71 => when (d == 0) (.call c (jumpAddr w x))
  | 0x72 => some (.jmpr c d r)
  | 0x73 => some (.callr c d r)
  | 0x74 => when (r == 0) (.bnzl c d x)
  | 0x75 => when (r == 0) (.bzl c d x)
  | _ => none

/-- The data addressing form that MD and the words give (R143). -/
def decodeMode (w x : Word) : Option AddrMode :=
  let b := nibble w 0
  match (nibble w 2).val % 8 with
  | 0 => some (.ind b) | 1 => some (.postInc b) | 2 => some (.postDec b) | 3 => some (.preDec b) | 4 => some (.disp b x)
  | _ => none
/-- The port addressing form (R144). -/
def decodePort (w x : Word) : Option PortMode :=
  let b := nibble w 0
  match (nibble w 2).val % 4 with
  | 0 => some (.ind b) | 1 => some (.disp b x) | 2 => some (.postInc b)
  | _ => none
/-- Opcodes 80h to AFh: data and port accesses (R143, R144). -/
def decodeAccess (c : ClerkId) (w x : Word) : Option Instr :=
  let d := nibble w 1
  let op := opByte w
  if op < 0x88 then (decodeMode w x).map (.ld c d)
  else if op < 0x90 then (decodeMode w x).map (.st c d)
  else if op < 0x98 then (decodeMode w x).map (.lds c d)
  else if op < 0xA0 then (decodeMode w x).map (.sts c d)
  else if op < 0xA4 then (decodePort w x).map (.inPort c d)
  else if op < 0xA8 then (decodePort w x).map (.ins c d)
  else if op < 0xAC then (decodePort w x).map (.outPort c d)
  else (decodePort w x).map (.outs c d)

/-- Opcodes B0h to B5h: instruction space and immediate stores (R146); `y` is word 2. -/
def decodeSpace (c : ClerkId) (w x y : Word) : Option Instr :=
  let d := nibble w 1
  let r := nibble w 0
  match opByte w with
  | 0xB0 => when (x.toNat % 4096 == 0) (.geti c d (nibble x 3) r)
  | 0xB1 => some (.getia c d (jumpAddr w x))
  | 0xB2 => when (x.toNat % 4096 == 0) (.puti c d (nibble x 3) r)
  | 0xB3 => some (.putia c d (jumpAddr w x))
  | 0xB4 => when (d == 0) (.sti c r x y)
  | 0xB5 => when (d == 0) (.outi c r x y)
  | _ => none

/-- Opcodes C0h to D3h: sheet operations, sheet products, SBCAST and SROT (R148, R149, R151). -/
def decodeSheet (c : ClerkId) (w : Word) : Option Instr :=
  let d := nibble w 1
  let r := nibble w 0
  match opByte w with
  | 0xC0 => some (.smov c d r) | 0xC1 => some (.sadd c d r) | 0xC2 => some (.ssub c d r) | 0xC3 => some (.sand c d r)
  | 0xC4 => some (.sor c d r) | 0xC5 => some (.sxor c d r) | 0xC6 => some (.smin c d r) | 0xC7 => some (.smax c d r)
  | 0xC8 => some (.sabd c d r) | 0xC9 => some (.sshl c d r) | 0xCA => some (.sshr c d r) | 0xCB => some (.ssar c d r)
  | 0xCC => some (.sceq c d r) | 0xCD => some (.sclt c d r) | 0xCE => some (.scltu c d r) | 0xCF => some (.sandn c d r)
  | 0xD0 => some (.smul c d r) | 0xD1 => some (.smulu c d r)
  | 0xD2 => some (.sbcast c d r)
  | 0xD3 => (fieldOf 8 r.val).map (.srot c d)
  | _ => none

/-- Opcodes D4h to EEh: accumulates, accumulator moves and reductions (R149, R150). -/
def decodeAcc (c : ClerkId) (w : Word) : Option Instr :=
  let d := nibble w 1
  let r := nibble w 0
  let op := opByte w
  if 0xD4 ≤ op ∧ op ≤ 0xD7 then some (.smac c (low2 op) d r)
  else if 0xD8 ≤ op ∧ op ≤ 0xDB then some (.smacw c (low2 op) d r)
  else if 0xDC ≤ op ∧ op ≤ 0xDF then some (.smacuw c (low2 op) d r)
  else if 0xE4 ≤ op ∧ op ≤ 0xE7 then some (.aout c d (low2 op) r)
  else if 0xE8 ≤ op ∧ op ≤ 0xEB then when (d == 0) (.aput c (low2 op) r)
  else match op with
  | 0xE0 => when (decide ((lowByte w).val < 4)) (.aclr c (low2 w.toNat))
  | 0xE1 => when (decide ((lowByte w).val < 4)) (.ahsum c (low2 w.toNat))
  | 0xE2 => (fieldOf 3 (w.toNat % 4)).map (.aget c d (low2 (w.toNat / 4)))
  | 0xE3 => (fieldOf 3 (w.toNat % 4)).map (.aset c d (low2 (w.toNat / 4)))
  | 0xEC => some (.ssum c d r) | 0xED => some (.smaxr c d r) | 0xEE => some (.sminr c d r)
  | _ => none

/-- Opcodes F0h to F6h: epoch instructions and permutes (R151, R157). -/
def decodeLast (c : ClerkId) (w x : Word) : Option Instr :=
  let d := nibble w 1
  let r := nibble w 0
  match opByte w with
  | 0xF0 => some (.eopen c d r)
  | 0xF1 => when (d == 0) (.post c r)
  | 0xF2 => when (d == 0) (.recall c r)
  | 0xF3 => when (x.toNat % 4096 == 0) (.scmov c d r (nibble x 3))
  | 0xF4 => (fieldOf 8 x.toNat).map (.sget c d r)
  | 0xF5 => (fieldOf 8 x.toNat).map (.sput c d r)
  | 0xF6 => when (x.toNat % 4096 == 0) (.sperm c d r (nibble x 3))
  | _ => none

/-- The instruction of clerk `c` that the words encode, by the opcode map of R135; none where the encoding is undefined or
reserved, which raises ILLEGAL (R133). Words beyond the instruction's own length are not looked at. -/
def decodeInsn (c : ClerkId) (w0 w1 w2 : Word) : Option Instr :=
  let op := opByte w0
  if op = 0 then decodeSystem c w0
  else if op ≤ 0x04 ∨ (0x08 ≤ op ∧ op ≤ 0x0B) ∨ op = 0x0E then decodeMoves c w0
  else if op < 0x10 then none
  else if op < 0x30 then decodeScalar c w0 w1
  else if op < 0x40 then decodeImm c w0 w1
  else if op < 0x50 then decodeCompare c w0 w1
  else if op < 0x80 then decodeBranch c w0 w1
  else if op < 0xB0 then decodeAccess c w0 w1
  else if op < 0xC0 then decodeSpace c w0 w1 w2
  else if op < 0xD4 then decodeSheet c w0
  else if op < 0xF0 then decodeAcc c w0
  else decodeLast c w0 w1

end Sys2Proof
end

