-- ==== Sys2Proof/Config.lean ====
section
/-!
DEFINITION. What the spec leaves to the part, and the free values: each is an opaque constant, so no proof can see a
value of it. Log 4 lists every one and the rule it belongs to.
-/
namespace Sys2Proof.Config

/-- The 16-bit predictor key of clerk `c`'s `n`-th context creation, drawn from the TRNG (R73). -/
opaque predKey (c n : Nat) : BitVec 16
/-- Which of four BTB ways a new entry replaces when its set is full (R66 gives no replacement rule). -/
opaque btbVictim (n : Nat) : Nat
/-- A free word: the `n`-th value the spec leaves open. -/
opaque freeWord (n : Nat) : Word
/-- The nine check bits of the (137,128) SEC-DED code of a sheet (R210): the spec gives no code matrix. -/
opaque secded (d : Sheet) : BitVec 9
/-- A 32-bit nonce drawn from the TRNG (R435). -/
opaque nonce (n : Nat) : BitVec 32
/-- Stage-time measured on clerk `c`'s replica path in microsecond `us`, in 1/256 ns (R86): a physical quantity. -/
opaque stageTime (c us : Nat) : Word
/-- Does a tick of the AON oscillator (nominal 32,768 Hz, within 3 %) fall in the `n`-th 5 ns tick since VAON rose (R385)? -/
opaque aonTick (n : Nat) : Bool
/-- The SHA-256 of the KEY bytes that the part's OTP holds, if one is programmed (R454). -/
opaque otpKeyHash : Option (List Word)

end Sys2Proof.Config
end

