-- ==== Sys2Proof/Machine/Table.lean ====
section
/-!
DEFINITION. Tables keyed by numbers, kept as lists: the form in which State holds every indexed resource (clerks,
axes, mailbags, ports), and the sparse word memory. A table lists only the entries that were written; the reader
names what an unlisted key reads as.
-/
namespace Sys2Proof.Machine

/-- A table: pairs of a key and a value. -/
abbrev Tbl (α : Type) := List (Nat × α)

/-- The value listed under `k`, if any. -/
def Tbl.find? {α : Type} : Tbl α → Nat → Option α
  | [], _ => none
  | (k', v) :: t, k => if k' = k then some v else Tbl.find? t k

/-- The value under `k`, or `d` where `k` is not listed. -/
def Tbl.getD {α : Type} (t : Tbl α) (k : Nat) (d : α) : α := (Tbl.find? t k).getD d

/-- The table with `v` under `k`; keys stay in rising order where they were. -/
def Tbl.set {α : Type} : Tbl α → Nat → α → Tbl α
  | [], k, v => [(k, v)]
  | (k', v') :: t, k, v =>
    if k < k' then (k, v) :: (k', v') :: t
    else if k = k' then (k, v) :: t
    else (k', v') :: Tbl.set t k v

/-- The table without the keys that `p` names. -/
def Tbl.drop {α : Type} (t : Tbl α) (p : Nat → Bool) : Tbl α := t.filter fun e => !p e.1

/-- The table without key `k`. -/
def Tbl.erase {α : Type} (t : Tbl α) (k : Nat) : Tbl α := Tbl.drop t (· == k)

/-- Keys strictly rising: the canonical order of a table. -/
def Tbl.sorted {α : Type} : Tbl α → Bool
  | [] => true
  | [_] => true
  | (k, _) :: (k', v') :: t => decide (k < k') && Tbl.sorted ((k', v') :: t)

/-- The device's memory: every RAM the spec gives it, as ONE sparse map from a word's key to the word.
The word is the spec's only addressable unit (R107). -/
abbrev Mem := Tbl Word

/-- What a word that nothing has written reads as. DESIGN CHOICE (unsafe, log 2): the spec gives no power-on contents. -/
def Mem.blank : Word := 0

/-- The word at `a`. -/
def Mem.read (m : Mem) (a : Nat) : Word := Tbl.getD m a Mem.blank

/-- The memory with `v` at `a`; a blank word is not listed, so equal memories are equal lists. -/
def Mem.write (m : Mem) (a : Nat) (v : Word) : Mem :=
  if v = Mem.blank then Tbl.erase m a else Tbl.set m a v

/-- The canonical form: addresses strictly rising, and no listed word equal to what an unlisted one reads as. -/
def Mem.wf (m : Mem) : Bool := Tbl.sorted m && m.all fun e => decide (e.2 ≠ Mem.blank)

end Sys2Proof.Machine
end

