-- ==== Sys2Proof/Machine/Regs.lean ====
section
/-!
DEFINITION. The register map: a name for the key of every register the spec gives the device, and one row per register with
the access type of each of its bits (R6) and its place in a multi-word value (R3, R4). A device-global port p (R105) has key
p; a die-local port p of die d (R104) has key 10000h * (1 + d) + p; a clerk-local port p of clerk c (R103) has key
100000h + 1000h * c + p. Each name's comment gives the rule that names the register and the spec file's number.
-/
namespace Sys2Proof.Machine

/-- Key of die-local port `p` of die `d` (R101, R104). -/
def dieKey (d p : Nat) : Nat := 0x10000 * (1 + d) + p
/-- Key of clerk-local port `p` of clerk `c` (R101, R103). -/
def clerkKey (c p : Nat) : Nat := 0x100000 + 0x1000 * c + p

namespace Reg

/-- R21 (spec 01): bits 15:0=RO. -/
def DEVICE_ID : Nat := 0x4000
/-- R21 (spec 01): bits 15:0=RO. -/
def DEVICE_REV : Nat := 0x4001
/-- R21 (spec 01): bits 15=W1C, 4=RO, 3:0=RO. -/
def DEVICE_MODE : Nat := 0x4002
/-- R21 (spec 01): bits 15=WO, 10:8=RW, 3:0=RW. -/
def DEVICE_MODE_REQ : Nat := 0x4003
/-- R21 (spec 01): bits 15:8=SW1C, 7:0=RO. -/
def DEVICE_DIES : Nat := 0x4004
/-- R366 (spec 13): bits 15:12=W1C. -/
def PWR_STAT : Nat := 0x4100
/-- R366 (spec 13): bits 15=WO. -/
def PWR_CTL : Nat := 0x4101
/-- R366 (spec 13): bits 15:0=RO. -/
def PWR_ON (i : Nat) : Nat := 0x4102 + i
/-- R366 (spec 13): bits 15:0=RW. -/
def PWR_HVOTE (i : Nat) : Nat := 0x4106 + i
/-- R366 (spec 13): bits 15:0=CS. -/
def PWR_FORCE (i : Nat) : Nat := 0x410A + i
/-- R366 (spec 13): bits 15:0=CS. -/
def PWR_CVPERM (i : Nat) : Nat := 0x410E + i
/-- R366 (spec 13): bits 15:0=RO. -/
def PWR_VOTED (i : Nat) : Nat := 0x4112 + i
/-- R366 (spec 13): bits 15:0=RW. -/
def PWR_HOLDOFF : Nat := 0x4116
/-- R366 (spec 13): bits 15=RO, 11:8=RO, 6:4=RO, 2:0=RO. -/
def PWR_PL (i : Nat) : Nat := 0x4118 + i
/-- R366 (spec 13): bits 15=WO, 2:0=RW. -/
def PWR_PLREQ (i : Nat) : Nat := 0x411C + i
/-- R366 (spec 13): bits 2:0=CS. -/
def PWR_PLMAX (i : Nat) : Nat := 0x4120 + i
/-- R366 (spec 13): bits 15:0=RW. -/
def PWR_PLTOUT : Nat := 0x4124
/-- R366 (spec 13): bits 7:0=RW. -/
def PWR_VTOL : Nat := 0x4125
/-- R366 (spec 13): bits 15:0=RO. -/
def PWR_PLFAIL : Nat := 0x4126
/-- R366 (spec 13): bits 7:0=RW. -/
def PWR_POLL : Nat := 0x4127
/-- R366 (spec 13): bits 15:8=CS, 3:0=CS. -/
def PMB_CFG (i : Nat) : Nat := 0x4130 + 0x8 * i
/-- R366 (spec 13): bits 4:0=CS. -/
def PMB_EXP (i : Nat) : Nat := 0x4131 + 0x8 * i
/-- R366 (spec 13): bits 15:0=RO. -/
def PMB_VOUT (i : Nat) : Nat := 0x4132 + 0x8 * i
/-- R366 (spec 13): bits 15:0=RO. -/
def PMB_IOUT (i : Nat) : Nat := 0x4133 + 0x8 * i
/-- R366 (spec 13): bits 15:0=RO. -/
def PMB_STATUS (i : Nat) : Nat := 0x4134 + 0x8 * i
/-- R366 (spec 13): bits 15:0=RO. -/
def PMB_ERR (i : Nat) : Nat := 0x4135 + 0x8 * i
/-- R366 (spec 13): bits 15:14=WO. -/
def PMB_CTL (i : Nat) : Nat := 0x4136 + 0x8 * i
/-- R366 (spec 13): bits 0=RO. -/
def PWR_AONSTAT : Nat := 0x4170
/-- R366 (spec 13): bits 3:0=RO. -/
def PWR_TRANS : Nat := 0x4171
/-- R388 (spec 14): bits 15:14=W1C, 12:10=RO, 2:0=RO. -/
def AON_STAT : Nat := 0x4200
/-- R388 (spec 14): bits 15:14=WO. -/
def AON_CTL : Nat := 0x4201
/-- R388 (spec 14): bits 2:0=WO. -/
def AON_PADHOLD_REL : Nat := 0x4202
/-- R388 (spec 14): bits 15=RO, 14:12=RW, 7:0=RW. -/
def AON_WAKECFG : Nat := 0x4203
/-- R388 (spec 14): bits 15:0=RW. -/
def AON_WAKEGPIOL : Nat := 0x4204
/-- R388 (spec 14): bits 15:0=RW. -/
def AON_WAKEGPIOH : Nat := 0x4205
/-- R388 (spec 14): bits 11:0=RW. -/
def AON_WAKEENC : Nat := 0x4206
/-- R388 (spec 14): bits 15:0=RW. -/
def AON_WTIMEL : Nat := 0x4207
/-- R388 (spec 14): bits 15:0=RW. -/
def AON_WTIMEH : Nat := 0x4208
/-- R388 (spec 14): bits 15:0=RO. -/
def AON_TIMEL : Nat := 0x4209
/-- R388 (spec 14): bits 15:0=RO. -/
def AON_TIMEM : Nat := 0x420A
/-- R388 (spec 14): bits 15:0=RO. -/
def AON_TIMEH : Nat := 0x420B
/-- R388 (spec 14): bits 15:0=RW. -/
def AON_D1TOUT : Nat := 0x420C
/-- R388 (spec 14): bits 15:0=RO. -/
def AON_SLEEPCNT : Nat := 0x420D
/-- R388 (spec 14): bits 15:0=RO. -/
def AON_ABORTCNT : Nat := 0x420E
/-- R388 (spec 14): bits 15:0=RO. -/
def AON_REFUSECNT : Nat := 0x420F
/-- R388 (spec 14): bits 15:0=RO. -/
def ENTRY_RECORD (i : Nat) : Nat := 0x4210 + i
/-- R388 (spec 14): bits 15:0=RO. -/
def WAKE_RECORD (i : Nat) : Nat := 0x4214 + i
/-- R388 (spec 14): bits 14:0=RW. -/
def AON_SRADDR : Nat := 0x4220
/-- R388 (spec 14): bits 15:0=RW. -/
def AON_SRDATA : Nat := 0x4221
/-- R388 (spec 14): bits 15:0=RO. -/
def AON_WAKECNT : Nat := 0x4222
/-- R388 (spec 14): bits 15:0=RO. -/
def AON_SYNCTL : Nat := 0x4223
/-- R388 (spec 14): bits 15:0=RO. -/
def AON_SYNCTM : Nat := 0x4224
/-- R388 (spec 14): bits 15:0=RO. -/
def AON_SYNCTH : Nat := 0x4225
/-- R388 (spec 14): bits 15:0=RO. -/
def AON_SYNCAXL : Nat := 0x4226
/-- R388 (spec 14): bits 15:0=RO. -/
def AON_SYNCAXH : Nat := 0x4227
/-- R447 (spec 17): bits 15:12=W1C, 6:5=RO, 2:0=RO. -/
def CS_STAT : Nat := 0x4300
/-- R447 (spec 17): bits 1:0=WO. -/
def CS_CMD : Nat := 0x4301
/-- R447 (spec 17): bits 15:0=RO. -/
def CS_RESULT : Nat := 0x4302
/-- R447 (spec 17): bits 15:0=RO. -/
def CS_NONCEL : Nat := 0x4303
/-- R447 (spec 17): bits 15:0=RO. -/
def CS_NONCEH : Nat := 0x4304
/-- R447 (spec 17): bits 6:0=RO. -/
def CS_ECOUNT : Nat := 0x4305
/-- R447 (spec 17): bits 15:0=WO. -/
def CS_EPUT (i : Nat) : Nat := 0x4306 + i
/-- R447 (spec 17): bits 5:0=RW. -/
def CS_EIDX : Nat := 0x4309
/-- R447 (spec 17): bits 15:0=RO. -/
def CS_EGET (i : Nat) : Nat := 0x430A + i
/-- R447 (spec 17): bits 15:0=WO. -/
def CS_SIGN (i : Nat) : Nat := 0x430D + i
/-- R447 (spec 17): bits 15:0=CS. -/
def CS_WINDOW : Nat := 0x4311
/-- R447 (spec 17): bits 15:0=RO. -/
def CS_TIMELEFT : Nat := 0x4312
/-- R447 (spec 17): bits 15:0=RO. -/
def CS_APPLIED : Nat := 0x4313
/-- R447 (spec 17): bits 15:0=RO. -/
def CS_REFUSED : Nat := 0x4314
/-- R447 (spec 17): bits 15:0=RO. -/
def CS_REJECTED : Nat := 0x4315
/-- R447 (spec 17): bits 15:0=RO. -/
def CS_REPLAY : Nat := 0x4316
/-- R447 (spec 17): bits 15:0=RO. -/
def CS_BADNONCE : Nat := 0x4317
/-- R447 (spec 17): bits 15:0=RO. -/
def CS_SAMEPARTY : Nat := 0x4318
/-- R447 (spec 17): bits 15:0=RO. -/
def CS_EXPIRED : Nat := 0x4319
/-- R447 (spec 17): bits 15:0=RO. -/
def CS_BUSYCNT : Nat := 0x431A
/-- R447 (spec 17): bits 15:0=RO. -/
def CS_ABORTED : Nat := 0x431B
/-- R447 (spec 17): bits 15:0=RO. -/
def CS_PVCNT : Nat := 0x431C
/-- R447 (spec 17): bits 15:0=RO. -/
def CS_CSWCNT : Nat := 0x431D
/-- R447 (spec 17): bits 15:0=RO. -/
def CS_CPVCNT : Nat := 0x431E
/-- R447 (spec 17): bits 15:0=RO. -/
def CS_PVORIGIN : Nat := 0x431F
/-- R447 (spec 17): bits 15:0=RO. -/
def CS_PVPORT : Nat := 0x4320
/-- R447 (spec 17): bits 15=WO. -/
def CS_CTL : Nat := 0x4321
/-- R447 (spec 17): bits 15:0=CS. -/
def CS_GLOCK (i : Nat) : Nat := 0x4322 + i
/-- R447 (spec 17): bits 1:0=CS. -/
def CS_GLOCKPM : Nat := 0x432A
/-- R448 (spec 17): bits 15=W1C. -/
def PST_STAT : Nat := 0x4400
/-- R448 (spec 17): bits 15=WO. -/
def PST_CTL : Nat := 0x4401
/-- R448 (spec 17): bits 7:0=RW. -/
def PST_SEL : Nat := 0x4402
/-- R448 (spec 17): bits 15:14=CS, 11:8=CS. -/
def RT_CFG : Nat := 0x4403
/-- R448 (spec 17): bits 15:0=CS. -/
def RT_RNDL : Nat := 0x4404
/-- R448 (spec 17): bits 15:0=CS. -/
def RT_RNDH : Nat := 0x4405
/-- R448 (spec 17): bits 15:0=CS. -/
def RT_FAB : Nat := 0x4406
/-- R448 (spec 17): bits 15:0=CS. -/
def RT_DDR : Nat := 0x4407
/-- R448 (spec 17): bits 15:0=RO. -/
def RT_FABMAX : Nat := 0x4408
/-- R448 (spec 17): bits 15:0=RO. -/
def RT_DDRMAX : Nat := 0x4409
/-- R448 (spec 17): bits 15:0=RO. -/
def RT_FABWAIT : Nat := 0x440A
/-- R448 (spec 17): bits 15:0=RO. -/
def RT_DDRWAIT : Nat := 0x440B
/-- R448 (spec 17): bits 15:0=RO. -/
def RT_DDRUSED : Nat := 0x440C
/-- R448 (spec 17): bits 7:0=CS. -/
def PST_PMROUTE (i : Nat) : Nat := 0x440E + i
/-- R448 (spec 17): bits 7:0=CS. -/
def CLK_ROUTE (i : Nat) : Nat := 0x4480 + i
/-- R448 (spec 17): bits 15:12=CS, 7:0=CS. -/
def PR_CFG (i : Nat) : Nat := 0x4500 + 0x4 * i
/-- R448 (spec 17): bits 15:0=CS. -/
def PR_FIRST (i : Nat) : Nat := 0x4501 + 0x4 * i
/-- R448 (spec 17): bits 15:0=CS. -/
def PR_LAST (i : Nat) : Nat := 0x4502 + 0x4 * i
/-- R498 (spec 20): bits 15:13=W1C. -/
def ERR_STAT : Nat := 0x4600
/-- R498 (spec 20): bits 15:13=WO. -/
def ERR_CTL : Nat := 0x4601
/-- R498 (spec 20): bits 15:0=RO. -/
def ERR_LOGCNT : Nat := 0x4602
/-- R498 (spec 20): bits 5:0=RW. -/
def ERR_LOGSEL : Nat := 0x4603
/-- R498 (spec 20): bits 15:0=RO. -/
def ERR_LOG (i : Nat) : Nat := 0x4604 + i
/-- R498 (spec 20): bits 6:0=RW. -/
def ERR_DIGSEL : Nat := 0x460A
/-- R498 (spec 20): bits 15:0=RO. -/
def ERR_DIGDATA : Nat := 0x460B
/-- R498 (spec 20): bits 15=WO, 7:0=WO. -/
def ERR_RESTART : Nat := 0x460C
/-- R498 (spec 20): bits 15:0=RW. -/
def FW_WIN (i : Nat) : Nat := 0x4610 + 0x2 * i
/-- R498 (spec 20): bits 15=RW, 7:0=RW. -/
def FW_CFG (i : Nat) : Nat := 0x4611 + 0x2 * i
/-- R498 (spec 20): bits 15:0=RO. -/
def FW_LAST (i : Nat) : Nat := 0x4620 + i
/-- R498 (spec 20): bits 15:0=RO. -/
def ERR_HALTED (i : Nat) : Nat := 0x4630 + i
/-- R498 (spec 20): bits 1:0=RO. -/
def ERR_HALTEDPM : Nat := 0x4638
/-- R498 (spec 20): bits 15:0=RO. -/
def DLO_CNT (i : Nat) : Nat := 0x4640 + i
/-- R498 (spec 20): bits 3:0=RO. -/
def DLO_CAPN : Nat := 0x4650
/-- R498 (spec 20): bits 15:0=RO. -/
def DLO_CAP (i : Nat) (j : Nat) : Nat := 0x4680 + 0x8 * i + j
/-- R470 (spec 18): bits 15:11=W1C, 9:4=RO, 2:0=RO. -/
def IMG_STAT : Nat := 0x4700
/-- R470 (spec 18): bits 1:0=WO. -/
def IMG_CMD : Nat := 0x4701
/-- R470 (spec 18): bits 15=CS, 7:0=CS. -/
def IMG_CFG : Nat := 0x4702
/-- R470 (spec 18): bits 15:0=RO. -/
def IMG_IDL : Nat := 0x4703
/-- R470 (spec 18): bits 15:0=RO. -/
def IMG_IDH : Nat := 0x4704
/-- R470 (spec 18): bits 15:0=RO. -/
def IMG_VER0 : Nat := 0x4705
/-- R470 (spec 18): bits 15:0=RO. -/
def IMG_VER1 : Nat := 0x4706
/-- R470 (spec 18): bits 15:0=RO. -/
def IMG_CMIN0 : Nat := 0x4707
/-- R470 (spec 18): bits 15:0=RO. -/
def IMG_CMIN1 : Nat := 0x4708
/-- R470 (spec 18): bits 15:0=RO. -/
def IMG_ARB : Nat := 0x4709
/-- R470 (spec 18): bits 15:0=RO. -/
def IMG_STGIDL : Nat := 0x470A
/-- R470 (spec 18): bits 15:0=RO. -/
def IMG_STGIDH : Nat := 0x470B
/-- R470 (spec 18): bits 15:0=RO. -/
def IMG_STGVER0 : Nat := 0x470C
/-- R470 (spec 18): bits 15:0=RO. -/
def IMG_STGVER1 : Nat := 0x470D
/-- R470 (spec 18): bits 15:0=RO. -/
def IMG_STGCMIN0 : Nat := 0x470E
/-- R470 (spec 18): bits 15:0=RO. -/
def IMG_STGCMIN1 : Nat := 0x470F
/-- R470 (spec 18): bits 15:0=RW. -/
def IMG_SRCL : Nat := 0x4710
/-- R470 (spec 18): bits 15:0=RW. -/
def IMG_SRCM : Nat := 0x4711
/-- R470 (spec 18): bits 5:0=RW. -/
def IMG_SRCH : Nat := 0x4712
/-- R470 (spec 18): bits 15:0=RW. -/
def IMG_LENL : Nat := 0x4713
/-- R470 (spec 18): bits 0=RW. -/
def IMG_LENH : Nat := 0x4714
/-- R470 (spec 18): bits 15:6=RO, 3:0=RO. -/
def IMG_RPSTAT : Nat := 0x4715
/-- R470 (spec 18): bits 15=WO, 14=RW. -/
def IMG_RPCTL : Nat := 0x4716
/-- R470 (spec 18): bits 15:0=RW. -/
def IMG_DRAINT : Nat := 0x4717
/-- R470 (spec 18): bits 15:0=RO. -/
def IMG_AUTHFAIL : Nat := 0x4718
/-- R470 (spec 18): bits 15:0=RO. -/
def IMG_RPCNT : Nat := 0x4719
/-- R470 (spec 18): bits 15:0=RO. -/
def IMG_RPFAIL : Nat := 0x471A
/-- R470 (spec 18): bits 15:0=RO. -/
def IMG_RPDISC : Nat := 0x471B
/-- R470 (spec 18): bits 15:0=RO. -/
def IMG_FBSKIP : Nat := 0x471C
/-- R470 (spec 18): bits 15:0=RO. -/
def IMG_RDERR : Nat := 0x471D
/-- R470 (spec 18): bits 15=WO. -/
def IMG_CTL : Nat := 0x471E
/-- R470 (spec 18): bits 15=RO, 14=WO, 13=RO, 6:0=WO. -/
def IMG_HLOAD : Nat := 0x471F
/-- R470 (spec 18): bits 7:0=RO. -/
def IMG_DIEBANK : Nat := 0x4720
/-- R53 (spec 02): bits 15:0=RO. -/
def AX_POSF (i : Nat) : Nat := 0x4800 + 0x40 * i
/-- R53 (spec 02): bits 15:0=RO. -/
def AX_POSL (i : Nat) : Nat := 0x4801 + 0x40 * i
/-- R53 (spec 02): bits 15:0=RO. -/
def AX_POSH (i : Nat) : Nat := 0x4802 + 0x40 * i
/-- R53 (spec 02): bits 15:12=W1C, 3:0=RO. -/
def AX_STAT (i : Nat) : Nat := 0x4803 + 0x40 * i
/-- R53 (spec 02): bits 15:0=RW. -/
def AX_CFG (i : Nat) : Nat := 0x4804 + 0x40 * i
/-- R53 (spec 02): bits 15:4=RW. -/
def AX_DEVCFG (i : Nat) : Nat := 0x4805 + 0x40 * i
/-- R53 (spec 02): bits 15:0=RW. -/
def AX_MODL (i : Nat) : Nat := 0x4806 + 0x40 * i
/-- R53 (spec 02): bits 15:0=RW. -/
def AX_MODH (i : Nat) : Nat := 0x4807 + 0x40 * i
/-- R53 (spec 02): bits 15:0=RO. -/
def AX_ANGF (i : Nat) : Nat := 0x4808 + 0x40 * i
/-- R53 (spec 02): bits 15:0=RO. -/
def AX_ANGL (i : Nat) : Nat := 0x4809 + 0x40 * i
/-- R53 (spec 02): bits 15:0=RO. -/
def AX_ANGH (i : Nat) : Nat := 0x480A + 0x40 * i
/-- R53 (spec 02): bits 15:14=RW, 7:0=RW. -/
def AX_ZCFG (i : Nat) : Nat := 0x480B + 0x40 * i
/-- R53 (spec 02): bits 15:0=RW. -/
def AX_ZPOSL (i : Nat) : Nat := 0x480C + 0x40 * i
/-- R53 (spec 02): bits 15:0=RW. -/
def AX_ZPOSH (i : Nat) : Nat := 0x480D + 0x40 * i
/-- R53 (spec 02): bits 15:0=RO. -/
def AX_ZLATF (i : Nat) : Nat := 0x480E + 0x40 * i
/-- R53 (spec 02): bits 15:0=RO. -/
def AX_ZLATL (i : Nat) : Nat := 0x480F + 0x40 * i
/-- R53 (spec 02): bits 15:0=RO. -/
def AX_ZLATH (i : Nat) : Nat := 0x4810 + 0x40 * i
/-- R53 (spec 02): bits 15:0=RW. -/
def AX_NUM (i : Nat) : Nat := 0x4811 + 0x40 * i
/-- R53 (spec 02): bits 15:0=RW. -/
def AX_DEN (i : Nat) : Nat := 0x4812 + 0x40 * i
/-- R53 (spec 02): bits 15:0=RW. -/
def AX_PHOFS (i : Nat) : Nat := 0x4813 + 0x40 * i
/-- R53 (spec 02): bits 15:0=WO. -/
def AX_SETF (i : Nat) : Nat := 0x4814 + 0x40 * i
/-- R53 (spec 02): bits 15:0=WO. -/
def AX_SETL (i : Nat) : Nat := 0x4815 + 0x40 * i
/-- R53 (spec 02): bits 15:0=WO. -/
def AX_SETH (i : Nat) : Nat := 0x4816 + 0x40 * i
/-- R53 (spec 02): bits 15:14=WO. -/
def AX_CTRL (i : Nat) : Nat := 0x4817 + 0x40 * i
/-- R53 (spec 02): bits 3:0=RO. -/
def AX_DEVCAUSE (i : Nat) : Nat := 0x4818 + 0x40 * i
/-- R53 (spec 02): bits 15:0=RO. -/
def AX_DEVSEQ (i : Nat) : Nat := 0x4819 + 0x40 * i
/-- R53 (spec 02): bits 15:0=RO. -/
def AX_DEVPOSF (i : Nat) : Nat := 0x481A + 0x40 * i
/-- R53 (spec 02): bits 15:0=RO. -/
def AX_DEVPOSL (i : Nat) : Nat := 0x481B + 0x40 * i
/-- R53 (spec 02): bits 15:0=RO. -/
def AX_DEVPOSH (i : Nat) : Nat := 0x481C + 0x40 * i
/-- R53 (spec 02): bits 15:0=RO. -/
def AX_TPREDL (i : Nat) : Nat := 0x481D + 0x40 * i
/-- R53 (spec 02): bits 7:0=RO. -/
def AX_TPREDH (i : Nat) : Nat := 0x481E + 0x40 * i
/-- R53 (spec 02): bits 15:0=RO. -/
def AX_DEVCNT (i : Nat) : Nat := 0x481F + 0x40 * i
/-- R53 (spec 02): bits 15:0=RO. -/
def AX_EDGEERR (i : Nat) : Nat := 0x4820 + 0x40 * i
/-- R55 (spec 02): bits 15=RW, 5:0=RW. -/
def AX_BCAST_CFG : Nat := 0x4BF8
/-- R55 (spec 02): bits 15:0=RW. -/
def AX_BCAST_MASK : Nat := 0x4BF9
/-- R55 (spec 02): bits 15:0=RO. -/
def AX_BSEQ : Nat := 0x4BFA
/-- R55 (spec 02): bits 7:0=RO. -/
def AX_BEPOCH : Nat := 0x4BFB
/-- R297 (spec 10): bits 15:11=W1C, 1:0=RO. -/
def OB_STAT : Nat := 0x4C00
/-- R297 (spec 10): bits 15=RW, 7:0=RW. -/
def OB_CFG : Nat := 0x4C01
/-- R297 (spec 10): bits 15:0=RW. -/
def OB_SPBASEL : Nat := 0x4C02
/-- R297 (spec 10): bits 10:0=RW. -/
def OB_SPBASEH : Nat := 0x4C03
/-- R297 (spec 10): bits 15:0=RW. -/
def OB_SPLEN : Nat := 0x4C04
/-- R297 (spec 10): bits 12:0=RO. -/
def OB_COUNT : Nat := 0x4C05
/-- R297 (spec 10): bits 15:0=RO. -/
def OB_SPCOUNTL : Nat := 0x4C06
/-- R297 (spec 10): bits 0=RO. -/
def OB_SPCOUNTH : Nat := 0x4C07
/-- R297 (spec 10): bits 15:0=RO. -/
def OB_RELL : Nat := 0x4C08
/-- R297 (spec 10): bits 15:0=RO. -/
def OB_RELH : Nat := 0x4C09
/-- R297 (spec 10): bits 15:0=RO. -/
def OB_LATE : Nat := 0x4C0A
/-- R297 (spec 10): bits 15:0=RO. -/
def OB_STALE : Nat := 0x4C0B
/-- R297 (spec 10): bits 15:0=RO. -/
def OB_FORMAT : Nat := 0x4C0C
/-- R297 (spec 10): bits 15:0=RO. -/
def OB_MODE : Nat := 0x4C0D
/-- R297 (spec 10): bits 15:0=RO. -/
def OB_SUPP : Nat := 0x4C0E
/-- R297 (spec 10): bits 15:0=RO. -/
def OB_HWMARK : Nat := 0x4C0F
/-- R297 (spec 10): bits 15:0=WO. -/
def OB_PUSH (i : Nat) : Nat := 0x4C10 + i
/-- R297 (spec 10): bits 15=WO, 3:0=WO. -/
def OB_PURGE : Nat := 0x4C18
/-- R297 (spec 10): bits 15:0=RO. -/
def OB_PURGED : Nat := 0x4C19
/-- R297 (spec 10): bits 10:0=RO. -/
def OB_VERDICT : Nat := 0x4C1A
/-- R297 (spec 10): bits 15=WO. -/
def OB_CTL : Nat := 0x4C1B
/-- R297 (spec 10): bits 15:0=RO. -/
def OB_SPERR : Nat := 0x4C1C
/-- R298 (spec 10): bits 15=W1C, 14=SW1C, 3:0=RO. -/
def FE_STAT : Nat := 0x4C40
/-- R298 (spec 10): bits 15:14=WO. -/
def FE_CTL : Nat := 0x4C41
/-- R298 (spec 10): bits 7:0=RW. -/
def FE_DISCT : Nat := 0x4C42
/-- R298 (spec 10): bits 15:12=RW. -/
def FE_RNDCFG : Nat := 0x4C43
/-- R298 (spec 10): bits 15:0=RW. -/
def FE_RNDLENL : Nat := 0x4C44
/-- R298 (spec 10): bits 15:0=RW. -/
def FE_RNDLENH : Nat := 0x4C45
/-- R298 (spec 10): bits 15:0=RO. -/
def FE_SAFECNT : Nat := 0x4C46
/-- R298 (spec 10): bits 15:0=RO. -/
def FE_CHSAFE (i : Nat) : Nat := 0x4C47 + i
/-- R298 (spec 10): bits 15:0=RW. -/
def GP_DIR (i : Nat) : Nat := 0x4C60 + i
/-- R298 (spec 10): bits 15:0=RW. -/
def GP_OUT (i : Nat) : Nat := 0x4C62 + i
/-- R298 (spec 10): bits 15:0=RO. -/
def GP_IN (i : Nat) : Nat := 0x4C64 + i
/-- R298 (spec 10): bits 15:0=RW. -/
def GP_OB (i : Nat) : Nat := 0x4C66 + i
/-- R196 (spec 06): bits 15:0=RW. -/
def EPOCH_HORIZON (i : Nat) : Nat := 0x4F00 + i
/-- R196 (spec 06): bits 15:0=WO. -/
def EPOCH_RECALL : Nat := 0x4F10
/-- R196 (spec 06): bits 9:0=RO. -/
def EPOCH_OPEN : Nat := 0x4F11
/-- R196 (spec 06): bits 15:0=RO. -/
def EPOCH_RECALLS : Nat := 0x4F12
/-- R196 (spec 06): bits 15:0=RO. -/
def EPOCH_REGREC : Nat := 0x4F13
/-- R196 (spec 06): bits 15:0=RO. -/
def EPOCH_REVOKED : Nat := 0x4F14
/-- R196 (spec 06): bits 15:0=RO. -/
def EPOCH_LATEPOST : Nat := 0x4F15
/-- R196 (spec 06): bits 15=WO. -/
def EPOCH_CTL : Nat := 0x4F16
/-- R299 (spec 10): bits 15:9=RW, 7:4=RW. -/
def CH_CFG (i : Nat) : Nat := 0x5000 + 0x20 * i
/-- R299 (spec 10): bits 7:0=RW. -/
def CH_REFR (i : Nat) : Nat := 0x5001 + 0x20 * i
/-- R299 (spec 10): bits 15:0=RW. -/
def CH_P0 (i : Nat) : Nat := 0x5002 + 0x20 * i
/-- R299 (spec 10): bits 15:0=RW. -/
def CH_P1 (i : Nat) : Nat := 0x5003 + 0x20 * i
/-- R299 (spec 10): bits 15:13=W1C, 9:3=RO, 1:0=RO. -/
def CH_STAT (i : Nat) : Nat := 0x5004 + 0x20 * i
/-- R299 (spec 10): bits 15:0=RO. -/
def CH_ACT0 (i : Nat) : Nat := 0x5005 + 0x20 * i
/-- R299 (spec 10): bits 15:0=RO. -/
def CH_ACT1 (i : Nat) : Nat := 0x5006 + 0x20 * i
/-- R299 (spec 10): bits 15:0=RO. -/
def CH_LASTL (i : Nat) : Nat := 0x5007 + 0x20 * i
/-- R299 (spec 10): bits 15:0=RO. -/
def CH_LASTH (i : Nat) : Nat := 0x5008 + 0x20 * i
/-- R299 (spec 10): bits 15:0=RO. -/
def CH_APPLIED (i : Nat) : Nat := 0x5009 + 0x20 * i
/-- R299 (spec 10): bits 15:0=RO. -/
def CH_SUPP (i : Nat) : Nat := 0x500A + 0x20 * i
/-- R299 (spec 10): bits 15=WO. -/
def CH_CTL (i : Nat) : Nat := 0x500B + 0x20 * i
/-- R326 (spec 11): bits 15:13=RW, 11:2=RW. -/
def ZP_CFG (i : Nat) : Nat := 0x5800 + 0x100 * i
/-- R326 (spec 11): bits 15:0=RW. -/
def ZP_PERIOD (i : Nat) : Nat := 0x5801 + 0x100 * i
/-- R326 (spec 11): bits 15:0=RW. -/
def ZP_PHASE (i : Nat) : Nat := 0x5802 + 0x100 * i
/-- R326 (spec 11): bits 15:0=RW. -/
def ZP_LEAD (i : Nat) : Nat := 0x5803 + 0x100 * i
/-- R326 (spec 11): bits 15:0=RW. -/
def ZP_WDOG (i : Nat) : Nat := 0x5804 + 0x100 * i
/-- R326 (spec 11): bits 3:0=RW. -/
def ZP_RETRY (i : Nat) : Nat := 0x5805 + 0x100 * i
/-- R326 (spec 11): bits 15=CS, 12:10=CS, 6:0=CS. -/
def ZP_INMB (i : Nat) : Nat := 0x5806 + 0x100 * i
/-- R326 (spec 11): bits 15:11=W1C, 10=RO, 1:0=RO. -/
def ZP_STAT (i : Nat) : Nat := 0x5807 + 0x100 * i
/-- R326 (spec 11): bits 15:0=RO. -/
def ZP_LOOP (i : Nat) : Nat := 0x5808 + 0x100 * i
/-- R326 (spec 11): bits 15:0=RO. -/
def ZP_LOOPAVG (i : Nat) : Nat := 0x5809 + 0x100 * i
/-- R326 (spec 11): bits 15:0=RO. -/
def ZP_ROUNDL (i : Nat) : Nat := 0x580A + 0x100 * i
/-- R326 (spec 11): bits 15:0=RO. -/
def ZP_ROUNDH (i : Nat) : Nat := 0x580B + 0x100 * i
/-- R326 (spec 11): bits 15:0=RO. -/
def ZP_SKIP (i : Nat) : Nat := 0x580C + 0x100 * i
/-- R326 (spec 11): bits 15:0=RO. -/
def ZP_RXLOST (i : Nat) : Nat := 0x580D + 0x100 * i
/-- R326 (spec 11): bits 13:8=RO, 5:0=RO. -/
def ZP_NODES (i : Nat) : Nat := 0x580E + 0x100 * i
/-- R326 (spec 11): bits 15=WO. -/
def ZP_CTL (i : Nat) : Nat := 0x580F + 0x100 * i
/-- R326 (spec 11): bits 15=WO, 14=RW, 5:0=RW. -/
def ZP_NCMD (i : Nat) : Nat := 0x5810 + 0x100 * i
/-- R326 (spec 11): bits 15:0=RW. -/
def ZP_NADDR (i : Nat) : Nat := 0x5811 + 0x100 * i
/-- R326 (spec 11): bits 15:0=RW. -/
def ZP_NDATA (i : Nat) : Nat := 0x5812 + 0x100 * i
/-- R326 (spec 11): bits 15=RO, 14:13=W1C, 2:0=RO. -/
def ZP_NSTAT (i : Nat) : Nat := 0x5813 + 0x100 * i
/-- R326 (spec 11): bits 15:4=RO. -/
def NODE_STAT (i : Nat) (j : Nat) : Nat := 0x5841 + 0x100 * i + j
/-- R326 (spec 11): bits 15:0=RO. -/
def NODE_ERR (i : Nat) (j : Nat) : Nat := 0x5881 + 0x100 * i + j
/-- R326 (spec 11): bits 15:13=WO. -/
def NODE_CTL (i : Nat) (j : Nat) : Nat := 0x58C1 + 0x100 * i + j
/-- R246 (spec 08): bits 15:13=W1C. -/
def INT_STAT (i : Nat) : Nat := 0x6000 + 0x400 * i
/-- R246 (spec 08): bits 15:0=RO. -/
def INT_CAMS (i : Nat) : Nat := 0x6001 + 0x400 * i
/-- R246 (spec 08): bits 15:0=RO. -/
def INT_CONNL (i : Nat) : Nat := 0x6002 + 0x400 * i
/-- R246 (spec 08): bits 3:0=RO. -/
def INT_CONNH (i : Nat) : Nat := 0x6003 + 0x400 * i
/-- R246 (spec 08): bits 9:0=RO. -/
def INT_LBFREE (i : Nat) : Nat := 0x6004 + 0x400 * i
/-- R246 (spec 08): bits 15=CS, 12:10=CS, 6:0=CS. -/
def INT_EVMB (i : Nat) : Nat := 0x6005 + 0x400 * i
/-- R246 (spec 08): bits 15:0=RO. -/
def INT_DEADLINES (i : Nat) : Nat := 0x6006 + 0x400 * i
/-- R246 (spec 08): bits 15:0=RO. -/
def INT_EVCNT (i : Nat) : Nat := 0x6007 + 0x400 * i
/-- R246 (spec 08): bits 15:0=RO. -/
def INT_EVDROP (i : Nat) : Nat := 0x6008 + 0x400 * i
/-- R246 (spec 08): bits 15:0=RO. -/
def INT_EVTRUNC (i : Nat) : Nat := 0x6009 + 0x400 * i
/-- R246 (spec 08): bits 15:0=RO. -/
def INT_CSERR (i : Nat) : Nat := 0x600A + 0x400 * i
/-- R246 (spec 08): bits 15:0=RW. -/
def INT_CSADDRL (i : Nat) : Nat := 0x600B + 0x400 * i
/-- R246 (spec 08): bits 4:0=RW. -/
def INT_CSADDRH (i : Nat) : Nat := 0x600C + 0x400 * i
/-- R246 (spec 08): bits 15:0=RW. -/
def INT_CSDATA (i : Nat) : Nat := 0x600D + 0x400 * i
/-- R246 (spec 08): bits 15=WO. -/
def INT_CTL (i : Nat) : Nat := 0x600E + 0x400 * i
/-- R246 (spec 08): bits 15=WO, 14=RW, 10:8=RW, 3:0=RW. -/
def CC_CMD (i : Nat) : Nat := 0x6020 + 0x400 * i
/-- R246 (spec 08): bits 15=RO, 14:13=W1C, 3:0=RO. -/
def CC_STAT (i : Nat) : Nat := 0x6021 + 0x400 * i
/-- R246 (spec 08): bits 15:0=RW. -/
def CC_ADDRL (i : Nat) : Nat := 0x6022 + 0x400 * i
/-- R246 (spec 08): bits 15:0=RW. -/
def CC_ADDRH (i : Nat) : Nat := 0x6023 + 0x400 * i
/-- R246 (spec 08): bits 15:0=RW. -/
def CC_TOUT (i : Nat) : Nat := 0x6024 + 0x400 * i
/-- R246 (spec 08): bits 7:0=RO. -/
def CC_ACK (i : Nat) : Nat := 0x6025 + 0x400 * i
/-- R246 (spec 08): bits 15:0=RO. -/
def CC_LATE (i : Nat) : Nat := 0x6026 + 0x400 * i
/-- R246 (spec 08): bits 15:0=RW. -/
def CC_DATA (i : Nat) (j : Nat) : Nat := 0x6028 + 0x400 * i + j
/-- R246 (spec 08): bits 15:14=W1C, 10:4=RO, 2:0=RO. -/
def CX_STAT (i : Nat) (j : Nat) : Nat := 0x6040 + 0x400 * i + 0x8 * j
/-- R246 (spec 08): bits 15:0=RO. -/
def CX_CRCERR (i : Nat) (j : Nat) : Nat := 0x6041 + 0x400 * i + 0x8 * j
/-- R246 (spec 08): bits 15:0=RO. -/
def CX_SEQERR (i : Nat) (j : Nat) : Nat := 0x6042 + 0x400 * i + 0x8 * j
/-- R246 (spec 08): bits 15:0=RO. -/
def CX_LOSS (i : Nat) (j : Nat) : Nat := 0x6043 + 0x400 * i + 0x8 * j
/-- R246 (spec 08): bits 15=WO. -/
def CX_CTL (i : Nat) (j : Nat) : Nat := 0x6044 + 0x400 * i + 0x8 * j
/-- R246 (spec 08): bits 15:13=CS, 11:0=CS. -/
def RG_CFG (i : Nat) (j : Nat) : Nat := 0x6100 + 0x400 * i + 0x4 * j
/-- R246 (spec 08): bits 15:0=RW. -/
def RG_X0 (i : Nat) (j : Nat) : Nat := 0x6101 + 0x400 * i + 0x4 * j
/-- R246 (spec 08): bits 15:0=RW. -/
def RG_W (i : Nat) (j : Nat) : Nat := 0x6102 + 0x400 * i + 0x4 * j
/-- R246 (spec 08): bits 12:10=CS, 6:0=CS. -/
def RG_MB (i : Nat) (j : Nat) : Nat := 0x6103 + 0x400 * i + 0x4 * j
/-- R246 (spec 08): bits 15:0=RW. -/
def CAM_CFG (i : Nat) (j : Nat) : Nat := 0x6200 + 0x400 * i + 0x20 * j
/-- R246 (spec 08): bits 15:0=RW. -/
def CAM_FMT (i : Nat) (j : Nat) : Nat := 0x6201 + 0x400 * i + 0x20 * j
/-- R246 (spec 08): bits 15:0=RW. -/
def CAM_XSIZE (i : Nat) (j : Nat) : Nat := 0x6202 + 0x400 * i + 0x20 * j
/-- R246 (spec 08): bits 15:0=RW. -/
def CAM_YSIZE (i : Nat) (j : Nat) : Nat := 0x6203 + 0x400 * i + 0x20 * j
/-- R246 (spec 08): bits 15:7=RW. -/
def CAM_FRANK (i : Nat) (j : Nat) : Nat := 0x6204 + 0x400 * i + 0x20 * j
/-- R246 (spec 08): bits 15:0=RW. -/
def CAM_BAND0 (i : Nat) (j : Nat) : Nat := 0x6205 + 0x400 * i + 0x20 * j
/-- R246 (spec 08): bits 15:0=RW. -/
def CAM_BAND1 (i : Nat) (j : Nat) : Nat := 0x6206 + 0x400 * i + 0x20 * j
/-- R246 (spec 08): bits 15:0=RW. -/
def CAM_DARK (i : Nat) (j : Nat) : Nat := 0x6207 + 0x400 * i + 0x20 * j
/-- R246 (spec 08): bits 15:0=RW. -/
def CAM_GAIN (i : Nat) (j : Nat) : Nat := 0x6208 + 0x400 * i + 0x20 * j
/-- R246 (spec 08): bits 15:0=RW. -/
def CAM_DEFBASE (i : Nat) (j : Nat) : Nat := 0x6209 + 0x400 * i + 0x20 * j
/-- R246 (spec 08): bits 15:0=RW. -/
def CAM_DEFCNT (i : Nat) (j : Nat) : Nat := 0x620A + 0x400 * i + 0x20 * j
/-- R246 (spec 08): bits 7:0=RW. -/
def CAM_CONV (i : Nat) (j : Nat) : Nat := 0x620B + 0x400 * i + 0x20 * j
/-- R246 (spec 08): bits 15:0=RW. -/
def CAM_LBUF (i : Nat) (j : Nat) : Nat := 0x620C + 0x400 * i + 0x20 * j
/-- R246 (spec 08): bits 15:0=CS. -/
def CAM_ROUTE (i : Nat) (j : Nat) : Nat := 0x620D + 0x400 * i + 0x20 * j
/-- R246 (spec 08): bits 15:0=RW. -/
def CAM_FSBASEL (i : Nat) (j : Nat) : Nat := 0x620E + 0x400 * i + 0x20 * j
/-- R246 (spec 08): bits 10:0=RW. -/
def CAM_FSBASEH (i : Nat) (j : Nat) : Nat := 0x620F + 0x400 * i + 0x20 * j
/-- R246 (spec 08): bits 15:0=RW. -/
def CAM_FSSLOT (i : Nat) (j : Nat) : Nat := 0x6210 + 0x400 * i + 0x20 * j
/-- R246 (spec 08): bits 15:0=RW. -/
def CAM_FSNSLOT (i : Nat) (j : Nat) : Nat := 0x6211 + 0x400 * i + 0x20 * j
/-- R246 (spec 08): bits 15:14=RW, 7:0=RW. -/
def CAM_FSCFG (i : Nat) (j : Nat) : Nat := 0x6212 + 0x400 * i + 0x20 * j
/-- R246 (spec 08): bits 15=CS, 12:10=CS, 6:0=CS. -/
def CAM_EVMB (i : Nat) (j : Nat) : Nat := 0x6213 + 0x400 * i + 0x20 * j
/-- R246 (spec 08): bits 15:12=W1C, 11=RO, 2:0=RO. -/
def CAM_STAT (i : Nat) (j : Nat) : Nat := 0x6214 + 0x400 * i + 0x20 * j
/-- R246 (spec 08): bits 10:0=RO. -/
def CAM_LINK (i : Nat) (j : Nat) : Nat := 0x6215 + 0x400 * i + 0x20 * j
/-- R246 (spec 08): bits 15:0=RO. -/
def CAM_FRAMEL (i : Nat) (j : Nat) : Nat := 0x6216 + 0x400 * i + 0x20 * j
/-- R246 (spec 08): bits 15:0=RO. -/
def CAM_FRAMEH (i : Nat) (j : Nat) : Nat := 0x6217 + 0x400 * i + 0x20 * j
/-- R246 (spec 08): bits 15:0=RO. -/
def CAM_LINEDROP (i : Nat) (j : Nat) : Nat := 0x6218 + 0x400 * i + 0x20 * j
/-- R246 (spec 08): bits 15:0=RO. -/
def CAM_FRAMEDROP (i : Nat) (j : Nat) : Nat := 0x6219 + 0x400 * i + 0x20 * j
/-- R246 (spec 08): bits 15:0=RO. -/
def CAM_FSOVER (i : Nat) (j : Nat) : Nat := 0x621A + 0x400 * i + 0x20 * j
/-- R246 (spec 08): bits 15:14=WO. -/
def CAM_CTL (i : Nat) (j : Nat) : Nat := 0x621B + 0x400 * i + 0x20 * j
/-- R246 (spec 08): bits 15:0=RW. -/
def CAM_FLINES (i : Nat) (j : Nat) : Nat := 0x621C + 0x400 * i + 0x20 * j
/-- R408 (spec 15): bits 15:11=W1C, 6:4=RO, 2:0=RO. -/
def DDR_CHSTAT (i : Nat) : Nat := 0x6800 + 0x200 * i
/-- R408 (spec 15): bits 15=WO. -/
def DDR_CHCTL (i : Nat) : Nat := 0x6801 + 0x200 * i
/-- R408 (spec 15): bits 15:0=RO. -/
def DDR_CE (i : Nat) : Nat := 0x6802 + 0x200 * i
/-- R408 (spec 15): bits 15:0=RO. -/
def DDR_UE (i : Nat) : Nat := 0x6803 + 0x200 * i
/-- R408 (spec 15): bits 15:0=RO. -/
def DDR_RMWDROP (i : Nat) : Nat := 0x6804 + 0x200 * i
/-- R408 (spec 15): bits 15:0=RO. -/
def DDR_ROWOVF (i : Nat) : Nat := 0x6805 + 0x200 * i
/-- R408 (spec 15): bits 15:0=RO. -/
def DDR_PPRCNT (i : Nat) : Nat := 0x6806 + 0x200 * i
/-- R408 (spec 15): bits 15:0=RO. -/
def DDR_SCRUBPASS (i : Nat) : Nat := 0x6807 + 0x200 * i
/-- R408 (spec 15): bits 15:7=RO, 4:0=RO. -/
def DDR_ERRA0 (i : Nat) : Nat := 0x6808 + 0x200 * i
/-- R408 (spec 15): bits 15:0=RO. -/
def DDR_ERRA1 (i : Nat) : Nat := 0x6809 + 0x200 * i
/-- R408 (spec 15): bits 13:12=RO, 6:0=RO. -/
def DDR_ERRA2 (i : Nat) : Nat := 0x680A + 0x200 * i
/-- R408 (spec 15): bits 15:0=SRO. -/
def DDR_PPRLOG (i : Nat) (j : Nat) : Nat := 0x6810 + 0x200 * i + j
/-- R408 (spec 15): bits 6:0=RO. -/
def DDR_ROWUSE (i : Nat) : Nat := 0x6820 + 0x200 * i
/-- R408 (spec 15): bits 2:0=RO. -/
def DDR_CHSPEED (i : Nat) : Nat := 0x6821 + 0x200 * i
/-- R408 (spec 15): bits 15:14=W1C, 13=RO. -/
def DDR_STAT : Nat := 0x6900
/-- R408 (spec 15): bits 10:8=RO, 3:0=RO. -/
def DDR_CFG : Nat := 0x6901
/-- R408 (spec 15): bits 15:12=RO. -/
def DDR_ORG : Nat := 0x6902
/-- R408 (spec 15): bits 15:0=RO. -/
def DDR_CAPL : Nat := 0x6903
/-- R408 (spec 15): bits 3:0=RO. -/
def DDR_CAPH : Nat := 0x6904
/-- R408 (spec 15): bits 7:0=RW. -/
def DDR_SCRUBT : Nat := 0x6905
/-- R408 (spec 15): bits 15=CS. -/
def DDR_PPRCFG : Nat := 0x6906
/-- R408 (spec 15): bits 15=WO, 4:0=WO. -/
def DDR_HPPR : Nat := 0x6907
/-- R408 (spec 15): bits 15:0=RO. -/
def DDR_PROTDROP : Nat := 0x6908
/-- R408 (spec 15): bits 15=WO. -/
def DDR_CTL : Nat := 0x6909
/-- R408 (spec 15): bits 15:12=CS, 3:0=CS. -/
def DDR_RGN_CFG (i : Nat) : Nat := 0x6910 + 0x4 * i
/-- R408 (spec 15): bits 15:0=CS. -/
def DDR_RGN_BASEL (i : Nat) : Nat := 0x6911 + 0x4 * i
/-- R408 (spec 15): bits 15:0=CS. -/
def DDR_RGN_LENL (i : Nat) : Nat := 0x6912 + 0x4 * i
/-- R408 (spec 15): bits 3:0=CS. -/
def DDR_RGN_LENH (i : Nat) : Nat := 0x6913 + 0x4 * i
/-- R427 (spec 16): bits 15:12=W1C. -/
def HOST_STAT : Nat := 0x7000
/-- R427 (spec 16): bits 15:14=WO, 5:0=WO. -/
def HOST_CTL : Nat := 0x7001
/-- R427 (spec 16): bits 15:12=RO, 5:0=RO. -/
def HOST_LINK : Nat := 0x7002
/-- R427 (spec 16): bits 15:14=CS, 7:0=CS. -/
def HOST_CFG : Nat := 0x7003
/-- R427 (spec 16): bits 15=RW. -/
def HOST_W4CFG : Nat := 0x7004
/-- R427 (spec 16): bits 15:0=RW. -/
def HOST_W4BASEL : Nat := 0x7005
/-- R427 (spec 16): bits 2:0=RW. -/
def HOST_W4BASEH : Nat := 0x7006
/-- R427 (spec 16): bits 15:0=RW. -/
def HOST_DOORBELL : Nat := 0x7007
/-- R427 (spec 16): bits 15:0=RO. -/
def HOST_BADACC : Nat := 0x7008
/-- R427 (spec 16): bits 15:0=RO. -/
def HOST_UE : Nat := 0x7009
/-- R427 (spec 16): bits 15:0=RO. -/
def HOST_PORTERR : Nat := 0x700A
/-- R427 (spec 16): bits 15:0=RO. -/
def HOST_PHDUP : Nat := 0x700B
/-- R427 (spec 16): bits 15:0=RO. -/
def HOST_PHREFUSED : Nat := 0x700C
/-- R427 (spec 16): bits 15:0=RO. -/
def HOST_PHTOUTCNT : Nat := 0x700D
/-- R427 (spec 16): bits 15:0=RO. -/
def HOST_PHSDROP : Nat := 0x700E
/-- R427 (spec 16): bits 15:0=RW. -/
def HOST_PHTOUT : Nat := 0x700F
/-- R427 (spec 16): bits 13:0=RW. -/
def HOST_SSEL : Nat := 0x7010
/-- R427 (spec 16): bits 15:0=WO. -/
def HOST_SDONEL : Nat := 0x7012
/-- R427 (spec 16): bits 15:8=WO, 5:0=WO. -/
def HOST_SDONEH : Nat := 0x7013
/-- R427 (spec 16): bits 15:0=RW. -/
def HOST_SDATA (i : Nat) : Nat := 0x7018 + i
/-- R427 (spec 16): bits 15:0=W1C. -/
def HOST_GEPEND (i : Nat) : Nat := 0x7020 + i
/-- R427 (spec 16): bits 15=RW, 5:0=RW. -/
def HOST_GEMAP (i : Nat) : Nat := 0x7080 + i
/-- R427 (spec 16): bits 15:8=CS. -/
def PH_CFG (i : Nat) : Nat := 0x7100 + 0x4 * i
/-- R427 (spec 16): bits 12:10=CS, 6:0=CS. -/
def PH_MB (i : Nat) : Nat := 0x7101 + 0x4 * i
/-- R427 (spec 16): bits 15:13=W1C, 7=RO, 2:0=RO. -/
def PH_STAT (i : Nat) : Nat := 0x7102 + 0x4 * i
/-- R427 (spec 16): bits 15=WO, 14:0=RW. -/
def PH_OWNER (i : Nat) : Nat := 0x7103 + 0x4 * i
/-- R427 (spec 16): bits 15=CS, 13:0=CS. -/
def XF_CFG (i : Nat) : Nat := 0x7200 + 0x10 * i
/-- R427 (spec 16): bits 15:14=WO. -/
def XF_CTL (i : Nat) : Nat := 0x7201 + 0x10 * i
/-- R427 (spec 16): bits 15:13=W1C, 10:8=RO, 1:0=RO. -/
def XF_STAT (i : Nat) : Nat := 0x7202 + 0x10 * i
/-- R427 (spec 16): bits 15:0=RW. -/
def XF_SRCL (i : Nat) : Nat := 0x7203 + 0x10 * i
/-- R427 (spec 16): bits 15:0=RW. -/
def XF_SRCM (i : Nat) : Nat := 0x7204 + 0x10 * i
/-- R427 (spec 16): bits 5:0=RW. -/
def XF_SRCH (i : Nat) : Nat := 0x7205 + 0x10 * i
/-- R427 (spec 16): bits 15:0=RW. -/
def XF_DST (i : Nat) (j : Nat) : Nat := 0x7206 + 0x10 * i + j
/-- R427 (spec 16): bits 15:0=RW. -/
def XF_LENL (i : Nat) : Nat := 0x720A + 0x10 * i
/-- R427 (spec 16): bits 7:0=RW. -/
def XF_LENH (i : Nat) : Nat := 0x720B + 0x10 * i
/-- R427 (spec 16): bits 15:0=RO. -/
def XF_DONEL (i : Nat) : Nat := 0x720C + 0x10 * i
/-- R427 (spec 16): bits 7:0=RO. -/
def XF_DONEH (i : Nat) : Nat := 0x720D + 0x10 * i
/-- R427 (spec 16): bits 15:0=RO. -/
def XF_COUNT (i : Nat) : Nat := 0x720E + 0x10 * i
/-- R274 (spec 09): bits 15:12=W1C, 2:0=RO. -/
def FL_STAT (i : Nat) : Nat := 0x7400 + 0x20 * i
/-- R274 (spec 09): bits 15:13=WO. -/
def FL_CTL (i : Nat) : Nat := 0x7401 + 0x20 * i
/-- R274 (spec 09): bits 5:0=RO. -/
def FL_QCAUSE (i : Nat) : Nat := 0x7402 + 0x20 * i
/-- R274 (spec 09): bits 15:0=RO. -/
def FL_CRCERR (i : Nat) : Nat := 0x7403 + 0x20 * i
/-- R274 (spec 09): bits 15:0=RO. -/
def FL_RETRY (i : Nat) : Nat := 0x7404 + 0x20 * i
/-- R274 (spec 09): bits 15:0=RO. -/
def FL_DUP (i : Nat) : Nat := 0x7405 + 0x20 * i
/-- R274 (spec 09): bits 15:0=RO. -/
def FL_RETRAIN (i : Nat) : Nat := 0x7406 + 0x20 * i
/-- R274 (spec 09): bits 15:0=RO. -/
def FL_REFUSED (i : Nat) : Nat := 0x7407 + 0x20 * i
/-- R274 (spec 09): bits 15:0=RO. -/
def FL_FLUSHED (i : Nat) : Nat := 0x7408 + 0x20 * i
/-- R274 (spec 09): bits 15:0=RO. -/
def FL_PARAL (i : Nat) : Nat := 0x7409 + 0x20 * i
/-- R274 (spec 09): bits 15:0=RO. -/
def FL_PARAH (i : Nat) : Nat := 0x740A + 0x20 * i
/-- R274 (spec 09): bits 15:0=RO. -/
def FL_PARBL (i : Nat) : Nat := 0x740B + 0x20 * i
/-- R274 (spec 09): bits 15:0=RO. -/
def FL_PARBH (i : Nat) : Nat := 0x740C + 0x20 * i
/-- R274 (spec 09): bits 15:0=RO. -/
def FL_HOLD (i : Nat) : Nat := 0x740D + 0x20 * i
/-- R274 (spec 09): bits 15=W1C, 2:0=RO. -/
def FD_STAT (i : Nat) : Nat := 0x7700 + 0x20 * i
/-- R274 (spec 09): bits 15:0=RO. -/
def FD_IMGL (i : Nat) : Nat := 0x7701 + 0x20 * i
/-- R274 (spec 09): bits 15:0=RO. -/
def FD_IMGH (i : Nat) : Nat := 0x7702 + 0x20 * i
/-- R274 (spec 09): bits 15:0=RO. -/
def FD_VER0 (i : Nat) : Nat := 0x7703 + 0x20 * i
/-- R274 (spec 09): bits 7:0=RO. -/
def FD_VER1 (i : Nat) : Nat := 0x7704 + 0x20 * i
/-- R274 (spec 09): bits 15:0=RO. -/
def FD_CMIN0 (i : Nat) : Nat := 0x7705 + 0x20 * i
/-- R274 (spec 09): bits 15:0=RO. -/
def FD_CMIN1 (i : Nat) : Nat := 0x7706 + 0x20 * i
/-- R274 (spec 09): bits 15:0=RO. -/
def FD_STEP (i : Nat) : Nat := 0x7707 + 0x20 * i
/-- R274 (spec 09): bits 7:0=RO. -/
def FD_BEPOCH (i : Nat) : Nat := 0x7708 + 0x20 * i
/-- R274 (spec 09): bits 3:0=RO. -/
def FD_MODE (i : Nat) : Nat := 0x7709 + 0x20 * i
/-- R274 (spec 09): bits 15:0=RO. -/
def FD_DL (i : Nat) (j : Nat) : Nat := 0x770A + 0x20 * i + j
/-- R274 (spec 09): bits 15:0=RO. -/
def FD_BCDISC (i : Nat) : Nat := 0x770E + 0x20 * i
/-- R274 (spec 09): bits 4:0=RW. -/
def FD_XSEL (i : Nat) : Nat := 0x770F + 0x20 * i
/-- R274 (spec 09): bits 15=SW1C, 14=W1C. -/
def FD_XSTAT (i : Nat) : Nat := 0x7710 + 0x20 * i
/-- R274 (spec 09): bits 15:0=RO. -/
def FD_XSKIP (i : Nat) : Nat := 0x7711 + 0x20 * i
/-- R274 (spec 09): bits 15:0=RO. -/
def FD_XDROP (i : Nat) : Nat := 0x7712 + 0x20 * i
/-- R274 (spec 09): bits 15:0=RO. -/
def FD_XOVR (i : Nat) : Nat := 0x7713 + 0x20 * i
/-- R274 (spec 09): bits 15=WO. -/
def FD_CTL (i : Nat) : Nat := 0x7714 + 0x20 * i
/-- R345 (spec 12): bits 15=W1C, 8:0=RO. -/
def ICU_STAT (i : Nat) : Nat := 0x7800 + 0x100 * i
/-- R345 (spec 12): bits 15:14=WO. -/
def ICU_CTL (i : Nat) : Nat := 0x7801 + 0x100 * i
/-- R345 (spec 12): bits 7:0=RW. -/
def ICU_SEL (i : Nat) : Nat := 0x7802 + 0x100 * i
/-- R345 (spec 12): bits 15:8=RW, 4:0=RW. -/
def ICU_SCFG (i : Nat) : Nat := 0x7803 + 0x100 * i
/-- R345 (spec 12): bits 15:0=RW. -/
def ICU_VECL (i : Nat) : Nat := 0x7804 + 0x100 * i
/-- R345 (spec 12): bits 3:0=RW. -/
def ICU_VECH (i : Nat) : Nat := 0x7805 + 0x100 * i
/-- R345 (spec 12): bits 15:0=RW. -/
def ICU_MINT (i : Nat) : Nat := 0x7806 + 0x100 * i
/-- R345 (spec 12): bits 15:0=RW. -/
def ICU_COAL (i : Nat) : Nat := 0x7807 + 0x100 * i
/-- R345 (spec 12): bits 15:0=RO. -/
def ICU_EVCNT (i : Nat) : Nat := 0x7808 + 0x100 * i
/-- R345 (spec 12): bits 15=W1C, 14=RO, 4:0=RO. -/
def ICU_SSTAT (i : Nat) : Nat := 0x7809 + 0x100 * i
/-- R345 (spec 12): bits 7:0=WO. -/
def ICU_RAISE (i : Nat) : Nat := 0x780A + 0x100 * i
/-- R345 (spec 12): bits 15:0=W1C. -/
def ICU_PEND (i : Nat) (j : Nat) : Nat := 0x7820 + 0x100 * i + j
/-- R345 (spec 12): bits 15:13=RO, 11:0=RO. -/
def ICU_CLK (i : Nat) (j : Nat) : Nat := 0x7840 + 0x100 * i + j
/-- R220 (spec 07): bits 15:14=CS, 7:0=CS. -/
def MB_CFG (i : Nat) : Nat := 0x8000 + 0x20 * i
/-- R220 (spec 07): bits 15:0=CS. -/
def MB_SPBASEL (i : Nat) : Nat := 0x8001 + 0x20 * i
/-- R220 (spec 07): bits 10:0=CS. -/
def MB_SPBASEH (i : Nat) : Nat := 0x8002 + 0x20 * i
/-- R220 (spec 07): bits 15:0=CS. -/
def MB_SPLENL (i : Nat) : Nat := 0x8003 + 0x20 * i
/-- R220 (spec 07): bits 2:0=CS. -/
def MB_SPLENH (i : Nat) : Nat := 0x8004 + 0x20 * i
/-- R220 (spec 07): bits 15:12=W1C, 11:9=RO, 5:0=RO. -/
def MB_STAT (i : Nat) : Nat := 0x8005 + 0x20 * i
/-- R220 (spec 07): bits 15:0=RO. -/
def MB_COUNTL (i : Nat) : Nat := 0x8006 + 0x20 * i
/-- R220 (spec 07): bits 7:0=RO. -/
def MB_COUNTH (i : Nat) : Nat := 0x8007 + 0x20 * i
/-- R220 (spec 07): bits 15:0=RO. -/
def MB_RETAINED (i : Nat) : Nat := 0x8008 + 0x20 * i
/-- R220 (spec 07): bits 15:0=RO. -/
def MB_DRAFTS (i : Nat) : Nat := 0x8009 + 0x20 * i
/-- R220 (spec 07): bits 15:0=RO. -/
def MB_CORR (i : Nat) : Nat := 0x800A + 0x20 * i
/-- R220 (spec 07): bits 15:0=RO. -/
def MB_DEAD (i : Nat) : Nat := 0x800B + 0x20 * i
/-- R220 (spec 07): bits 15:0=RO. -/
def MB_FULLDROP (i : Nat) : Nat := 0x800C + 0x20 * i
/-- R220 (spec 07): bits 15:14=WO. -/
def MB_CTL (i : Nat) : Nat := 0x800D + 0x20 * i
/-- R220 (spec 07): bits 15:0=RO. -/
def MB_HWMARKL (i : Nat) : Nat := 0x800E + 0x20 * i
/-- R220 (spec 07): bits 7:0=RO. -/
def MB_HWMARKH (i : Nat) : Nat := 0x800F + 0x20 * i
/-- R220 (spec 07): bits 15:0=RW. -/
def MB_DATA (i : Nat) (j : Nat) : Nat := 0x8010 + 0x20 * i + j
/-- R389 (spec 14): bits 15:0=RW. -/
def SS_RETSEL (d : Nat) (i : Nat) : Nat := dieKey d (0x1000 + i)
/-- R389 (spec 14): bits 15:0=W1C. -/
def SS_POISON (d : Nat) (i : Nat) : Nat := dieKey d (0x1002 + i)
/-- R389 (spec 14): bits 15:0=RO. -/
def SS_RLRAISED (d : Nat) (i : Nat) : Nat := dieKey d (0x1004 + i)
/-- R389 (spec 14): bits 15:0=RO. -/
def SS_POISONWR (d : Nat) : Nat := dieKey d (0x1006)
/-- R493 (spec 20): bits 15:14=W1C. -/
def CST_STAT (d : Nat) : Nat := dieKey d (0x1100)
/-- R493 (spec 20): bits 15:0=RO. -/
def CST_CE (d : Nat) : Nat := dieKey d (0x1101)
/-- R493 (spec 20): bits 15:0=RO. -/
def CST_UE (d : Nat) : Nat := dieKey d (0x1102)
/-- R493 (spec 20): bits 15:0=RO. -/
def CST_LINEL (d : Nat) : Nat := dieKey d (0x1103)
/-- R493 (spec 20): bits 1:0=RO. -/
def CST_LINEH (d : Nat) : Nat := dieKey d (0x1104)
/-- R493 (spec 20): bits 15:0=RO. -/
def CST_LCPAR (d : Nat) : Nat := dieKey d (0x1105)
/-- R493 (spec 20): bits 15=WO. -/
def CST_CTL (d : Nat) : Nat := dieKey d (0x1106)
/-- R367 (spec 13): bits 15:0=RW. -/
def DV_WAITOFF (d : Nat) : Nat := dieKey d (0x1200)
/-- R367 (spec 13): bits 9:0=RW. -/
def DV_CVOTE (d : Nat) : Nat := dieKey d (0x1201)
/-- R367 (spec 13): bits 10:0=RO. -/
def DV_ON (d : Nat) : Nat := dieKey d (0x1202)
/-- R221 (spec 07): bits 15:13=W1C. -/
def MBE_STAT (d : Nat) : Nat := dieKey d (0x1300)
/-- R221 (spec 07): bits 8:0=RO. -/
def MBE_RETAINED (d : Nat) : Nat := dieKey d (0x1301)
/-- R221 (spec 07): bits 10:0=RO. -/
def MBE_DRAFTS (d : Nat) : Nat := dieKey d (0x1302)
/-- R221 (spec 07): bits 7:0=RO. -/
def MBE_NONEMPTY (d : Nat) : Nat := dieKey d (0x1303)
/-- R221 (spec 07): bits 0=RO. -/
def MBE_VOTE (d : Nat) : Nat := dieKey d (0x1304)
/-- R103 (spec 04): bits 15:0=RO. -/
def CLERK_ID (c : Nat) : Nat := clerkKey c (0x0000)
/-- R103 (spec 04): bits 2:0=RO. -/
def SHADOW_STAT (c : Nat) : Nat := clerkKey c (0x0010)
/-- R342 (spec 12): bits 15=RO, 11:0=RO. -/
def LIC_SRC (c : Nat) : Nat := clerkKey c (0x0020)
/-- R342 (spec 12): bits 15=RO, 11:0=RO. -/
def LIC_PEND (c : Nat) : Nat := clerkKey c (0x0021)
/-- R342 (spec 12): bits 15:0=RW. -/
def LIC_ALML (c : Nat) : Nat := clerkKey c (0x0022)
/-- R342 (spec 12): bits 15:0=RW. -/
def LIC_ALMH (c : Nat) : Nat := clerkKey c (0x0023)
/-- R342 (spec 12): bits 15=RW. -/
def LIC_ALMCTL (c : Nat) : Nat := clerkKey c (0x0024)
/-- R342 (spec 12): bits 4:0=WO. -/
def LIC_DOORBELL (c : Nat) : Nat := clerkKey c (0x0025)
/-- R48 (spec 02): bits 15:0=RO. -/
def RPOSF (c : Nat) (i : Nat) : Nat := clerkKey c (0x0040 + 0x8 * i)
/-- R48 (spec 02): bits 15:0=RO. -/
def RPOSL (c : Nat) (i : Nat) : Nat := clerkKey c (0x0041 + 0x8 * i)
/-- R48 (spec 02): bits 15:0=RO. -/
def RPOSH (c : Nat) (i : Nat) : Nat := clerkKey c (0x0042 + 0x8 * i)
/-- R48 (spec 02): bits 15=RO, 2:0=RO. -/
def RSTATE (c : Nat) (i : Nat) : Nat := clerkKey c (0x0043 + 0x8 * i)
/-- R48 (spec 02): bits 15:0=RO. -/
def RDEVSEQ (c : Nat) (i : Nat) : Nat := clerkKey c (0x0044 + 0x8 * i)
/-- R48 (spec 02): bits 15:0=RO. -/
def RTPREDL (c : Nat) (i : Nat) : Nat := clerkKey c (0x0045 + 0x8 * i)
/-- R48 (spec 02): bits 7:0=RO. -/
def RTPREDH (c : Nat) (i : Nat) : Nat := clerkKey c (0x0046 + 0x8 * i)
/-- R48 (spec 02): bits 15:0=RO. -/
def RAGE (c : Nat) (i : Nat) : Nat := clerkKey c (0x0047 + 0x8 * i)
/-- R86 (spec 03): bits 15=RW, 14=WO, 13:12=RW, 7:0=RW. -/
def PCNT_CTL (c : Nat) : Nat := clerkKey c (0x00C0)
/-- R86 (spec 03): bits 7:0=W1C. -/
def PCNT_OVF (c : Nat) : Nat := clerkKey c (0x00C1)
/-- R86 (spec 03): bits 13:8=RW, 5:0=RW. -/
def PCNT_SEL (c : Nat) (i : Nat) : Nat := clerkKey c (0x00C2 + i)
/-- R86 (spec 03): bits 15:0=RW. -/
def PCNT_L (c : Nat) (i : Nat) : Nat := clerkKey c (0x00C8 + 0x2 * i)
/-- R86 (spec 03): bits 15:0=RW. -/
def PCNT_H (c : Nat) (i : Nat) : Nat := clerkKey c (0x00C9 + 0x2 * i)
/-- R86 (spec 03): bits 15:0=RO. -/
def PCNT_RETL (c : Nat) : Nat := clerkKey c (0x00D8)
/-- R86 (spec 03): bits 15:0=RO. -/
def PCNT_RETM (c : Nat) : Nat := clerkKey c (0x00D9)
/-- R86 (spec 03): bits 15:0=RO. -/
def PCNT_RETH (c : Nat) : Nat := clerkKey c (0x00DA)
/-- R86 (spec 03): bits 15:0=RO. -/
def PCNT_STGT (c : Nat) : Nat := clerkKey c (0x00DB)
/-- R195 (spec 06): bits 15=RO, 11:8=RO, 5:2=RO. -/
def EP_STAT (c : Nat) : Nat := clerkKey c (0x00E0)
/-- R195 (spec 06): bits 15=W1C, 3:0=RO. -/
def EP_REFUSE (c : Nat) : Nat := clerkKey c (0x00E1)
/-- R195 (spec 06): bits 15=W1C, 14:8=RO, 6:0=RO. -/
def EP_LASTRC (c : Nat) : Nat := clerkKey c (0x00E2)
/-- R195 (spec 06): bits 15=WO. -/
def EP_CTL (c : Nat) : Nat := clerkKey c (0x00E3)
/-- R195 (spec 06): bits 8:0=RO. -/
def EP_JRNL (c : Nat) : Nat := clerkKey c (0x00E4)
/-- R195 (spec 06): bits 4:0=RO. -/
def EP_HELD (c : Nat) : Nat := clerkKey c (0x00E5)
/-- R195 (spec 06): bits 15:0=RO. -/
def EP_OPENCNT (c : Nat) : Nat := clerkKey c (0x00E6)
/-- R195 (spec 06): bits 15:0=RO. -/
def EP_RECALLCNT (c : Nat) : Nat := clerkKey c (0x00E7)
/-- R195 (spec 06): bits 15:0=RO. -/
def EP_TAG (c : Nat) (i : Nat) : Nat := clerkKey c (0x00E8 + i)
/-- R195 (spec 06): bits 15:8=RO, 1:0=RO. -/
def EP_INFO (c : Nat) (i : Nat) : Nat := clerkKey c (0x00EC + i)
/-- R195 (spec 06): bits 15:0=RO. -/
def EP_SETTLE (c : Nat) (i : Nat) (j : Nat) : Nat := clerkKey c (0x00F0 + 0x4 * i + j)
/-- R216 (spec 07): bits 15:0=RO. -/
def SL_DATA (c : Nat) (i : Nat) (j : Nat) : Nat := clerkKey c (0x0100 + 0x10 * i + j)
/-- R216 (spec 07): bits 15:14=CS, 9:0=CS. -/
def SL_CFG (c : Nat) (i : Nat) : Nat := clerkKey c (0x0108 + 0x10 * i)
/-- R216 (spec 07): bits 15:0=RO. -/
def SL_COUNTL (c : Nat) (i : Nat) : Nat := clerkKey c (0x0109 + 0x10 * i)
/-- R216 (spec 07): bits 7:0=RO. -/
def SL_COUNTH (c : Nat) (i : Nat) : Nat := clerkKey c (0x010A + 0x10 * i)
/-- R216 (spec 07): bits 15:14=RO. -/
def SL_STAT (c : Nat) (i : Nat) : Nat := clerkKey c (0x010B + 0x10 * i)
/-- R97 (spec 04): bits 15:13=CS, 4:0=CS. -/
def CLK_WIN_CFG (c : Nat) (i : Nat) : Nat := clerkKey c (0x0500 + 0x4 * i)
/-- R537 (spec 04): bits 15:0=CS. -/
def CLK_WIN_BASEL (c : Nat) (i : Nat) : Nat := clerkKey c (0x0501 + 0x4 * i)
/-- R537 (spec 04): bits 9:0=CS. -/
def CLK_WIN_BASEH (c : Nat) (i : Nat) : Nat := clerkKey c (0x0502 + 0x4 * i)
/-- R95 (spec 04): bits 12:8=CS, 5:0=CS. -/
def CLK_IWIN (c : Nat) : Nat := clerkKey c (0x0520)
/-- R95 (spec 04): bits 15:0=CS. -/
def CLK_IWR_BASE (c : Nat) : Nat := clerkKey c (0x0521)
/-- R95 (spec 04): bits 15:0=CS. -/
def CLK_IWR_LEN (c : Nat) : Nat := clerkKey c (0x0522)

end Reg

/-- One row of the register map: where the register stands, how it repeats (`n1` times at stride `s1`, within each
`n2` times at stride `s2`), the mask of each access type, and word `mwI` of a value of `mwN` words (`mwI = 15`: the
inner index is the word). -/
structure RegRow where
  base : Nat
  n1 : Nat
  s1 : Nat
  n2 : Nat
  s2 : Nat
  rw : Nat
  w1c : Nat
  cs : Nat
  wo : Nat
  ro : Nat
  stky : Nat
  mwI : Nat
  mwN : Nat
deriving DecidableEq, Repr

/-- The registers of the device-global space (R105), part 0. -/
def globalRows0 : List RegRow := [
  ⟨0x4000, 1, 0x1, 1, 0x1, 0x0, 0x0, 0x0, 0x0, 0xFFFF, 0x0, 0, 1⟩,
  ⟨0x4001, 1, 0x1, 1, 0x1, 0x0, 0x0, 0x0, 0x0, 0xFFFF, 0x0, 0, 1⟩,
  ⟨0x4002, 1, 0x1, 1, 0x1, 0x0, 0x8000, 0x0, 0x0, 0x1F, 0x0, 0, 1⟩,
  ⟨0x4003, 1, 0x1, 1, 0x1, 0x70F, 0x0, 0x0, 0x8000, 0x0, 0x0, 0, 1⟩,
  ⟨0x4004, 1, 0x1, 1, 0x1, 0x0, 0xFF00, 0x0, 0x0, 0xFF, 0xFF00, 0, 1⟩,
  ⟨0x4100, 1, 0x1, 1, 0x1, 0x0, 0xF000, 0x0, 0x0, 0x0, 0x0, 0, 1⟩,
  ⟨0x4101, 1, 0x1, 1, 0x1, 0x0, 0x0, 0x0, 0x8000, 0x0, 0x0, 0, 1⟩,
  ⟨0x4102, 4, 0x1, 1, 0x1, 0x0, 0x0, 0x0, 0x0, 0xFFFF, 0x0, 0, 1⟩,
  ⟨0x4106, 3, 0x1, 1, 0x1, 0xFFFF, 0x0, 0x0, 0x0, 0x0, 0x0, 0, 1⟩,
  ⟨0x4109, 1, 0x1, 1, 0x1, 0xFF, 0x0, 0x0, 0x0, 0x0, 0x0, 0, 1⟩,
  ⟨0x410A, 3, 0x1, 1, 0x1, 0x0, 0x0, 0xFFFF, 0x0, 0x0, 0x0, 0, 1⟩,
  ⟨0x410D, 1, 0x1, 1, 0x1, 0x0, 0x0, 0xFF, 0x0, 0x0, 0x0, 0, 1⟩,
  ⟨0x410E, 3, 0x1, 1, 0x1, 0x0, 0x0, 0xFFFF, 0x0, 0x0, 0x0, 0, 1⟩,
  ⟨0x4111, 1, 0x1, 1, 0x1, 0x0, 0x0, 0xFF, 0x0, 0x0, 0x0, 0, 1⟩,
  ⟨0x4112, 4, 0x1, 1, 0x1, 0x0, 0x0, 0x0, 0x0, 0xFFFF, 0x0, 0, 1⟩,
  ⟨0x4116, 1, 0x1, 1, 0x1, 0xFFFF, 0x0, 0x0, 0x0, 0x0, 0x0, 0, 1⟩,
  ⟨0x4118, 4, 0x1, 1, 0x1, 0x0, 0x0, 0x0, 0x0, 0x8F77, 0x0, 0, 1⟩,
  ⟨0x411C, 4, 0x1, 1, 0x1, 0x7, 0x0, 0x0, 0x8000, 0x0, 0x0, 0, 1⟩,
  ⟨0x4120, 4, 0x1, 1, 0x1, 0x0, 0x0, 0x7, 0x0, 0x0, 0x0, 0, 1⟩,
  ⟨0x4124, 1, 0x1, 1, 0x1, 0xFFFF, 0x0, 0x0, 0x0, 0x0, 0x0, 0, 1⟩,
  ⟨0x4125, 1, 0x1, 1, 0x1, 0xFF, 0x0, 0x0, 0x0, 0x0, 0x0, 0, 1⟩,
  ⟨0x4126, 1, 0x1, 1, 0x1, 0x0, 0x0, 0x0, 0x0, 0xFFFF, 0x0, 0, 1⟩,
  ⟨0x4127, 1, 0x1, 1, 0x1, 0xFF, 0x0, 0x0, 0x0, 0x0, 0x0, 0, 1⟩,
  ⟨0x4130, 8, 0x8, 1, 0x1, 0x0, 0x0, 0xFF0F, 0x0, 0x0, 0x0, 0, 1⟩,
  ⟨0x4131, 8, 0x8, 1, 0x1, 0x0, 0x0, 0x1F, 0x0, 0x0, 0x0, 0, 1⟩,
  ⟨0x4132, 8, 0x8, 1, 0x1, 0x0, 0x0, 0x0, 0x0, 0xFFFF, 0x0, 0, 1⟩,
  ⟨0x4133, 8, 0x8, 1, 0x1, 0x0, 0x0, 0x0, 0x0, 0xFFFF, 0x0, 0, 1⟩,
  ⟨0x4134, 8, 0x8, 1, 0x1, 0x0, 0x0, 0x0, 0x0, 0xFFFF, 0x0, 0, 1⟩,
  ⟨0x4135, 8, 0x8, 1, 0x1, 0x0, 0x0, 0x0, 0x0, 0xFFFF, 0x0, 0, 1⟩,
  ⟨0x4136, 8, 0x8, 1, 0x1, 0x0, 0x0, 0x0, 0xC000, 0x0, 0x0, 0, 1⟩,
  ⟨0x4170, 1, 0x1, 1, 0x1, 0x0, 0x0, 0x0, 0x0, 0x1, 0x0, 0, 1⟩,
  ⟨0x4171, 1, 0x1, 1, 0x1, 0x0, 0x0, 0x0, 0x0, 0xF, 0x0, 0, 1⟩,
  ⟨0x4200, 1, 0x1, 1, 0x1, 0x0, 0xC000, 0x0, 0x0, 0x1C07, 0x0, 0, 1⟩,
  ⟨0x4201, 1, 0x1, 1, 0x1, 0x0, 0x0, 0x0, 0xC000, 0x0, 0x0, 0, 1⟩,
  ⟨0x4202, 1, 0x1, 1, 0x1, 0x0, 0x0, 0x0, 0x7, 0x0, 0x0, 0, 1⟩,
  ⟨0x4203, 1, 0x1, 1, 0x1, 0x70FF, 0x0, 0x0, 0x0, 0x8000, 0x0, 0, 1⟩,
  ⟨0x4204, 1, 0x1, 1, 0x1, 0xFFFF, 0x0, 0x0, 0x0, 0x0, 0x0, 0, 1⟩,
  ⟨0x4205, 1, 0x1, 1, 0x1, 0xFFFF, 0x0, 0x0, 0x0, 0x0, 0x0, 0, 1⟩,
  ⟨0x4206, 1, 0x1, 1, 0x1, 0xFFF, 0x0, 0x0, 0x0, 0x0, 0x0, 0, 1⟩,
  ⟨0x4207, 1, 0x1, 1, 0x1, 0xFFFF, 0x0, 0x0, 0x0, 0x0, 0x0, 0, 2⟩,
  ⟨0x4208, 1, 0x1, 1, 0x1, 0xFFFF, 0x0, 0x0, 0x0, 0x0, 0x0, 1, 2⟩,
  ⟨0x4209, 1, 0x1, 1, 0x1, 0x0, 0x0, 0x0, 0x0, 0xFFFF, 0x0, 0, 3⟩,
  ⟨0x420A, 1, 0x1, 1, 0x1, 0x0, 0x0, 0x0, 0x0, 0xFFFF, 0x0, 1, 3⟩,
  ⟨0x420B, 1, 0x1, 1, 0x1, 0x0, 0x0, 0x0, 0x0, 0xFFFF, 0x0, 2, 3⟩,
  ⟨0x420C, 1, 0x1, 1, 0x1, 0xFFFF, 0x0, 0x0, 0x0, 0x0, 0x0, 0, 1⟩]
/-- The registers of the device-global space (R105), part 1. -/
def globalRows1 : List RegRow := [
  ⟨0x420D, 1, 0x1, 1, 0x1, 0x0, 0x0, 0x0, 0x0, 0xFFFF, 0x0, 0, 1⟩,
  ⟨0x420E, 1, 0x1, 1, 0x1, 0x0, 0x0, 0x0, 0x0, 0xFFFF, 0x0, 0, 1⟩,
  ⟨0x420F, 1, 0x1, 1, 0x1, 0x0, 0x0, 0x0, 0x0, 0xFFFF, 0x0, 0, 1⟩,
  ⟨0x4210, 2, 0x1, 1, 0x1, 0x0, 0x0, 0x0, 0x0, 0xFFFF, 0x0, 0, 1⟩,
  ⟨0x4212, 2, 0x1, 1, 0x1, 0x0, 0x0, 0x0, 0x0, 0xFFFF, 0x0, 15, 2⟩,
  ⟨0x4214, 1, 0x1, 1, 0x1, 0x0, 0x0, 0x0, 0x0, 0xFFFF, 0x0, 0, 1⟩,
  ⟨0x4215, 3, 0x1, 1, 0x1, 0x0, 0x0, 0x0, 0x0, 0xFFFF, 0x0, 15, 3⟩,
  ⟨0x4218, 8, 0x1, 1, 0x1, 0x0, 0x0, 0x0, 0x0, 0xFFFF, 0x0, 0, 1⟩,
  ⟨0x4220, 1, 0x1, 1, 0x1, 0x7FFF, 0x0, 0x0, 0x0, 0x0, 0x0, 0, 1⟩,
  ⟨0x4221, 1, 0x1, 1, 0x1, 0xFFFF, 0x0, 0x0, 0x0, 0x0, 0x0, 0, 1⟩,
  ⟨0x4222, 1, 0x1, 1, 0x1, 0x0, 0x0, 0x0, 0x0, 0xFFFF, 0x0, 0, 1⟩,
  ⟨0x4223, 1, 0x1, 1, 0x1, 0x0, 0x0, 0x0, 0x0, 0xFFFF, 0x0, 0, 3⟩,
  ⟨0x4224, 1, 0x1, 1, 0x1, 0x0, 0x0, 0x0, 0x0, 0xFFFF, 0x0, 1, 3⟩,
  ⟨0x4225, 1, 0x1, 1, 0x1, 0x0, 0x0, 0x0, 0x0, 0xFFFF, 0x0, 2, 3⟩,
  ⟨0x4226, 1, 0x1, 1, 0x1, 0x0, 0x0, 0x0, 0x0, 0xFFFF, 0x0, 0, 2⟩,
  ⟨0x4227, 1, 0x1, 1, 0x1, 0x0, 0x0, 0x0, 0x0, 0xFFFF, 0x0, 1, 2⟩,
  ⟨0x4300, 1, 0x1, 1, 0x1, 0x0, 0xF000, 0x0, 0x0, 0x67, 0x0, 0, 1⟩,
  ⟨0x4301, 1, 0x1, 1, 0x1, 0x0, 0x0, 0x0, 0x3, 0x0, 0x0, 0, 1⟩,
  ⟨0x4302, 1, 0x1, 1, 0x1, 0x0, 0x0, 0x0, 0x0, 0xFFFF, 0x0, 0, 1⟩,
  ⟨0x4303, 1, 0x1, 1, 0x1, 0x0, 0x0, 0x0, 0x0, 0xFFFF, 0x0, 0, 2⟩,
  ⟨0x4304, 1, 0x1, 1, 0x1, 0x0, 0x0, 0x0, 0x0, 0xFFFF, 0x0, 1, 2⟩,
  ⟨0x4305, 1, 0x1, 1, 0x1, 0x0, 0x0, 0x0, 0x0, 0x7F, 0x0, 0, 1⟩,
  ⟨0x4306, 3, 0x1, 1, 0x1, 0x0, 0x0, 0x0, 0xFFFF, 0x0, 0x0, 15, 3⟩,
  ⟨0x4309, 1, 0x1, 1, 0x1, 0x3F, 0x0, 0x0, 0x0, 0x0, 0x0, 0, 1⟩,
  ⟨0x430A, 3, 0x1, 1, 0x1, 0x0, 0x0, 0x0, 0x0, 0xFFFF, 0x0, 15, 3⟩,
  ⟨0x430D, 4, 0x1, 1, 0x1, 0x0, 0x0, 0x0, 0xFFFF, 0x0, 0x0, 15, 4⟩,
  ⟨0x4311, 1, 0x1, 1, 0x1, 0x0, 0x0, 0xFFFF, 0x0, 0x0, 0x0, 0, 1⟩,
  ⟨0x4312, 1, 0x1, 1, 0x1, 0x0, 0x0, 0x0, 0x0, 0xFFFF, 0x0, 0, 1⟩,
  ⟨0x4313, 1, 0x1, 1, 0x1, 0x0, 0x0, 0x0, 0x0, 0xFFFF, 0x0, 0, 1⟩,
  ⟨0x4314, 1, 0x1, 1, 0x1, 0x0, 0x0, 0x0, 0x0, 0xFFFF, 0x0, 0, 1⟩,
  ⟨0x4315, 1, 0x1, 1, 0x1, 0x0, 0x0, 0x0, 0x0, 0xFFFF, 0x0, 0, 1⟩,
  ⟨0x4316, 1, 0x1, 1, 0x1, 0x0, 0x0, 0x0, 0x0, 0xFFFF, 0x0, 0, 1⟩,
  ⟨0x4317, 1, 0x1, 1, 0x1, 0x0, 0x0, 0x0, 0x0, 0xFFFF, 0x0, 0, 1⟩,
  ⟨0x4318, 1, 0x1, 1, 0x1, 0x0, 0x0, 0x0, 0x0, 0xFFFF, 0x0, 0, 1⟩,
  ⟨0x4319, 1, 0x1, 1, 0x1, 0x0, 0x0, 0x0, 0x0, 0xFFFF, 0x0, 0, 1⟩,
  ⟨0x431A, 1, 0x1, 1, 0x1, 0x0, 0x0, 0x0, 0x0, 0xFFFF, 0x0, 0, 1⟩,
  ⟨0x431B, 1, 0x1, 1, 0x1, 0x0, 0x0, 0x0, 0x0, 0xFFFF, 0x0, 0, 1⟩,
  ⟨0x431C, 1, 0x1, 1, 0x1, 0x0, 0x0, 0x0, 0x0, 0xFFFF, 0x0, 0, 1⟩,
  ⟨0x431D, 1, 0x1, 1, 0x1, 0x0, 0x0, 0x0, 0x0, 0xFFFF, 0x0, 0, 1⟩,
  ⟨0x431E, 1, 0x1, 1, 0x1, 0x0, 0x0, 0x0, 0x0, 0xFFFF, 0x0, 0, 1⟩,
  ⟨0x431F, 1, 0x1, 1, 0x1, 0x0, 0x0, 0x0, 0x0, 0xFFFF, 0x0, 0, 1⟩,
  ⟨0x4320, 1, 0x1, 1, 0x1, 0x0, 0x0, 0x0, 0x0, 0xFFFF, 0x0, 0, 1⟩,
  ⟨0x4321, 1, 0x1, 1, 0x1, 0x0, 0x0, 0x0, 0x8000, 0x0, 0x0, 0, 1⟩,
  ⟨0x4322, 8, 0x1, 1, 0x1, 0x0, 0x0, 0xFFFF, 0x0, 0x0, 0x0, 0, 1⟩,
  ⟨0x432A, 1, 0x1, 1, 0x1, 0x0, 0x0, 0x3, 0x0, 0x0, 0x0, 0, 1⟩]
/-- The registers of the device-global space (R105), part 2. -/
def globalRows2 : List RegRow := [
  ⟨0x4400, 1, 0x1, 1, 0x1, 0x0, 0x8000, 0x0, 0x0, 0x0, 0x0, 0, 1⟩,
  ⟨0x4401, 1, 0x1, 1, 0x1, 0x0, 0x0, 0x0, 0x8000, 0x0, 0x0, 0, 1⟩,
  ⟨0x4402, 1, 0x1, 1, 0x1, 0xFF, 0x0, 0x0, 0x0, 0x0, 0x0, 0, 1⟩,
  ⟨0x4403, 1, 0x1, 1, 0x1, 0x0, 0x0, 0xCF00, 0x0, 0x0, 0x0, 0, 1⟩,
  ⟨0x4404, 1, 0x1, 1, 0x1, 0x0, 0x0, 0xFFFF, 0x0, 0x0, 0x0, 0, 2⟩,
  ⟨0x4405, 1, 0x1, 1, 0x1, 0x0, 0x0, 0xFFFF, 0x0, 0x0, 0x0, 1, 2⟩,
  ⟨0x4406, 1, 0x1, 1, 0x1, 0x0, 0x0, 0xFFFF, 0x0, 0x0, 0x0, 0, 1⟩,
  ⟨0x4407, 1, 0x1, 1, 0x1, 0x0, 0x0, 0xFFFF, 0x0, 0x0, 0x0, 0, 1⟩,
  ⟨0x4408, 1, 0x1, 1, 0x1, 0x0, 0x0, 0x0, 0x0, 0xFFFF, 0x0, 0, 1⟩,
  ⟨0x4409, 1, 0x1, 1, 0x1, 0x0, 0x0, 0x0, 0x0, 0xFFFF, 0x0, 0, 1⟩,
  ⟨0x440A, 1, 0x1, 1, 0x1, 0x0, 0x0, 0x0, 0x0, 0xFFFF, 0x0, 0, 1⟩,
  ⟨0x440B, 1, 0x1, 1, 0x1, 0x0, 0x0, 0x0, 0x0, 0xFFFF, 0x0, 0, 1⟩,
  ⟨0x440C, 1, 0x1, 1, 0x1, 0x0, 0x0, 0x0, 0x0, 0xFFFF, 0x0, 0, 1⟩,
  ⟨0x440E, 2, 0x1, 1, 0x1, 0x0, 0x0, 0xFF, 0x0, 0x0, 0x0, 0, 1⟩,
  ⟨0x4480, 128, 0x1, 1, 0x1, 0x0, 0x0, 0xFF, 0x0, 0x0, 0x0, 0, 1⟩,
  ⟨0x4500, 64, 0x4, 1, 0x1, 0x0, 0x0, 0xF0FF, 0x0, 0x0, 0x0, 0, 1⟩,
  ⟨0x4501, 64, 0x4, 1, 0x1, 0x0, 0x0, 0xFFFF, 0x0, 0x0, 0x0, 0, 1⟩,
  ⟨0x4502, 64, 0x4, 1, 0x1, 0x0, 0x0, 0xFFFF, 0x0, 0x0, 0x0, 0, 1⟩,
  ⟨0x4600, 1, 0x1, 1, 0x1, 0x0, 0xE000, 0x0, 0x0, 0x0, 0x0, 0, 1⟩,
  ⟨0x4601, 1, 0x1, 1, 0x1, 0x0, 0x0, 0x0, 0xE000, 0x0, 0x0, 0, 1⟩,
  ⟨0x4602, 1, 0x1, 1, 0x1, 0x0, 0x0, 0x0, 0x0, 0xFFFF, 0x0, 0, 1⟩,
  ⟨0x4603, 1, 0x1, 1, 0x1, 0x3F, 0x0, 0x0, 0x0, 0x0, 0x0, 0, 1⟩,
  ⟨0x4604, 6, 0x1, 1, 0x1, 0x0, 0x0, 0x0, 0x0, 0xFFFF, 0x0, 15, 6⟩,
  ⟨0x460A, 1, 0x1, 1, 0x1, 0x7F, 0x0, 0x0, 0x0, 0x0, 0x0, 0, 1⟩,
  ⟨0x460B, 1, 0x1, 1, 0x1, 0x0, 0x0, 0x0, 0x0, 0xFFFF, 0x0, 0, 1⟩,
  ⟨0x460C, 1, 0x1, 1, 0x1, 0x0, 0x0, 0x0, 0x80FF, 0x0, 0x0, 0, 1⟩,
  ⟨0x4610, 6, 0x2, 1, 0x1, 0xFFFF, 0x0, 0x0, 0x0, 0x0, 0x0, 0, 1⟩,
  ⟨0x4611, 6, 0x2, 1, 0x1, 0x80FF, 0x0, 0x0, 0x0, 0x0, 0x0, 0, 1⟩,
  ⟨0x4620, 6, 0x1, 1, 0x1, 0x0, 0x0, 0x0, 0x0, 0xFFFF, 0x0, 0, 1⟩,
  ⟨0x4630, 8, 0x1, 1, 0x1, 0x0, 0x0, 0x0, 0x0, 0xFFFF, 0x0, 0, 1⟩,
  ⟨0x4638, 1, 0x1, 1, 0x1, 0x0, 0x0, 0x0, 0x0, 0x3, 0x0, 0, 1⟩,
  ⟨0x4640, 16, 0x1, 1, 0x1, 0x0, 0x0, 0x0, 0x0, 0xFFFF, 0x0, 0, 1⟩,
  ⟨0x4650, 1, 0x1, 1, 0x1, 0x0, 0x0, 0x0, 0x0, 0xF, 0x0, 0, 1⟩,
  ⟨0x4680, 8, 0x8, 8, 0x1, 0x0, 0x0, 0x0, 0x0, 0xFFFF, 0x0, 0, 1⟩,
  ⟨0x4700, 1, 0x1, 1, 0x1, 0x0, 0xF800, 0x0, 0x0, 0x3F7, 0x0, 0, 1⟩,
  ⟨0x4701, 1, 0x1, 1, 0x1, 0x0, 0x0, 0x0, 0x3, 0x0, 0x0, 0, 1⟩,
  ⟨0x4702, 1, 0x1, 1, 0x1, 0x0, 0x0, 0x80FF, 0x0, 0x0, 0x0, 0, 1⟩,
  ⟨0x4703, 1, 0x1, 1, 0x1, 0x0, 0x0, 0x0, 0x0, 0xFFFF, 0x0, 0, 2⟩,
  ⟨0x4704, 1, 0x1, 1, 0x1, 0x0, 0x0, 0x0, 0x0, 0xFFFF, 0x0, 1, 2⟩,
  ⟨0x4705, 1, 0x1, 1, 0x1, 0x0, 0x0, 0x0, 0x0, 0xFFFF, 0x0, 0, 1⟩,
  ⟨0x4706, 1, 0x1, 1, 0x1, 0x0, 0x0, 0x0, 0x0, 0xFFFF, 0x0, 0, 1⟩,
  ⟨0x4707, 1, 0x1, 1, 0x1, 0x0, 0x0, 0x0, 0x0, 0xFFFF, 0x0, 0, 1⟩,
  ⟨0x4708, 1, 0x1, 1, 0x1, 0x0, 0x0, 0x0, 0x0, 0xFFFF, 0x0, 0, 1⟩,
  ⟨0x4709, 1, 0x1, 1, 0x1, 0x0, 0x0, 0x0, 0x0, 0xFFFF, 0x0, 0, 1⟩,
  ⟨0x470A, 1, 0x1, 1, 0x1, 0x0, 0x0, 0x0, 0x0, 0xFFFF, 0x0, 0, 2⟩]
/-- The registers of the device-global space (R105), part 3. -/
def globalRows3 : List RegRow := [
  ⟨0x470B, 1, 0x1, 1, 0x1, 0x0, 0x0, 0x0, 0x0, 0xFFFF, 0x0, 1, 2⟩,
  ⟨0x470C, 1, 0x1, 1, 0x1, 0x0, 0x0, 0x0, 0x0, 0xFFFF, 0x0, 0, 1⟩,
  ⟨0x470D, 1, 0x1, 1, 0x1, 0x0, 0x0, 0x0, 0x0, 0xFFFF, 0x0, 0, 1⟩,
  ⟨0x470E, 1, 0x1, 1, 0x1, 0x0, 0x0, 0x0, 0x0, 0xFFFF, 0x0, 0, 1⟩,
  ⟨0x470F, 1, 0x1, 1, 0x1, 0x0, 0x0, 0x0, 0x0, 0xFFFF, 0x0, 0, 1⟩,
  ⟨0x4710, 1, 0x1, 1, 0x1, 0xFFFF, 0x0, 0x0, 0x0, 0x0, 0x0, 0, 3⟩,
  ⟨0x4711, 1, 0x1, 1, 0x1, 0xFFFF, 0x0, 0x0, 0x0, 0x0, 0x0, 1, 3⟩,
  ⟨0x4712, 1, 0x1, 1, 0x1, 0x3F, 0x0, 0x0, 0x0, 0x0, 0x0, 2, 3⟩,
  ⟨0x4713, 1, 0x1, 1, 0x1, 0xFFFF, 0x0, 0x0, 0x0, 0x0, 0x0, 0, 2⟩,
  ⟨0x4714, 1, 0x1, 1, 0x1, 0x1, 0x0, 0x0, 0x0, 0x0, 0x0, 1, 2⟩,
  ⟨0x4715, 1, 0x1, 1, 0x1, 0x0, 0x0, 0x0, 0x0, 0xFFCF, 0x0, 0, 1⟩,
  ⟨0x4716, 1, 0x1, 1, 0x1, 0x4000, 0x0, 0x0, 0x8000, 0x0, 0x0, 0, 1⟩,
  ⟨0x4717, 1, 0x1, 1, 0x1, 0xFFFF, 0x0, 0x0, 0x0, 0x0, 0x0, 0, 1⟩,
  ⟨0x4718, 1, 0x1, 1, 0x1, 0x0, 0x0, 0x0, 0x0, 0xFFFF, 0x0, 0, 1⟩,
  ⟨0x4719, 1, 0x1, 1, 0x1, 0x0, 0x0, 0x0, 0x0, 0xFFFF, 0x0, 0, 1⟩,
  ⟨0x471A, 1, 0x1, 1, 0x1, 0x0, 0x0, 0x0, 0x0, 0xFFFF, 0x0, 0, 1⟩,
  ⟨0x471B, 1, 0x1, 1, 0x1, 0x0, 0x0, 0x0, 0x0, 0xFFFF, 0x0, 0, 1⟩,
  ⟨0x471C, 1, 0x1, 1, 0x1, 0x0, 0x0, 0x0, 0x0, 0xFFFF, 0x0, 0, 1⟩,
  ⟨0x471D, 1, 0x1, 1, 0x1, 0x0, 0x0, 0x0, 0x0, 0xFFFF, 0x0, 0, 1⟩,
  ⟨0x471E, 1, 0x1, 1, 0x1, 0x0, 0x0, 0x0, 0x8000, 0x0, 0x0, 0, 1⟩,
  ⟨0x471F, 1, 0x1, 1, 0x1, 0x0, 0x0, 0x0, 0x407F, 0xA000, 0x0, 0, 1⟩,
  ⟨0x4720, 1, 0x1, 1, 0x1, 0x0, 0x0, 0x0, 0x0, 0xFF, 0x0, 0, 1⟩,
  ⟨0x4800, 16, 0x40, 1, 0x1, 0x0, 0x0, 0x0, 0x0, 0xFFFF, 0x0, 0, 3⟩,
  ⟨0x4801, 16, 0x40, 1, 0x1, 0x0, 0x0, 0x0, 0x0, 0xFFFF, 0x0, 1, 3⟩,
  ⟨0x4802, 16, 0x40, 1, 0x1, 0x0, 0x0, 0x0, 0x0, 0xFFFF, 0x0, 2, 3⟩,
  ⟨0x4803, 16, 0x40, 1, 0x1, 0x0, 0xF000, 0x0, 0x0, 0xF, 0x0, 0, 1⟩,
  ⟨0x4804, 16, 0x40, 1, 0x1, 0xFFFF, 0x0, 0x0, 0x0, 0x0, 0x0, 0, 1⟩,
  ⟨0x4805, 16, 0x40, 1, 0x1, 0xFFF0, 0x0, 0x0, 0x0, 0x0, 0x0, 0, 1⟩,
  ⟨0x4806, 16, 0x40, 1, 0x1, 0xFFFF, 0x0, 0x0, 0x0, 0x0, 0x0, 0, 2⟩,
  ⟨0x4807, 16, 0x40, 1, 0x1, 0xFFFF, 0x0, 0x0, 0x0, 0x0, 0x0, 1, 2⟩,
  ⟨0x4808, 16, 0x40, 1, 0x1, 0x0, 0x0, 0x0, 0x0, 0xFFFF, 0x0, 0, 3⟩,
  ⟨0x4809, 16, 0x40, 1, 0x1, 0x0, 0x0, 0x0, 0x0, 0xFFFF, 0x0, 1, 3⟩,
  ⟨0x480A, 16, 0x40, 1, 0x1, 0x0, 0x0, 0x0, 0x0, 0xFFFF, 0x0, 2, 3⟩,
  ⟨0x480B, 16, 0x40, 1, 0x1, 0xC0FF, 0x0, 0x0, 0x0, 0x0, 0x0, 0, 1⟩,
  ⟨0x480C, 16, 0x40, 1, 0x1, 0xFFFF, 0x0, 0x0, 0x0, 0x0, 0x0, 0, 2⟩,
  ⟨0x480D, 16, 0x40, 1, 0x1, 0xFFFF, 0x0, 0x0, 0x0, 0x0, 0x0, 1, 2⟩,
  ⟨0x480E, 16, 0x40, 1, 0x1, 0x0, 0x0, 0x0, 0x0, 0xFFFF, 0x0, 0, 3⟩,
  ⟨0x480F, 16, 0x40, 1, 0x1, 0x0, 0x0, 0x0, 0x0, 0xFFFF, 0x0, 1, 3⟩,
  ⟨0x4810, 16, 0x40, 1, 0x1, 0x0, 0x0, 0x0, 0x0, 0xFFFF, 0x0, 2, 3⟩,
  ⟨0x4811, 16, 0x40, 1, 0x1, 0xFFFF, 0x0, 0x0, 0x0, 0x0, 0x0, 0, 1⟩,
  ⟨0x4812, 16, 0x40, 1, 0x1, 0xFFFF, 0x0, 0x0, 0x0, 0x0, 0x0, 0, 1⟩,
  ⟨0x4813, 16, 0x40, 1, 0x1, 0xFFFF, 0x0, 0x0, 0x0, 0x0, 0x0, 0, 1⟩,
  ⟨0x4814, 16, 0x40, 1, 0x1, 0x0, 0x0, 0x0, 0xFFFF, 0x0, 0x0, 0, 3⟩,
  ⟨0x4815, 16, 0x40, 1, 0x1, 0x0, 0x0, 0x0, 0xFFFF, 0x0, 0x0, 1, 3⟩,
  ⟨0x4816, 16, 0x40, 1, 0x1, 0x0, 0x0, 0x0, 0xFFFF, 0x0, 0x0, 2, 3⟩]
/-- The registers of the device-global space (R105), part 4. -/
def globalRows4 : List RegRow := [
  ⟨0x4817, 16, 0x40, 1, 0x1, 0x0, 0x0, 0x0, 0xC000, 0x0, 0x0, 0, 1⟩,
  ⟨0x4818, 16, 0x40, 1, 0x1, 0x0, 0x0, 0x0, 0x0, 0xF, 0x0, 0, 1⟩,
  ⟨0x4819, 16, 0x40, 1, 0x1, 0x0, 0x0, 0x0, 0x0, 0xFFFF, 0x0, 0, 1⟩,
  ⟨0x481A, 16, 0x40, 1, 0x1, 0x0, 0x0, 0x0, 0x0, 0xFFFF, 0x0, 0, 3⟩,
  ⟨0x481B, 16, 0x40, 1, 0x1, 0x0, 0x0, 0x0, 0x0, 0xFFFF, 0x0, 1, 3⟩,
  ⟨0x481C, 16, 0x40, 1, 0x1, 0x0, 0x0, 0x0, 0x0, 0xFFFF, 0x0, 2, 3⟩,
  ⟨0x481D, 16, 0x40, 1, 0x1, 0x0, 0x0, 0x0, 0x0, 0xFFFF, 0x0, 0, 2⟩,
  ⟨0x481E, 16, 0x40, 1, 0x1, 0x0, 0x0, 0x0, 0x0, 0xFF, 0x0, 1, 2⟩,
  ⟨0x481F, 16, 0x40, 1, 0x1, 0x0, 0x0, 0x0, 0x0, 0xFFFF, 0x0, 0, 1⟩,
  ⟨0x4820, 16, 0x40, 1, 0x1, 0x0, 0x0, 0x0, 0x0, 0xFFFF, 0x0, 0, 1⟩,
  ⟨0x4BF8, 1, 0x1, 1, 0x1, 0x803F, 0x0, 0x0, 0x0, 0x0, 0x0, 0, 1⟩,
  ⟨0x4BF9, 1, 0x1, 1, 0x1, 0xFFFF, 0x0, 0x0, 0x0, 0x0, 0x0, 0, 1⟩,
  ⟨0x4BFA, 1, 0x1, 1, 0x1, 0x0, 0x0, 0x0, 0x0, 0xFFFF, 0x0, 0, 1⟩,
  ⟨0x4BFB, 1, 0x1, 1, 0x1, 0x0, 0x0, 0x0, 0x0, 0xFF, 0x0, 0, 1⟩,
  ⟨0x4C00, 1, 0x1, 1, 0x1, 0x0, 0xF800, 0x0, 0x0, 0x3, 0x0, 0, 1⟩,
  ⟨0x4C01, 1, 0x1, 1, 0x1, 0x80FF, 0x0, 0x0, 0x0, 0x0, 0x0, 0, 1⟩,
  ⟨0x4C02, 1, 0x1, 1, 0x1, 0xFFFF, 0x0, 0x0, 0x0, 0x0, 0x0, 0, 2⟩,
  ⟨0x4C03, 1, 0x1, 1, 0x1, 0x7FF, 0x0, 0x0, 0x0, 0x0, 0x0, 1, 2⟩,
  ⟨0x4C04, 1, 0x1, 1, 0x1, 0xFFFF, 0x0, 0x0, 0x0, 0x0, 0x0, 0, 1⟩,
  ⟨0x4C05, 1, 0x1, 1, 0x1, 0x0, 0x0, 0x0, 0x0, 0x1FFF, 0x0, 0, 1⟩,
  ⟨0x4C06, 1, 0x1, 1, 0x1, 0x0, 0x0, 0x0, 0x0, 0xFFFF, 0x0, 0, 2⟩,
  ⟨0x4C07, 1, 0x1, 1, 0x1, 0x0, 0x0, 0x0, 0x0, 0x1, 0x0, 1, 2⟩,
  ⟨0x4C08, 1, 0x1, 1, 0x1, 0x0, 0x0, 0x0, 0x0, 0xFFFF, 0x0, 0, 2⟩,
  ⟨0x4C09, 1, 0x1, 1, 0x1, 0x0, 0x0, 0x0, 0x0, 0xFFFF, 0x0, 1, 2⟩,
  ⟨0x4C0A, 1, 0x1, 1, 0x1, 0x0, 0x0, 0x0, 0x0, 0xFFFF, 0x0, 0, 1⟩,
  ⟨0x4C0B, 1, 0x1, 1, 0x1, 0x0, 0x0, 0x0, 0x0, 0xFFFF, 0x0, 0, 1⟩,
  ⟨0x4C0C, 1, 0x1, 1, 0x1, 0x0, 0x0, 0x0, 0x0, 0xFFFF, 0x0, 0, 1⟩,
  ⟨0x4C0D, 1, 0x1, 1, 0x1, 0x0, 0x0, 0x0, 0x0, 0xFFFF, 0x0, 0, 1⟩,
  ⟨0x4C0E, 1, 0x1, 1, 0x1, 0x0, 0x0, 0x0, 0x0, 0xFFFF, 0x0, 0, 1⟩,
  ⟨0x4C0F, 1, 0x1, 1, 0x1, 0x0, 0x0, 0x0, 0x0, 0xFFFF, 0x0, 0, 1⟩,
  ⟨0x4C10, 8, 0x1, 1, 0x1, 0x0, 0x0, 0x0, 0xFFFF, 0x0, 0x0, 15, 8⟩,
  ⟨0x4C18, 1, 0x1, 1, 0x1, 0x0, 0x0, 0x0, 0x800F, 0x0, 0x0, 0, 1⟩,
  ⟨0x4C19, 1, 0x1, 1, 0x1, 0x0, 0x0, 0x0, 0x0, 0xFFFF, 0x0, 0, 1⟩,
  ⟨0x4C1A, 1, 0x1, 1, 0x1, 0x0, 0x0, 0x0, 0x0, 0x7FF, 0x0, 0, 1⟩,
  ⟨0x4C1B, 1, 0x1, 1, 0x1, 0x0, 0x0, 0x0, 0x8000, 0x0, 0x0, 0, 1⟩,
  ⟨0x4C1C, 1, 0x1, 1, 0x1, 0x0, 0x0, 0x0, 0x0, 0xFFFF, 0x0, 0, 1⟩,
  ⟨0x4C40, 1, 0x1, 1, 0x1, 0x0, 0xC000, 0x0, 0x0, 0xF, 0x4000, 0, 1⟩,
  ⟨0x4C41, 1, 0x1, 1, 0x1, 0x0, 0x0, 0x0, 0xC000, 0x0, 0x0, 0, 1⟩,
  ⟨0x4C42, 1, 0x1, 1, 0x1, 0xFF, 0x0, 0x0, 0x0, 0x0, 0x0, 0, 1⟩,
  ⟨0x4C43, 1, 0x1, 1, 0x1, 0xF000, 0x0, 0x0, 0x0, 0x0, 0x0, 0, 1⟩,
  ⟨0x4C44, 1, 0x1, 1, 0x1, 0xFFFF, 0x0, 0x0, 0x0, 0x0, 0x0, 0, 2⟩,
  ⟨0x4C45, 1, 0x1, 1, 0x1, 0xFFFF, 0x0, 0x0, 0x0, 0x0, 0x0, 1, 2⟩,
  ⟨0x4C46, 1, 0x1, 1, 0x1, 0x0, 0x0, 0x0, 0x0, 0xFFFF, 0x0, 0, 1⟩,
  ⟨0x4C47, 4, 0x1, 1, 0x1, 0x0, 0x0, 0x0, 0x0, 0xFFFF, 0x0, 0, 1⟩,
  ⟨0x4C60, 2, 0x1, 1, 0x1, 0xFFFF, 0x0, 0x0, 0x0, 0x0, 0x0, 0, 1⟩]
/-- The registers of the device-global space (R105), part 5. -/
def globalRows5 : List RegRow := [
  ⟨0x4C62, 2, 0x1, 1, 0x1, 0xFFFF, 0x0, 0x0, 0x0, 0x0, 0x0, 0, 1⟩,
  ⟨0x4C64, 2, 0x1, 1, 0x1, 0x0, 0x0, 0x0, 0x0, 0xFFFF, 0x0, 0, 1⟩,
  ⟨0x4C66, 2, 0x1, 1, 0x1, 0xFFFF, 0x0, 0x0, 0x0, 0x0, 0x0, 0, 1⟩,
  ⟨0x4F00, 16, 0x1, 1, 0x1, 0xFFFF, 0x0, 0x0, 0x0, 0x0, 0x0, 0, 1⟩,
  ⟨0x4F10, 1, 0x1, 1, 0x1, 0x0, 0x0, 0x0, 0xFFFF, 0x0, 0x0, 0, 1⟩,
  ⟨0x4F11, 1, 0x1, 1, 0x1, 0x0, 0x0, 0x0, 0x0, 0x3FF, 0x0, 0, 1⟩,
  ⟨0x4F12, 1, 0x1, 1, 0x1, 0x0, 0x0, 0x0, 0x0, 0xFFFF, 0x0, 0, 1⟩,
  ⟨0x4F13, 1, 0x1, 1, 0x1, 0x0, 0x0, 0x0, 0x0, 0xFFFF, 0x0, 0, 1⟩,
  ⟨0x4F14, 1, 0x1, 1, 0x1, 0x0, 0x0, 0x0, 0x0, 0xFFFF, 0x0, 0, 1⟩,
  ⟨0x4F15, 1, 0x1, 1, 0x1, 0x0, 0x0, 0x0, 0x0, 0xFFFF, 0x0, 0, 1⟩,
  ⟨0x4F16, 1, 0x1, 1, 0x1, 0x0, 0x0, 0x0, 0x8000, 0x0, 0x0, 0, 1⟩,
  ⟨0x5000, 64, 0x20, 1, 0x1, 0xFEF0, 0x0, 0x0, 0x0, 0x0, 0x0, 0, 1⟩,
  ⟨0x5001, 64, 0x20, 1, 0x1, 0xFF, 0x0, 0x0, 0x0, 0x0, 0x0, 0, 1⟩,
  ⟨0x5002, 64, 0x20, 1, 0x1, 0xFFFF, 0x0, 0x0, 0x0, 0x0, 0x0, 0, 1⟩,
  ⟨0x5003, 64, 0x20, 1, 0x1, 0xFFFF, 0x0, 0x0, 0x0, 0x0, 0x0, 0, 1⟩,
  ⟨0x5004, 64, 0x20, 1, 0x1, 0x0, 0xE000, 0x0, 0x0, 0x3FB, 0x0, 0, 1⟩,
  ⟨0x5005, 64, 0x20, 1, 0x1, 0x0, 0x0, 0x0, 0x0, 0xFFFF, 0x0, 0, 1⟩,
  ⟨0x5006, 64, 0x20, 1, 0x1, 0x0, 0x0, 0x0, 0x0, 0xFFFF, 0x0, 0, 1⟩,
  ⟨0x5007, 64, 0x20, 1, 0x1, 0x0, 0x0, 0x0, 0x0, 0xFFFF, 0x0, 0, 2⟩,
  ⟨0x5008, 64, 0x20, 1, 0x1, 0x0, 0x0, 0x0, 0x0, 0xFFFF, 0x0, 1, 2⟩,
  ⟨0x5009, 64, 0x20, 1, 0x1, 0x0, 0x0, 0x0, 0x0, 0xFFFF, 0x0, 0, 1⟩,
  ⟨0x500A, 64, 0x20, 1, 0x1, 0x0, 0x0, 0x0, 0x0, 0xFFFF, 0x0, 0, 1⟩,
  ⟨0x500B, 64, 0x20, 1, 0x1, 0x0, 0x0, 0x0, 0x8000, 0x0, 0x0, 0, 1⟩,
  ⟨0x5800, 8, 0x100, 1, 0x1, 0xEFFC, 0x0, 0x0, 0x0, 0x0, 0x0, 0, 1⟩,
  ⟨0x5801, 8, 0x100, 1, 0x1, 0xFFFF, 0x0, 0x0, 0x0, 0x0, 0x0, 0, 1⟩,
  ⟨0x5802, 8, 0x100, 1, 0x1, 0xFFFF, 0x0, 0x0, 0x0, 0x0, 0x0, 0, 1⟩,
  ⟨0x5803, 8, 0x100, 1, 0x1, 0xFFFF, 0x0, 0x0, 0x0, 0x0, 0x0, 0, 1⟩,
  ⟨0x5804, 8, 0x100, 1, 0x1, 0xFFFF, 0x0, 0x0, 0x0, 0x0, 0x0, 0, 1⟩,
  ⟨0x5805, 8, 0x100, 1, 0x1, 0xF, 0x0, 0x0, 0x0, 0x0, 0x0, 0, 1⟩,
  ⟨0x5806, 8, 0x100, 1, 0x1, 0x0, 0x0, 0x9C7F, 0x0, 0x0, 0x0, 0, 1⟩,
  ⟨0x5807, 8, 0x100, 1, 0x1, 0x0, 0xF800, 0x0, 0x0, 0x403, 0x0, 0, 1⟩,
  ⟨0x5808, 8, 0x100, 1, 0x1, 0x0, 0x0, 0x0, 0x0, 0xFFFF, 0x0, 0, 1⟩,
  ⟨0x5809, 8, 0x100, 1, 0x1, 0x0, 0x0, 0x0, 0x0, 0xFFFF, 0x0, 0, 1⟩,
  ⟨0x580A, 8, 0x100, 1, 0x1, 0x0, 0x0, 0x0, 0x0, 0xFFFF, 0x0, 0, 2⟩,
  ⟨0x580B, 8, 0x100, 1, 0x1, 0x0, 0x0, 0x0, 0x0, 0xFFFF, 0x0, 1, 2⟩,
  ⟨0x580C, 8, 0x100, 1, 0x1, 0x0, 0x0, 0x0, 0x0, 0xFFFF, 0x0, 0, 1⟩,
  ⟨0x580D, 8, 0x100, 1, 0x1, 0x0, 0x0, 0x0, 0x0, 0xFFFF, 0x0, 0, 1⟩,
  ⟨0x580E, 8, 0x100, 1, 0x1, 0x0, 0x0, 0x0, 0x0, 0x3F3F, 0x0, 0, 1⟩,
  ⟨0x580F, 8, 0x100, 1, 0x1, 0x0, 0x0, 0x0, 0x8000, 0x0, 0x0, 0, 1⟩,
  ⟨0x5810, 8, 0x100, 1, 0x1, 0x403F, 0x0, 0x0, 0x8000, 0x0, 0x0, 0, 1⟩,
  ⟨0x5811, 8, 0x100, 1, 0x1, 0xFFFF, 0x0, 0x0, 0x0, 0x0, 0x0, 0, 1⟩,
  ⟨0x5812, 8, 0x100, 1, 0x1, 0xFFFF, 0x0, 0x0, 0x0, 0x0, 0x0, 0, 1⟩,
  ⟨0x5813, 8, 0x100, 1, 0x1, 0x0, 0x6000, 0x0, 0x0, 0x8007, 0x0, 0, 1⟩,
  ⟨0x5841, 8, 0x100, 62, 0x1, 0x0, 0x0, 0x0, 0x0, 0xFFF0, 0x0, 0, 1⟩,
  ⟨0x5881, 8, 0x100, 62, 0x1, 0x0, 0x0, 0x0, 0x0, 0xFFFF, 0x0, 0, 1⟩]
/-- The registers of the device-global space (R105), part 6. -/
def globalRows6 : List RegRow := [
  ⟨0x58C1, 8, 0x100, 62, 0x1, 0x0, 0x0, 0x0, 0xE000, 0x0, 0x0, 0, 1⟩,
  ⟨0x6000, 2, 0x400, 1, 0x1, 0x0, 0xE000, 0x0, 0x0, 0x0, 0x0, 0, 1⟩,
  ⟨0x6001, 2, 0x400, 1, 0x1, 0x0, 0x0, 0x0, 0x0, 0xFFFF, 0x0, 0, 1⟩,
  ⟨0x6002, 2, 0x400, 1, 0x1, 0x0, 0x0, 0x0, 0x0, 0xFFFF, 0x0, 0, 1⟩,
  ⟨0x6003, 2, 0x400, 1, 0x1, 0x0, 0x0, 0x0, 0x0, 0xF, 0x0, 0, 1⟩,
  ⟨0x6004, 2, 0x400, 1, 0x1, 0x0, 0x0, 0x0, 0x0, 0x3FF, 0x0, 0, 1⟩,
  ⟨0x6005, 2, 0x400, 1, 0x1, 0x0, 0x0, 0x9C7F, 0x0, 0x0, 0x0, 0, 1⟩,
  ⟨0x6006, 2, 0x400, 1, 0x1, 0x0, 0x0, 0x0, 0x0, 0xFFFF, 0x0, 0, 1⟩,
  ⟨0x6007, 2, 0x400, 1, 0x1, 0x0, 0x0, 0x0, 0x0, 0xFFFF, 0x0, 0, 1⟩,
  ⟨0x6008, 2, 0x400, 1, 0x1, 0x0, 0x0, 0x0, 0x0, 0xFFFF, 0x0, 0, 1⟩,
  ⟨0x6009, 2, 0x400, 1, 0x1, 0x0, 0x0, 0x0, 0x0, 0xFFFF, 0x0, 0, 1⟩,
  ⟨0x600A, 2, 0x400, 1, 0x1, 0x0, 0x0, 0x0, 0x0, 0xFFFF, 0x0, 0, 1⟩,
  ⟨0x600B, 2, 0x400, 1, 0x1, 0xFFFF, 0x0, 0x0, 0x0, 0x0, 0x0, 0, 2⟩,
  ⟨0x600C, 2, 0x400, 1, 0x1, 0x1F, 0x0, 0x0, 0x0, 0x0, 0x0, 1, 2⟩,
  ⟨0x600D, 2, 0x400, 1, 0x1, 0xFFFF, 0x0, 0x0, 0x0, 0x0, 0x0, 0, 1⟩,
  ⟨0x600E, 2, 0x400, 1, 0x1, 0x0, 0x0, 0x0, 0x8000, 0x0, 0x0, 0, 1⟩,
  ⟨0x6020, 2, 0x400, 1, 0x1, 0x470F, 0x0, 0x0, 0x8000, 0x0, 0x0, 0, 1⟩,
  ⟨0x6021, 2, 0x400, 1, 0x1, 0x0, 0x6000, 0x0, 0x0, 0x800F, 0x0, 0, 1⟩,
  ⟨0x6022, 2, 0x400, 1, 0x1, 0xFFFF, 0x0, 0x0, 0x0, 0x0, 0x0, 0, 2⟩,
  ⟨0x6023, 2, 0x400, 1, 0x1, 0xFFFF, 0x0, 0x0, 0x0, 0x0, 0x0, 1, 2⟩,
  ⟨0x6024, 2, 0x400, 1, 0x1, 0xFFFF, 0x0, 0x0, 0x0, 0x0, 0x0, 0, 1⟩,
  ⟨0x6025, 2, 0x400, 1, 0x1, 0x0, 0x0, 0x0, 0x0, 0xFF, 0x0, 0, 1⟩,
  ⟨0x6026, 2, 0x400, 1, 0x1, 0x0, 0x0, 0x0, 0x0, 0xFFFF, 0x0, 0, 1⟩,
  ⟨0x6028, 2, 0x400, 16, 0x1, 0xFFFF, 0x0, 0x0, 0x0, 0x0, 0x0, 15, 2⟩,
  ⟨0x6040, 2, 0x400, 20, 0x8, 0x0, 0xC000, 0x0, 0x0, 0x7F7, 0x0, 0, 1⟩,
  ⟨0x6041, 2, 0x400, 20, 0x8, 0x0, 0x0, 0x0, 0x0, 0xFFFF, 0x0, 0, 1⟩,
  ⟨0x6042, 2, 0x400, 20, 0x8, 0x0, 0x0, 0x0, 0x0, 0xFFFF, 0x0, 0, 1⟩,
  ⟨0x6043, 2, 0x400, 20, 0x8, 0x0, 0x0, 0x0, 0x0, 0xFFFF, 0x0, 0, 1⟩,
  ⟨0x6044, 2, 0x400, 20, 0x8, 0x0, 0x0, 0x0, 0x8000, 0x0, 0x0, 0, 1⟩,
  ⟨0x6100, 2, 0x400, 64, 0x4, 0x0, 0x0, 0xEFFF, 0x0, 0x0, 0x0, 0, 1⟩,
  ⟨0x6101, 2, 0x400, 64, 0x4, 0xFFFF, 0x0, 0x0, 0x0, 0x0, 0x0, 0, 2⟩,
  ⟨0x6102, 2, 0x400, 64, 0x4, 0xFFFF, 0x0, 0x0, 0x0, 0x0, 0x0, 1, 2⟩,
  ⟨0x6103, 2, 0x400, 64, 0x4, 0x0, 0x0, 0x1C7F, 0x0, 0x0, 0x0, 0, 1⟩,
  ⟨0x6200, 2, 0x400, 16, 0x20, 0xFFFF, 0x0, 0x0, 0x0, 0x0, 0x0, 0, 1⟩,
  ⟨0x6201, 2, 0x400, 16, 0x20, 0xFFFF, 0x0, 0x0, 0x0, 0x0, 0x0, 0, 1⟩,
  ⟨0x6202, 2, 0x400, 16, 0x20, 0xFFFF, 0x0, 0x0, 0x0, 0x0, 0x0, 0, 1⟩,
  ⟨0x6203, 2, 0x400, 16, 0x20, 0xFFFF, 0x0, 0x0, 0x0, 0x0, 0x0, 0, 1⟩,
  ⟨0x6204, 2, 0x400, 16, 0x20, 0xFF80, 0x0, 0x0, 0x0, 0x0, 0x0, 0, 1⟩,
  ⟨0x6205, 2, 0x400, 16, 0x20, 0xFFFF, 0x0, 0x0, 0x0, 0x0, 0x0, 0, 1⟩,
  ⟨0x6206, 2, 0x400, 16, 0x20, 0xFFFF, 0x0, 0x0, 0x0, 0x0, 0x0, 0, 1⟩,
  ⟨0x6207, 2, 0x400, 16, 0x20, 0xFFFF, 0x0, 0x0, 0x0, 0x0, 0x0, 0, 1⟩,
  ⟨0x6208, 2, 0x400, 16, 0x20, 0xFFFF, 0x0, 0x0, 0x0, 0x0, 0x0, 0, 1⟩,
  ⟨0x6209, 2, 0x400, 16, 0x20, 0xFFFF, 0x0, 0x0, 0x0, 0x0, 0x0, 0, 1⟩,
  ⟨0x620A, 2, 0x400, 16, 0x20, 0xFFFF, 0x0, 0x0, 0x0, 0x0, 0x0, 0, 1⟩,
  ⟨0x620B, 2, 0x400, 16, 0x20, 0xFF, 0x0, 0x0, 0x0, 0x0, 0x0, 0, 1⟩]
/-- The registers of the device-global space (R105), part 7. -/
def globalRows7 : List RegRow := [
  ⟨0x620C, 2, 0x400, 16, 0x20, 0xFFFF, 0x0, 0x0, 0x0, 0x0, 0x0, 0, 1⟩,
  ⟨0x620D, 2, 0x400, 16, 0x20, 0x0, 0x0, 0xFFFF, 0x0, 0x0, 0x0, 0, 1⟩,
  ⟨0x620E, 2, 0x400, 16, 0x20, 0xFFFF, 0x0, 0x0, 0x0, 0x0, 0x0, 0, 2⟩,
  ⟨0x620F, 2, 0x400, 16, 0x20, 0x7FF, 0x0, 0x0, 0x0, 0x0, 0x0, 1, 2⟩,
  ⟨0x6210, 2, 0x400, 16, 0x20, 0xFFFF, 0x0, 0x0, 0x0, 0x0, 0x0, 0, 1⟩,
  ⟨0x6211, 2, 0x400, 16, 0x20, 0xFFFF, 0x0, 0x0, 0x0, 0x0, 0x0, 0, 1⟩,
  ⟨0x6212, 2, 0x400, 16, 0x20, 0xC0FF, 0x0, 0x0, 0x0, 0x0, 0x0, 0, 1⟩,
  ⟨0x6213, 2, 0x400, 16, 0x20, 0x0, 0x0, 0x9C7F, 0x0, 0x0, 0x0, 0, 1⟩,
  ⟨0x6214, 2, 0x400, 16, 0x20, 0x0, 0xF000, 0x0, 0x0, 0x807, 0x0, 0, 1⟩,
  ⟨0x6215, 2, 0x400, 16, 0x20, 0x0, 0x0, 0x0, 0x0, 0x7FF, 0x0, 0, 1⟩,
  ⟨0x6216, 2, 0x400, 16, 0x20, 0x0, 0x0, 0x0, 0x0, 0xFFFF, 0x0, 0, 2⟩,
  ⟨0x6217, 2, 0x400, 16, 0x20, 0x0, 0x0, 0x0, 0x0, 0xFFFF, 0x0, 1, 2⟩,
  ⟨0x6218, 2, 0x400, 16, 0x20, 0x0, 0x0, 0x0, 0x0, 0xFFFF, 0x0, 0, 1⟩,
  ⟨0x6219, 2, 0x400, 16, 0x20, 0x0, 0x0, 0x0, 0x0, 0xFFFF, 0x0, 0, 1⟩,
  ⟨0x621A, 2, 0x400, 16, 0x20, 0x0, 0x0, 0x0, 0x0, 0xFFFF, 0x0, 0, 1⟩,
  ⟨0x621B, 2, 0x400, 16, 0x20, 0x0, 0x0, 0x0, 0xC000, 0x0, 0x0, 0, 1⟩,
  ⟨0x621C, 2, 0x400, 16, 0x20, 0xFFFF, 0x0, 0x0, 0x0, 0x0, 0x0, 0, 1⟩,
  ⟨0x6800, 4, 0x200, 1, 0x1, 0x0, 0xF800, 0x0, 0x0, 0x77, 0x0, 0, 1⟩,
  ⟨0x6801, 4, 0x200, 1, 0x1, 0x0, 0x0, 0x0, 0x8000, 0x0, 0x0, 0, 1⟩,
  ⟨0x6802, 4, 0x200, 1, 0x1, 0x0, 0x0, 0x0, 0x0, 0xFFFF, 0x0, 0, 1⟩,
  ⟨0x6803, 4, 0x200, 1, 0x1, 0x0, 0x0, 0x0, 0x0, 0xFFFF, 0x0, 0, 1⟩,
  ⟨0x6804, 4, 0x200, 1, 0x1, 0x0, 0x0, 0x0, 0x0, 0xFFFF, 0x0, 0, 1⟩,
  ⟨0x6805, 4, 0x200, 1, 0x1, 0x0, 0x0, 0x0, 0x0, 0xFFFF, 0x0, 0, 1⟩,
  ⟨0x6806, 4, 0x200, 1, 0x1, 0x0, 0x0, 0x0, 0x0, 0xFFFF, 0x0, 0, 1⟩,
  ⟨0x6807, 4, 0x200, 1, 0x1, 0x0, 0x0, 0x0, 0x0, 0xFFFF, 0x0, 0, 1⟩,
  ⟨0x6808, 4, 0x200, 1, 0x1, 0x0, 0x0, 0x0, 0x0, 0xFF9F, 0x0, 0, 1⟩,
  ⟨0x6809, 4, 0x200, 1, 0x1, 0x0, 0x0, 0x0, 0x0, 0xFFFF, 0x0, 0, 1⟩,
  ⟨0x680A, 4, 0x200, 1, 0x1, 0x0, 0x0, 0x0, 0x0, 0x307F, 0x0, 0, 1⟩,
  ⟨0x6810, 4, 0x200, 16, 0x1, 0x0, 0x0, 0x0, 0x0, 0xFFFF, 0xFFFF, 0, 1⟩,
  ⟨0x6820, 4, 0x200, 1, 0x1, 0x0, 0x0, 0x0, 0x0, 0x7F, 0x0, 0, 1⟩,
  ⟨0x6821, 4, 0x200, 1, 0x1, 0x0, 0x0, 0x0, 0x0, 0x7, 0x0, 0, 1⟩,
  ⟨0x6900, 1, 0x1, 1, 0x1, 0x0, 0xC000, 0x0, 0x0, 0x2000, 0x0, 0, 1⟩,
  ⟨0x6901, 1, 0x1, 1, 0x1, 0x0, 0x0, 0x0, 0x0, 0x70F, 0x0, 0, 1⟩,
  ⟨0x6902, 1, 0x1, 1, 0x1, 0x0, 0x0, 0x0, 0x0, 0xF000, 0x0, 0, 1⟩,
  ⟨0x6903, 1, 0x1, 1, 0x1, 0x0, 0x0, 0x0, 0x0, 0xFFFF, 0x0, 0, 2⟩,
  ⟨0x6904, 1, 0x1, 1, 0x1, 0x0, 0x0, 0x0, 0x0, 0xF, 0x0, 1, 2⟩,
  ⟨0x6905, 1, 0x1, 1, 0x1, 0xFF, 0x0, 0x0, 0x0, 0x0, 0x0, 0, 1⟩,
  ⟨0x6906, 1, 0x1, 1, 0x1, 0x0, 0x0, 0x8000, 0x0, 0x0, 0x0, 0, 1⟩,
  ⟨0x6907, 1, 0x1, 1, 0x1, 0x0, 0x0, 0x0, 0x801F, 0x0, 0x0, 0, 1⟩,
  ⟨0x6908, 1, 0x1, 1, 0x1, 0x0, 0x0, 0x0, 0x0, 0xFFFF, 0x0, 0, 1⟩,
  ⟨0x6909, 1, 0x1, 1, 0x1, 0x0, 0x0, 0x0, 0x8000, 0x0, 0x0, 0, 1⟩,
  ⟨0x6910, 8, 0x4, 1, 0x1, 0x0, 0x0, 0xF00F, 0x0, 0x0, 0x0, 0, 1⟩,
  ⟨0x6911, 8, 0x4, 1, 0x1, 0x0, 0x0, 0xFFFF, 0x0, 0x0, 0x0, 0, 1⟩,
  ⟨0x6912, 8, 0x4, 1, 0x1, 0x0, 0x0, 0xFFFF, 0x0, 0x0, 0x0, 0, 2⟩,
  ⟨0x6913, 8, 0x4, 1, 0x1, 0x0, 0x0, 0xF, 0x0, 0x0, 0x0, 1, 2⟩]
/-- The registers of the device-global space (R105), part 8. -/
def globalRows8 : List RegRow := [
  ⟨0x7000, 1, 0x1, 1, 0x1, 0x0, 0xF000, 0x0, 0x0, 0x0, 0x0, 0, 1⟩,
  ⟨0x7001, 1, 0x1, 1, 0x1, 0x0, 0x0, 0x0, 0xC03F, 0x0, 0x0, 0, 1⟩,
  ⟨0x7002, 1, 0x1, 1, 0x1, 0x0, 0x0, 0x0, 0x0, 0xF03F, 0x0, 0, 1⟩,
  ⟨0x7003, 1, 0x1, 1, 0x1, 0x0, 0x0, 0xC0FF, 0x0, 0x0, 0x0, 0, 1⟩,
  ⟨0x7004, 1, 0x1, 1, 0x1, 0x8000, 0x0, 0x0, 0x0, 0x0, 0x0, 0, 1⟩,
  ⟨0x7005, 1, 0x1, 1, 0x1, 0xFFFF, 0x0, 0x0, 0x0, 0x0, 0x0, 0, 2⟩,
  ⟨0x7006, 1, 0x1, 1, 0x1, 0x7, 0x0, 0x0, 0x0, 0x0, 0x0, 1, 2⟩,
  ⟨0x7007, 1, 0x1, 1, 0x1, 0xFFFF, 0x0, 0x0, 0x0, 0x0, 0x0, 0, 1⟩,
  ⟨0x7008, 1, 0x1, 1, 0x1, 0x0, 0x0, 0x0, 0x0, 0xFFFF, 0x0, 0, 1⟩,
  ⟨0x7009, 1, 0x1, 1, 0x1, 0x0, 0x0, 0x0, 0x0, 0xFFFF, 0x0, 0, 1⟩,
  ⟨0x700A, 1, 0x1, 1, 0x1, 0x0, 0x0, 0x0, 0x0, 0xFFFF, 0x0, 0, 1⟩,
  ⟨0x700B, 1, 0x1, 1, 0x1, 0x0, 0x0, 0x0, 0x0, 0xFFFF, 0x0, 0, 1⟩,
  ⟨0x700C, 1, 0x1, 1, 0x1, 0x0, 0x0, 0x0, 0x0, 0xFFFF, 0x0, 0, 1⟩,
  ⟨0x700D, 1, 0x1, 1, 0x1, 0x0, 0x0, 0x0, 0x0, 0xFFFF, 0x0, 0, 1⟩,
  ⟨0x700E, 1, 0x1, 1, 0x1, 0x0, 0x0, 0x0, 0x0, 0xFFFF, 0x0, 0, 1⟩,
  ⟨0x700F, 1, 0x1, 1, 0x1, 0xFFFF, 0x0, 0x0, 0x0, 0x0, 0x0, 0, 1⟩,
  ⟨0x7010, 1, 0x1, 1, 0x1, 0x3FFF, 0x0, 0x0, 0x0, 0x0, 0x0, 0, 1⟩,
  ⟨0x7012, 1, 0x1, 1, 0x1, 0x0, 0x0, 0x0, 0xFFFF, 0x0, 0x0, 0, 2⟩,
  ⟨0x7013, 1, 0x1, 1, 0x1, 0x0, 0x0, 0x0, 0xFF3F, 0x0, 0x0, 1, 2⟩,
  ⟨0x7018, 8, 0x1, 1, 0x1, 0xFFFF, 0x0, 0x0, 0x0, 0x0, 0x0, 0, 1⟩,
  ⟨0x7020, 8, 0x1, 1, 0x1, 0x0, 0xFFFF, 0x0, 0x0, 0x0, 0x0, 0, 1⟩,
  ⟨0x7080, 128, 0x1, 1, 0x1, 0x803F, 0x0, 0x0, 0x0, 0x0, 0x0, 0, 1⟩,
  ⟨0x7100, 64, 0x4, 1, 0x1, 0x0, 0x0, 0xFF00, 0x0, 0x0, 0x0, 0, 1⟩,
  ⟨0x7101, 64, 0x4, 1, 0x1, 0x0, 0x0, 0x1C7F, 0x0, 0x0, 0x0, 0, 1⟩,
  ⟨0x7102, 64, 0x4, 1, 0x1, 0x0, 0xE000, 0x0, 0x0, 0x87, 0x0, 0, 1⟩,
  ⟨0x7103, 64, 0x4, 1, 0x1, 0x7FFF, 0x0, 0x0, 0x8000, 0x0, 0x0, 0, 1⟩,
  ⟨0x7200, 32, 0x10, 1, 0x1, 0x0, 0x0, 0xBFFF, 0x0, 0x0, 0x0, 0, 1⟩,
  ⟨0x7201, 32, 0x10, 1, 0x1, 0x0, 0x0, 0x0, 0xC000, 0x0, 0x0, 0, 1⟩,
  ⟨0x7202, 32, 0x10, 1, 0x1, 0x0, 0xE000, 0x0, 0x0, 0x703, 0x0, 0, 1⟩,
  ⟨0x7203, 32, 0x10, 1, 0x1, 0xFFFF, 0x0, 0x0, 0x0, 0x0, 0x0, 0, 3⟩,
  ⟨0x7204, 32, 0x10, 1, 0x1, 0xFFFF, 0x0, 0x0, 0x0, 0x0, 0x0, 1, 3⟩,
  ⟨0x7205, 32, 0x10, 1, 0x1, 0x3F, 0x0, 0x0, 0x0, 0x0, 0x0, 2, 3⟩,
  ⟨0x7206, 32, 0x10, 4, 0x1, 0xFFFF, 0x0, 0x0, 0x0, 0x0, 0x0, 15, 4⟩,
  ⟨0x720A, 32, 0x10, 1, 0x1, 0xFFFF, 0x0, 0x0, 0x0, 0x0, 0x0, 0, 2⟩,
  ⟨0x720B, 32, 0x10, 1, 0x1, 0xFF, 0x0, 0x0, 0x0, 0x0, 0x0, 1, 2⟩,
  ⟨0x720C, 32, 0x10, 1, 0x1, 0x0, 0x0, 0x0, 0x0, 0xFFFF, 0x0, 0, 2⟩,
  ⟨0x720D, 32, 0x10, 1, 0x1, 0x0, 0x0, 0x0, 0x0, 0xFF, 0x0, 1, 2⟩,
  ⟨0x720E, 32, 0x10, 1, 0x1, 0x0, 0x0, 0x0, 0x0, 0xFFFF, 0x0, 0, 1⟩,
  ⟨0x7400, 19, 0x20, 1, 0x1, 0x0, 0xF000, 0x0, 0x0, 0x7, 0x0, 0, 1⟩,
  ⟨0x7401, 19, 0x20, 1, 0x1, 0x0, 0x0, 0x0, 0xE000, 0x0, 0x0, 0, 1⟩,
  ⟨0x7402, 19, 0x20, 1, 0x1, 0x0, 0x0, 0x0, 0x0, 0x3F, 0x0, 0, 1⟩,
  ⟨0x7403, 19, 0x20, 1, 0x1, 0x0, 0x0, 0x0, 0x0, 0xFFFF, 0x0, 0, 1⟩,
  ⟨0x7404, 19, 0x20, 1, 0x1, 0x0, 0x0, 0x0, 0x0, 0xFFFF, 0x0, 0, 1⟩,
  ⟨0x7405, 19, 0x20, 1, 0x1, 0x0, 0x0, 0x0, 0x0, 0xFFFF, 0x0, 0, 1⟩,
  ⟨0x7406, 19, 0x20, 1, 0x1, 0x0, 0x0, 0x0, 0x0, 0xFFFF, 0x0, 0, 1⟩]
/-- The registers of the device-global space (R105), part 9. -/
def globalRows9 : List RegRow := [
  ⟨0x7407, 19, 0x20, 1, 0x1, 0x0, 0x0, 0x0, 0x0, 0xFFFF, 0x0, 0, 1⟩,
  ⟨0x7408, 19, 0x20, 1, 0x1, 0x0, 0x0, 0x0, 0x0, 0xFFFF, 0x0, 0, 1⟩,
  ⟨0x7409, 19, 0x20, 1, 0x1, 0x0, 0x0, 0x0, 0x0, 0xFFFF, 0x0, 0, 2⟩,
  ⟨0x740A, 19, 0x20, 1, 0x1, 0x0, 0x0, 0x0, 0x0, 0xFFFF, 0x0, 1, 2⟩,
  ⟨0x740B, 19, 0x20, 1, 0x1, 0x0, 0x0, 0x0, 0x0, 0xFFFF, 0x0, 0, 2⟩,
  ⟨0x740C, 19, 0x20, 1, 0x1, 0x0, 0x0, 0x0, 0x0, 0xFFFF, 0x0, 1, 2⟩,
  ⟨0x740D, 19, 0x20, 1, 0x1, 0x0, 0x0, 0x0, 0x0, 0xFFFF, 0x0, 0, 1⟩,
  ⟨0x7700, 8, 0x20, 1, 0x1, 0x0, 0x8000, 0x0, 0x0, 0x7, 0x0, 0, 1⟩,
  ⟨0x7701, 8, 0x20, 1, 0x1, 0x0, 0x0, 0x0, 0x0, 0xFFFF, 0x0, 0, 2⟩,
  ⟨0x7702, 8, 0x20, 1, 0x1, 0x0, 0x0, 0x0, 0x0, 0xFFFF, 0x0, 1, 2⟩,
  ⟨0x7703, 8, 0x20, 1, 0x1, 0x0, 0x0, 0x0, 0x0, 0xFFFF, 0x0, 0, 1⟩,
  ⟨0x7704, 8, 0x20, 1, 0x1, 0x0, 0x0, 0x0, 0x0, 0xFF, 0x0, 0, 1⟩,
  ⟨0x7705, 8, 0x20, 1, 0x1, 0x0, 0x0, 0x0, 0x0, 0xFFFF, 0x0, 0, 1⟩,
  ⟨0x7706, 8, 0x20, 1, 0x1, 0x0, 0x0, 0x0, 0x0, 0xFFFF, 0x0, 0, 1⟩,
  ⟨0x7707, 8, 0x20, 1, 0x1, 0x0, 0x0, 0x0, 0x0, 0xFFFF, 0x0, 0, 1⟩,
  ⟨0x7708, 8, 0x20, 1, 0x1, 0x0, 0x0, 0x0, 0x0, 0xFF, 0x0, 0, 1⟩,
  ⟨0x7709, 8, 0x20, 1, 0x1, 0x0, 0x0, 0x0, 0x0, 0xF, 0x0, 0, 1⟩,
  ⟨0x770A, 8, 0x20, 4, 0x1, 0x0, 0x0, 0x0, 0x0, 0xFFFF, 0x0, 0, 1⟩,
  ⟨0x770E, 8, 0x20, 1, 0x1, 0x0, 0x0, 0x0, 0x0, 0xFFFF, 0x0, 0, 1⟩,
  ⟨0x770F, 8, 0x20, 1, 0x1, 0x1F, 0x0, 0x0, 0x0, 0x0, 0x0, 0, 1⟩,
  ⟨0x7710, 8, 0x20, 1, 0x1, 0x0, 0xC000, 0x0, 0x0, 0x0, 0x8000, 0, 1⟩,
  ⟨0x7711, 8, 0x20, 1, 0x1, 0x0, 0x0, 0x0, 0x0, 0xFFFF, 0x0, 0, 1⟩,
  ⟨0x7712, 8, 0x20, 1, 0x1, 0x0, 0x0, 0x0, 0x0, 0xFFFF, 0x0, 0, 1⟩,
  ⟨0x7713, 8, 0x20, 1, 0x1, 0x0, 0x0, 0x0, 0x0, 0xFFFF, 0x0, 0, 1⟩,
  ⟨0x7714, 8, 0x20, 1, 0x1, 0x0, 0x0, 0x0, 0x8000, 0x0, 0x0, 0, 1⟩,
  ⟨0x7800, 8, 0x100, 1, 0x1, 0x0, 0x8000, 0x0, 0x0, 0x1FF, 0x0, 0, 1⟩,
  ⟨0x7801, 8, 0x100, 1, 0x1, 0x0, 0x0, 0x0, 0xC000, 0x0, 0x0, 0, 1⟩,
  ⟨0x7802, 8, 0x100, 1, 0x1, 0xFF, 0x0, 0x0, 0x0, 0x0, 0x0, 0, 1⟩,
  ⟨0x7803, 8, 0x100, 1, 0x1, 0xFF1F, 0x0, 0x0, 0x0, 0x0, 0x0, 0, 1⟩,
  ⟨0x7804, 8, 0x100, 1, 0x1, 0xFFFF, 0x0, 0x0, 0x0, 0x0, 0x0, 0, 2⟩,
  ⟨0x7805, 8, 0x100, 1, 0x1, 0xF, 0x0, 0x0, 0x0, 0x0, 0x0, 1, 2⟩,
  ⟨0x7806, 8, 0x100, 1, 0x1, 0xFFFF, 0x0, 0x0, 0x0, 0x0, 0x0, 0, 1⟩,
  ⟨0x7807, 8, 0x100, 1, 0x1, 0xFFFF, 0x0, 0x0, 0x0, 0x0, 0x0, 0, 1⟩,
  ⟨0x7808, 8, 0x100, 1, 0x1, 0x0, 0x0, 0x0, 0x0, 0xFFFF, 0x0, 0, 1⟩,
  ⟨0x7809, 8, 0x100, 1, 0x1, 0x0, 0x8000, 0x0, 0x0, 0x401F, 0x0, 0, 1⟩,
  ⟨0x780A, 8, 0x100, 1, 0x1, 0x0, 0x0, 0x0, 0xFF, 0x0, 0x0, 0, 1⟩,
  ⟨0x7820, 8, 0x100, 16, 0x1, 0x0, 0xFFFF, 0x0, 0x0, 0x0, 0x0, 0, 1⟩,
  ⟨0x7840, 8, 0x100, 32, 0x1, 0x0, 0x0, 0x0, 0x0, 0xEFFF, 0x0, 0, 1⟩,
  ⟨0x8000, 1024, 0x20, 1, 0x1, 0x0, 0x0, 0xC0FF, 0x0, 0x0, 0x0, 0, 1⟩,
  ⟨0x8001, 1024, 0x20, 1, 0x1, 0x0, 0x0, 0xFFFF, 0x0, 0x0, 0x0, 0, 2⟩,
  ⟨0x8002, 1024, 0x20, 1, 0x1, 0x0, 0x0, 0x7FF, 0x0, 0x0, 0x0, 1, 2⟩,
  ⟨0x8003, 1024, 0x20, 1, 0x1, 0x0, 0x0, 0xFFFF, 0x0, 0x0, 0x0, 0, 2⟩,
  ⟨0x8004, 1024, 0x20, 1, 0x1, 0x0, 0x0, 0x7, 0x0, 0x0, 0x0, 1, 2⟩,
  ⟨0x8005, 1024, 0x20, 1, 0x1, 0x0, 0xF000, 0x0, 0x0, 0xE3F, 0x0, 0, 1⟩,
  ⟨0x8006, 1024, 0x20, 1, 0x1, 0x0, 0x0, 0x0, 0x0, 0xFFFF, 0x0, 0, 2⟩]
/-- The registers of the device-global space (R105), part 10. -/
def globalRows10 : List RegRow := [
  ⟨0x8007, 1024, 0x20, 1, 0x1, 0x0, 0x0, 0x0, 0x0, 0xFF, 0x0, 1, 2⟩,
  ⟨0x8008, 1024, 0x20, 1, 0x1, 0x0, 0x0, 0x0, 0x0, 0xFFFF, 0x0, 0, 1⟩,
  ⟨0x8009, 1024, 0x20, 1, 0x1, 0x0, 0x0, 0x0, 0x0, 0xFFFF, 0x0, 0, 1⟩,
  ⟨0x800A, 1024, 0x20, 1, 0x1, 0x0, 0x0, 0x0, 0x0, 0xFFFF, 0x0, 0, 1⟩,
  ⟨0x800B, 1024, 0x20, 1, 0x1, 0x0, 0x0, 0x0, 0x0, 0xFFFF, 0x0, 0, 1⟩,
  ⟨0x800C, 1024, 0x20, 1, 0x1, 0x0, 0x0, 0x0, 0x0, 0xFFFF, 0x0, 0, 1⟩,
  ⟨0x800D, 1024, 0x20, 1, 0x1, 0x0, 0x0, 0x0, 0xC000, 0x0, 0x0, 0, 1⟩,
  ⟨0x800E, 1024, 0x20, 1, 0x1, 0x0, 0x0, 0x0, 0x0, 0xFFFF, 0x0, 0, 2⟩,
  ⟨0x800F, 1024, 0x20, 1, 0x1, 0x0, 0x0, 0x0, 0x0, 0xFF, 0x0, 1, 2⟩,
  ⟨0x8010, 1024, 0x20, 8, 0x1, 0xFFFF, 0x0, 0x0, 0x0, 0x0, 0x0, 15, 8⟩]
/-- The registers of the device-global space (R105). -/
def globalRows : List RegRow := globalRows0 ++ globalRows1 ++ globalRows2 ++ globalRows3 ++ globalRows4 ++ globalRows5 ++ globalRows6 ++ globalRows7 ++ globalRows8 ++ globalRows9 ++ globalRows10
/-- The registers of the die-local space (R104), part 0. -/
def dieRows0 : List RegRow := [
  ⟨0x1000, 2, 0x1, 1, 0x1, 0xFFFF, 0x0, 0x0, 0x0, 0x0, 0x0, 0, 1⟩,
  ⟨0x1002, 2, 0x1, 1, 0x1, 0x0, 0xFFFF, 0x0, 0x0, 0x0, 0x0, 0, 1⟩,
  ⟨0x1004, 2, 0x1, 1, 0x1, 0x0, 0x0, 0x0, 0x0, 0xFFFF, 0x0, 0, 1⟩,
  ⟨0x1006, 1, 0x1, 1, 0x1, 0x0, 0x0, 0x0, 0x0, 0xFFFF, 0x0, 0, 1⟩,
  ⟨0x1100, 1, 0x1, 1, 0x1, 0x0, 0xC000, 0x0, 0x0, 0x0, 0x0, 0, 1⟩,
  ⟨0x1101, 1, 0x1, 1, 0x1, 0x0, 0x0, 0x0, 0x0, 0xFFFF, 0x0, 0, 1⟩,
  ⟨0x1102, 1, 0x1, 1, 0x1, 0x0, 0x0, 0x0, 0x0, 0xFFFF, 0x0, 0, 1⟩,
  ⟨0x1103, 1, 0x1, 1, 0x1, 0x0, 0x0, 0x0, 0x0, 0xFFFF, 0x0, 0, 2⟩,
  ⟨0x1104, 1, 0x1, 1, 0x1, 0x0, 0x0, 0x0, 0x0, 0x3, 0x0, 1, 2⟩,
  ⟨0x1105, 1, 0x1, 1, 0x1, 0x0, 0x0, 0x0, 0x0, 0xFFFF, 0x0, 0, 1⟩,
  ⟨0x1106, 1, 0x1, 1, 0x1, 0x0, 0x0, 0x0, 0x8000, 0x0, 0x0, 0, 1⟩,
  ⟨0x1200, 1, 0x1, 1, 0x1, 0xFFFF, 0x0, 0x0, 0x0, 0x0, 0x0, 0, 1⟩,
  ⟨0x1201, 1, 0x1, 1, 0x1, 0x3FF, 0x0, 0x0, 0x0, 0x0, 0x0, 0, 1⟩,
  ⟨0x1202, 1, 0x1, 1, 0x1, 0x0, 0x0, 0x0, 0x0, 0x7FF, 0x0, 0, 1⟩,
  ⟨0x1300, 1, 0x1, 1, 0x1, 0x0, 0xE000, 0x0, 0x0, 0x0, 0x0, 0, 1⟩,
  ⟨0x1301, 1, 0x1, 1, 0x1, 0x0, 0x0, 0x0, 0x0, 0x1FF, 0x0, 0, 1⟩,
  ⟨0x1302, 1, 0x1, 1, 0x1, 0x0, 0x0, 0x0, 0x0, 0x7FF, 0x0, 0, 1⟩,
  ⟨0x1303, 1, 0x1, 1, 0x1, 0x0, 0x0, 0x0, 0x0, 0xFF, 0x0, 0, 1⟩,
  ⟨0x1304, 1, 0x1, 1, 0x1, 0x0, 0x0, 0x0, 0x0, 0x1, 0x0, 0, 1⟩]
/-- The registers of the die-local space (R104). -/
def dieRows : List RegRow := dieRows0
/-- The registers of the clerk-local space (R103), part 0. -/
def clerkRows0 : List RegRow := [
  ⟨0x0, 1, 0x1, 1, 0x1, 0x0, 0x0, 0x0, 0x0, 0xFFFF, 0x0, 0, 1⟩,
  ⟨0x10, 1, 0x1, 1, 0x1, 0x0, 0x0, 0x0, 0x0, 0x7, 0x0, 0, 1⟩,
  ⟨0x20, 1, 0x1, 1, 0x1, 0x0, 0x0, 0x0, 0x0, 0x8FFF, 0x0, 0, 1⟩,
  ⟨0x21, 1, 0x1, 1, 0x1, 0x0, 0x0, 0x0, 0x0, 0x8FFF, 0x0, 0, 1⟩,
  ⟨0x22, 1, 0x1, 1, 0x1, 0xFFFF, 0x0, 0x0, 0x0, 0x0, 0x0, 0, 2⟩,
  ⟨0x23, 1, 0x1, 1, 0x1, 0xFFFF, 0x0, 0x0, 0x0, 0x0, 0x0, 1, 2⟩,
  ⟨0x24, 1, 0x1, 1, 0x1, 0x8000, 0x0, 0x0, 0x0, 0x0, 0x0, 0, 1⟩,
  ⟨0x25, 1, 0x1, 1, 0x1, 0x0, 0x0, 0x0, 0x1F, 0x0, 0x0, 0, 1⟩,
  ⟨0x40, 16, 0x8, 1, 0x1, 0x0, 0x0, 0x0, 0x0, 0xFFFF, 0x0, 0, 8⟩,
  ⟨0x41, 16, 0x8, 1, 0x1, 0x0, 0x0, 0x0, 0x0, 0xFFFF, 0x0, 1, 8⟩,
  ⟨0x42, 16, 0x8, 1, 0x1, 0x0, 0x0, 0x0, 0x0, 0xFFFF, 0x0, 2, 8⟩,
  ⟨0x43, 16, 0x8, 1, 0x1, 0x0, 0x0, 0x0, 0x0, 0x8007, 0x0, 3, 8⟩,
  ⟨0x44, 16, 0x8, 1, 0x1, 0x0, 0x0, 0x0, 0x0, 0xFFFF, 0x0, 4, 8⟩,
  ⟨0x45, 16, 0x8, 1, 0x1, 0x0, 0x0, 0x0, 0x0, 0xFFFF, 0x0, 5, 8⟩,
  ⟨0x46, 16, 0x8, 1, 0x1, 0x0, 0x0, 0x0, 0x0, 0xFF, 0x0, 6, 8⟩,
  ⟨0x47, 16, 0x8, 1, 0x1, 0x0, 0x0, 0x0, 0x0, 0xFFFF, 0x0, 7, 8⟩,
  ⟨0xC0, 1, 0x1, 1, 0x1, 0xB0FF, 0x0, 0x0, 0x4000, 0x0, 0x0, 0, 1⟩,
  ⟨0xC1, 1, 0x1, 1, 0x1, 0x0, 0xFF, 0x0, 0x0, 0x0, 0x0, 0, 1⟩,
  ⟨0xC2, 4, 0x1, 1, 0x1, 0x3F3F, 0x0, 0x0, 0x0, 0x0, 0x0, 0, 1⟩,
  ⟨0xC8, 8, 0x2, 1, 0x1, 0xFFFF, 0x0, 0x0, 0x0, 0x0, 0x0, 0, 2⟩,
  ⟨0xC9, 8, 0x2, 1, 0x1, 0xFFFF, 0x0, 0x0, 0x0, 0x0, 0x0, 1, 2⟩,
  ⟨0xD8, 1, 0x1, 1, 0x1, 0x0, 0x0, 0x0, 0x0, 0xFFFF, 0x0, 0, 3⟩,
  ⟨0xD9, 1, 0x1, 1, 0x1, 0x0, 0x0, 0x0, 0x0, 0xFFFF, 0x0, 1, 3⟩,
  ⟨0xDA, 1, 0x1, 1, 0x1, 0x0, 0x0, 0x0, 0x0, 0xFFFF, 0x0, 2, 3⟩,
  ⟨0xDB, 1, 0x1, 1, 0x1, 0x0, 0x0, 0x0, 0x0, 0xFFFF, 0x0, 0, 1⟩,
  ⟨0xE0, 1, 0x1, 1, 0x1, 0x0, 0x0, 0x0, 0x0, 0x8F3C, 0x0, 0, 1⟩,
  ⟨0xE1, 1, 0x1, 1, 0x1, 0x0, 0x8000, 0x0, 0x0, 0xF, 0x0, 0, 1⟩,
  ⟨0xE2, 1, 0x1, 1, 0x1, 0x0, 0x8000, 0x0, 0x0, 0x7F7F, 0x0, 0, 1⟩,
  ⟨0xE3, 1, 0x1, 1, 0x1, 0x0, 0x0, 0x0, 0x8000, 0x0, 0x0, 0, 1⟩,
  ⟨0xE4, 1, 0x1, 1, 0x1, 0x0, 0x0, 0x0, 0x0, 0x1FF, 0x0, 0, 1⟩,
  ⟨0xE5, 1, 0x1, 1, 0x1, 0x0, 0x0, 0x0, 0x0, 0x1F, 0x0, 0, 1⟩,
  ⟨0xE6, 1, 0x1, 1, 0x1, 0x0, 0x0, 0x0, 0x0, 0xFFFF, 0x0, 0, 1⟩,
  ⟨0xE7, 1, 0x1, 1, 0x1, 0x0, 0x0, 0x0, 0x0, 0xFFFF, 0x0, 0, 1⟩,
  ⟨0xE8, 4, 0x1, 1, 0x1, 0x0, 0x0, 0x0, 0x0, 0xFFFF, 0x0, 0, 1⟩,
  ⟨0xEC, 4, 0x1, 1, 0x1, 0x0, 0x0, 0x0, 0x0, 0xFF03, 0x0, 0, 1⟩,
  ⟨0xF0, 4, 0x4, 4, 0x1, 0x0, 0x0, 0x0, 0x0, 0xFFFF, 0x0, 15, 4⟩,
  ⟨0x100, 64, 0x10, 8, 0x1, 0x0, 0x0, 0x0, 0x0, 0xFFFF, 0x0, 0, 1⟩,
  ⟨0x108, 64, 0x10, 1, 0x1, 0x0, 0x0, 0xC3FF, 0x0, 0x0, 0x0, 0, 1⟩,
  ⟨0x109, 64, 0x10, 1, 0x1, 0x0, 0x0, 0x0, 0x0, 0xFFFF, 0x0, 0, 2⟩,
  ⟨0x10A, 64, 0x10, 1, 0x1, 0x0, 0x0, 0x0, 0x0, 0xFF, 0x0, 1, 2⟩,
  ⟨0x10B, 64, 0x10, 1, 0x1, 0x0, 0x0, 0x0, 0x0, 0xC000, 0x0, 0, 1⟩,
  ⟨0x500, 8, 0x4, 1, 0x1, 0x0, 0x0, 0xE01F, 0x0, 0x0, 0x0, 0, 1⟩,
  ⟨0x501, 8, 0x4, 1, 0x1, 0x0, 0x0, 0xFFFF, 0x0, 0x0, 0x0, 0, 2⟩,
  ⟨0x502, 8, 0x4, 1, 0x1, 0x0, 0x0, 0x3FF, 0x0, 0x0, 0x0, 1, 2⟩,
  ⟨0x520, 1, 0x1, 1, 0x1, 0x0, 0x0, 0x1F3F, 0x0, 0x0, 0x0, 0, 1⟩]
/-- The registers of the clerk-local space (R103), part 1. -/
def clerkRows1 : List RegRow := [
  ⟨0x521, 1, 0x1, 1, 0x1, 0x0, 0x0, 0xFFFF, 0x0, 0x0, 0x0, 0, 1⟩,
  ⟨0x522, 1, 0x1, 1, 0x1, 0x0, 0x0, 0xFFFF, 0x0, 0x0, 0x0, 0, 1⟩]
/-- The registers of the clerk-local space (R103). -/
def clerkRows : List RegRow := clerkRows0 ++ clerkRows1

/-- The registers whose reset column gives a value other than zero, as (key, value); every other register reads 0000h
after reset until something writes it or, where its reset is 'image', until a slice loads it (R7). -/
def resetList : List (Nat × Word) := [
  (0x4000, 0x9640),
  (0x4001, 0x0201),
  (0x4002, 0x0013),
  (0x4203, 0x8001),
  (0x420C, 0x03E8),
  (0x4311, 0x00FA),
  (0x6024, 0x00C8),
  (0x6424, 0x00C8)]

/-- Does the row give port `p`? -/
def RegRow.hits (r : RegRow) (p : Nat) : Bool :=
  decide (r.base ≤ p) && decide ((p - r.base) / r.s1 < r.n1) &&
    decide ((p - r.base) % r.s1 % r.s2 = 0) && decide ((p - r.base) % r.s1 / r.s2 < r.n2)

/-- The row of a key, in the space the key stands in. -/
def rowOf (key : Nat) : Option RegRow :=
  if key < 0x10000 then globalRows.find? (·.hits key)
  else if key < 0x100000 then dieRows.find? (·.hits (key % 0x10000))
  else if key < 0x200000 then clerkRows.find? (·.hits ((key - 0x100000) % 0x1000))
  else none

/-- Index of the word that port `p` is in the row's multi-word value (R3, R4). -/
def RegRow.word (r : RegRow) (p : Nat) : Nat :=
  if r.mwI = 15 then (if r.n2 = 1 then (p - r.base) / r.s1 else (p - r.base) % r.s1 / r.s2) % r.mwN else r.mwI

/-- The bits a plain write may change, by storing (RW) or by clearing (W1C). -/
def RegRow.apply (r : RegRow) (old v : Word) : Word :=
  let rw := BitVec.ofNat 16 r.rw
  let w1c := BitVec.ofNat 16 r.w1c
  ((old &&& ~~~rw) ||| (v &&& rw)) &&& ~~~(v &&& w1c)

/-- The bits an envelope entry or a configuration entry stores: CS and RW alike (R6, R440, R459). -/
def RegRow.load (r : RegRow) (old v : Word) : Word :=
  let m := BitVec.ofNat 16 (r.rw ||| r.cs)
  (old &&& ~~~m) ||| (v &&& m)

/-- The value the reset column of the spec gives the key (R7). -/
def resetValue (key : Nat) : Word := ((resetList.find? fun e => e.1 == key).map (·.2)).getD 0

end Sys2Proof.Machine
end

