-- ==== Sys2Proof/Machine/State.lean ====
section
/-!
DEFINITION. The state of the device: everything the spec gives it, as plain data, the reasons a step can stop, and the
state right after reset. INVENTORY.md lists each field with the rule that names it.
-/
namespace Sys2Proof.Machine

/-- Mode-changing write waiting for its shadow to end (R76, R78). -/
inductive ModeChange where
  | status (v : Word)     -- MODE, CLASS and LM of the value written to STATUS (R153)
  | lm (m : BitVec 2)     -- SETLM (R159)
  | ctx (v : BitVec 8)    -- MTS CTX (R153)
deriving DecidableEq, Repr

/-- A pending mode change and the instructions still to retire before it takes effect (R76). -/
structure Shadow where
  left : Nat
  change : ModeChange
deriving DecidableEq, Repr

/-- The hidden repeat counter while a prefixed instruction runs (R88, R117). -/
structure RepState where
  left : Nat              -- iterations still to run
  unint : Bool            -- REPU (R122)
  pfx : CodeAddr          -- address of the prefix, named by PREFIX (R118)
  started : Bool          -- an iteration has begun to take effect, or RETI has resumed the repetition
  issued : Bool           -- issued together with its prefix, whose token covers it (R59, R154)
  tooMany : Bool             -- REPU with a count above 16: PREFIX, after what R129 puts before it (R118)
deriving DecidableEq, Repr

/-- Why an instruction that has not completed waits. -/
inductive WaitKind where
  | token                 -- issue limiter empty (R59)
  | event                 -- WAIT (R161)
  | pop                   -- pop with nothing to deliver (R207)
  | push                  -- local push to a full mailbag (R205, R212)
  | journal               -- no journal room (R174)
  | held                  -- held-write queue full (R175)
  | peek                  -- side-effect read inside an epoch (R176)
  | window                -- window load issued (R71)
  | postage               -- no stamp left on the clerk's route (R443 to R445)
  | portReply             -- global read sent, reply awaited (R106)
  | codeQueue             -- PUTI on a full code-write queue (R81)
  | dsync                 -- DSYNC with writes outstanding (R99)
  | synci                 -- SYNCI with entries queued (R84)
  | codeLine              -- GETI waiting for a code line (R65, R146)
  | recall                -- RECALL retired, DISPATCH's answer awaited (R187)
  | buffer                -- window load that finds no free read-buffer entry (R71)
  | ddrStamp              -- window access that waits for a DDR stamp in its buffer entry (R445)
deriving DecidableEq, Repr

/-- The instruction that waits, and why. -/
structure Waiting where
  kind : WaitKind
  insn : Instr
deriving DecidableEq, Repr

/-- What a data address reaches: a word of a private store, of the shared store, of DDR5, or of another
clerk's private store (R96, R97). -/
inductive Target where
  | priv (a : Nat)
  | shared (d a : Nat)
  | ddr (a : Nat)
  | peer (c a : Nat)
deriving DecidableEq, Repr

/-- What a waited-for access came back with: whether each half is uncorrectable (R100, R109), and an error reply (R263). -/
structure Grant where
  bad0 : Bool
  bad1 : Bool
  ts : List (Target × Nat)        -- the parts a window load was issued to (R537)
  val : List Word                 -- their words, where they returned before the load was the oldest instruction (R71)
deriving DecidableEq, Repr

/-- An instruction in flight behind the oldest one, which has not retired (R58). Where it is a window load that has been issued,
the parts it was issued to stand in its read-buffer entry, with their data once returned (R71). -/
structure InFlight where
  insn : Instr
  ts : List (Target × Nat)
  grant : Option Grant
deriving DecidableEq, Repr

/-- One entry of the code-write queue: a code line of the code store with its mask of written words (R81). -/
structure CodeEntry where
  line : Nat
  words : Tbl Word
deriving DecidableEq, Repr

/-- A line of a group line cache: its code-store line number, its 16 words, and the group's line access that last fetched it,
none while it is only prefetched (R63, R64). -/
structure CacheLine where
  line : Nat
  words : List Word
  last : Option Nat
deriving DecidableEq, Repr

/-- The line cache of a clerk group (R63): lines by set, most recently used first, and the group's line accesses so far. -/
structure LineCache where
  sets : Tbl (List CacheLine)
  count : Nat
  ft : Tbl Nat                -- by clerk, the line that FT last delivered to it
deriving DecidableEq, Repr

/-- States of an epoch (R166). -/
inductive EpState where
  | free
  | isOpen
  | held
  | ending
deriving DecidableEq, Repr

/-- The checkpoint of an epoch (R171). -/
structure Checkpoint where
  w : Vector Word 16
  s : Vector Sheet 16
  a : Vector Acc 4
  status : Word
  rpt : Word
  isp : Word
  excCause : Word
  pc : CodeAddr
deriving DecidableEq, Repr

/-- The clerk's mirror of one epoch slot (R163, R165, R195). -/
structure EpSlot where
  state : EpState
  gen : Nat
  seq : Nat                       -- place in the clerk's order of opening (R164)
  lineage : Bool
  depth : Nat
  mark : Word × Word × Word × Word   -- settle postmark as given to EOPEN (R41)
  dReg : Reg4                     -- EOPEN's destination (R189)
  parent : Word                   -- parent's tag, for a lineage epoch (R165)
  chk : Option Checkpoint
  ending : Option (Bool × Nat)    -- the decision: settled, or the recall cause (R186)
deriving DecidableEq, Repr

/-- One entry of the undo journal: old contents of private-store words, or the mark of a pop (R174). -/
structure JEntry where
  tag : Word
  cells : List (Nat × Word)
deriving DecidableEq, Repr

/-- A held port write (R175). -/
structure HeldWrite where
  tag : Word
  sup : Bool                      -- was the clerk in SUPERVISOR when the write was accepted: its right is judged then
  port : Nat
  vals : List Word
deriving DecidableEq, Repr

/-- One BTB entry (R66). The spec does not say how an entry is matched to a branch; the model keeps the whole branch PC (log 29). -/
structure BtbEntry where
  pc : CodeAddr
  ctx : BitVec 8
  target : CodeAddr     -- stored xor-ed with KEY in bits 15:0 (R67)
  words : List Word     -- the first 2 words at the target, as they stood when the branch retired
deriving DecidableEq, Repr

/-- One direction counter (R67). -/
structure DirEntry where
  cnt : Nat
  tag : BitVec 8
deriving DecidableEq, Repr

/-- The branch predictor of a clerk (R66 to R69, R73). -/
structure Predictor where
  btb : Tbl (List BtbEntry)      -- by set, 0 to 15
  dir : Tbl DirEntry             -- by index, 0 to 1023; unlisted: 01b with tag 00h (R75)
  gh : BitVec 8
  rstack : List CodeAddr         -- newest first, at most 8 (R68)
  keys : List (Nat × Nat)        -- contexts held, most recently run first, with the number of the KEY's draw (R73)
  mispred : Option Bool          -- the last branch resolved against its prediction: direction (true) or target
deriving DecidableEq, Repr

/-- A recall that waits for the clerk: for RETI (R191), restart (R131, R496) or RESUME (R497). -/
structure DeferredRecall where
  tag : Word
  cause : Nat
deriving DecidableEq, Repr

/-- A clerk's architectural and hidden state (R88). -/
structure Clerk where
  w : Vector Word 16
  s : Vector Sheet 16
  a : Vector Acc 4
  pl : Word
  ph : Word
  spl : Sheet
  sph : Sheet
  mulPend : List (Nat × Word × Word)       -- outstanding scalar products: instructions to retire, PL, PH (R114)
  smulPend : List (Nat × Sheet × Sheet)    -- outstanding sheet products (R114)
  rpt : Word
  pc : CodeAddr
  status : Word
  isp : Word
  excCause : Word
  excPc : CodeAddr
  excVec : CodeAddr
  ctx : BitVec 8
  rep : Option RepState
  shadow : List Shadow                     -- pending mode changes, oldest first (R78)
  lastLoad : List Nat                      -- what the last instruction loaded from the private store: W r as r, S r as 16 + r (R70)
  tokens : Nat                             -- issue limiter bucket, in fifths of a token (R59)
  pred : Predictor
  codeQueue : List CodeEntry               -- oldest first, at most 8 (R81)
  codeDirty : List Nat                     -- lines written by the queue since the last SYNCI (R84)
  waiting : Option Waiting                 -- the oldest instruction in flight, where it cannot retire yet
  loadBuf : List (Target × Nat)            -- the parts that the waiting instruction's window load was issued to (R71, R537)
  window : List InFlight                   -- the younger instructions in flight, oldest first, at most 63 (R58)
  stray : Nat                              -- read-buffer entries of squashed loads whose data is still to return (R71)
  durs : List Nat                          -- duration events whose condition has held in this reference period (R87)
  grant : Option Grant
  entry : Option Nat                       -- source accepted whose first handler instruction is not yet fetched (R338)
  halted : Bool                            -- HALTED (R131)
  dbgHalt : Bool                           -- halted by debug access (R497)
  armed : Bool                             -- break-to-halt armed (R497)
  haltReq : Bool                           -- HALT awaits a boundary (R497)
  stepping : Bool                          -- STEP runs one instruction (R497)
  parked : Bool                            -- parked for sleep entry or held by its domain
  slots : Vector EpSlot 4
  epSeq : Nat                              -- epochs opened so far: the next order number (R164)
  susp : Bool                              -- EP_STAT.SUSP (R191)
  journal : List JEntry                    -- youngest first, at most 256 (R174)
  held : List HeldWrite                    -- oldest first, at most 16 (R175)
  deferred : Option DeferredRecall
deriving DecidableEq, Repr

/-- A sheet in a mailbag: the tag and depth of a draft's epoch (0 for an ordinary sheet), and how many of its stored
bits have flipped: 0 none, 1 one (correctable), 2 more (R210). -/
structure BagItem where
  data : Sheet
  tag : Word
  depth : Nat
  flips : Nat
deriving DecidableEq, Repr

/-- What the engine knows of one sheet of a spill block: its tag while it is a draft in the draft table, and whether a
recall has removed it (R212, R213). -/
structure SpillMark where
  tag : Word
  depth : Nat
  removed : Bool
  flips : Nat
deriving DecidableEq, Repr

/-- A spill block in DDR5, by its index in the mailbag's life (R200, R201). -/
structure SpillBlock where
  idx : Nat
  marks : List SpillMark
deriving DecidableEq, Repr

/-- A retained copy of a popped sheet, with the tag of the popping epoch (R177, R214). -/
structure Retained where
  item : BagItem
  popper : Word
deriving DecidableEq, Repr

/-- One mailbag (R198): lists run oldest first. -/
structure Bag where
  head : List BagItem
  tail : List BagItem
  spill : List SpillBlock
  nextBlock : Nat
  retained : List Retained
deriving DecidableEq, Repr

/-- One row of DISPATCH's epoch table (R165, R538). -/
structure EpRow where
  state : EpState
  gen : Nat
  seq : Nat
  lineage : Bool
  parent : Word
  axis : Nat
  mark : Pos
  met : Bool                     -- its own settle condition is met (R183)
  lastGen : Nat                  -- generation that last ended in the slot; 0 none
  lastSettled : Bool             -- its verdict
deriving DecidableEq, Repr

/-- Axis states (R33). -/
inductive AxState where
  | off
  | acquire
  | track
  | stopped
  | lost
deriving DecidableEq, Repr

/-- The master of one axis on DISPATCH (R25 to R40): what its registers do not hold. -/
structure Axis where
  state : AxState
  int : BitVec 32                -- counted integer
  base : BitVec 16               -- fraction the interpolation restarted from (R38), or the frozen fraction (R28)
  t0 : Nat                       -- tick of the last edge or SET
  fromSet : Bool                 -- interpolation restarted by a SET since the last edge (R38)
  back : Bool
  edges : List Nat               -- ticks of the edges since the entry to ACQUIRE, newest first (R535)
  same : Nat                     -- consecutive same-direction edges, or crosses of the current run (R30, R33)
  tpred : Nat                    -- 24 bits (R535)
  lastEdge : Nat                 -- tick of the last edge
  devSince : Bool                -- a deviation has been raised since the last edge (R35, R172)
  lateDone : Bool                -- LATE raised for the awaited edge
  va : Bool                      -- levels as this axis sees them, after its filter (R27)
  vb : Bool
  srcPos : Pos                   -- COPY: source position last followed (R31)
  rem : Nat                      -- COPY: carried remainder (R31)
  pos : Pos                      -- position as last followed (COPY) or frozen
  live : Word                    -- DEVCFG as the last edge took it up (R54)
  devAt : Nat                    -- tick of the last deviation
deriving DecidableEq, Repr

/-- A die's replica of one axis (R46 to R51). -/
structure Replica where
  pos : Pos
  state : Nat
  devSeq : Word
  tpred : Nat
  seq : Nat                      -- BSEQ last applied; none applied yet while `fresh`
  fresh : Bool                   -- no broadcast applied since reset (R50)
  stale : Bool
  run : Nat                      -- consecutive broadcasts applied while STALE
  lastUs : Nat                   -- REF microsecond of the last one applied
deriving DecidableEq, Repr

/-- An interrupt source's pending and moderation state (R327, R331). -/
structure IcuSrc where
  pend : Bool
  held : Nat
  first : Option Nat             -- REF microsecond of the first held event
  last : Option Nat              -- REF microsecond PEND was last set
deriving DecidableEq, Repr

/-- Camera states (R246, CAM_STAT.STATE). -/
inductive CamState where
  | off
  | absent
  | discover
  | ready
  | miswired
  | lost
  | fault
deriving DecidableEq, Repr

/-- A complete output line in the camera's share: its frame and line number, its sensor rows, the number of its first row,
the stream bytes it came in, and its REF stamp (R237, R241). -/
structure CamLine where
  frame : Nat
  no : Nat
  row0 : Nat
  rows : List (List Word)
  raw : List (BitVec 8)
  stamp : Pos
deriving DecidableEq, Repr

/-- What a frame's end reports: `first` and `lastLine` stamp its first and last line, `last` its last sample (R241, R244). -/
structure FrameInfo where
  no : Nat
  delivered : Nat
  dropped : Nat
  first : Pos
  lastLine : Pos
  last : Pos
  abort : Bool
  fmt : Word
deriving DecidableEq, Repr

/-- Work in line order: lines to frank, frame ends and state sheets (R226, R237). -/
inductive CamJob where
  | line (l : CamLine)
  | frameEnd (f : FrameInfo)
  | camState (st frame : Nat) (stamp : Pos)
deriving DecidableEq, Repr

/-- Traffic of a camera that waits for postage: region and event sheets, and frame-store bursts (R239, R243); `taken` stands
behind a line's last item and frees the line's place in the share (R237). -/
inductive CamItem where
  | sheet (route box : Nat) (x : Sheet)
  | burst (route addr : Nat) (ws : List Word)
  | taken
deriving DecidableEq, Repr

/-- A stream packet held back until those before it in tag order have come (R232, stage 1). -/
structure StreamPacket where
  cx : Nat
  tag : Nat
  crcOk : Bool
  part : StreamPart
deriving DecidableEq, Repr

/-- Where a camera's stream stands: no image yet, `at_` samples into an image whose header was good, or in an image dropped
by its header (R232, R238). -/
inductive ImagePlace where
  | none
  | inside (at_ : Nat)
  | dropped (at_ : Nat)
deriving DecidableEq, Repr

/-- A camera slot: what its registers do not hold. -/
structure Cam where
  state : CamState
  step : Nat                 -- discovery step 1 to 5 (R225)
  timer : Option Nat         -- tick of the next retry or rediscovery
  tag : Nat                  -- packet tag expected next
  ahead : List StreamPacket  -- packets of later tags, as they came (R232)
  image : ImagePlace
  active : Bool              -- frame in progress
  frame : Nat                -- frame number, 16 bits
  line : Nat                 -- output line being assembled, in its frame
  got : List Word            -- samples of the output line being assembled
  raw : List (BitVec 8)      -- stream bytes of the output line
  bad : Bool                 -- a part of the output line was lost (R238)
  stamp : Pos                -- REF stamp of its first sample
  delivered : Nat            -- lines of the frame complete so far
  dropped : Nat              -- lines of the frame dropped so far
  first : Option Pos         -- stamp of the frame's first line
  last : Pos                 -- stamp of the last sample taken
  fmt : Word                 -- CAM_FMT at the frame's start (R244)
  ls : Nat                   -- line stride, set at enable (R243)
  gap : Bool                 -- a line was dropped behind the last of `jobs` (R238)
  jobs : List (Bool × CamJob) -- work in line order; true where a line was dropped before it
  out : List CamItem
  written : Nat              -- lines of the frame written to the frame store
deriving DecidableEq, Repr

/-- The control channel of an intake die (R229): the tag and the writer's command in progress. -/
structure CcChan where
  tag : Nat
  wr : Bool
  start : Nat                -- tick from which CC_TOUT runs
deriving DecidableEq, Repr
/-- Die states on its die page (R274). -/
inductive DieState where
  | reset
  | train
  | exchange
  | inService
  | out
deriving DecidableEq, Repr

/-- What HUB and the die itself hold of a die beside its die page (R264, R265). -/
structure Die where
  state : DieState
  phase : Nat           -- bring-up step completed, 0 to 5 for B1 to B5 (R265)
  mode : Nat            -- device mode the die follows
  bepoch : Nat          -- agreed broadcast epoch
  imgId : Nat           -- IMAGE_ID of the slice it was configured from (R264)
  ver : Nat             -- slice version, as R453 compares versions
  cmin : Nat            -- the slice's COMPAT_MIN, likewise
  stepping : Word       -- silicon stepping, in the format of DEVICE_REV
  running : Bool        -- configured and out of reset: its clerks run (R90, R459)
  draining : Bool       -- drained for repair (R169, R465)
  ackPend : Bool        -- its MODE acknowledge is awaited (R19)
  bePend : Bool         -- its BEPOCH acknowledge is awaited (R267)
  refSkew : Pos         -- an intake die's REF stamp less AX15, until its bring-up aligns it (R236)
deriving DecidableEq, Repr

/-- A channel of a crossing that carries values (R268, R269): the phases of REQ and ACK differ while a value is held. -/
structure CrossChan where
  req : Bool
  ack : Bool
  hold : Option Word        -- value in the hold register, not acknowledged yet
  queue : List Word         -- pending register (at most one, STATUS) or queue (EVENT)
  seen : Option Word        -- the value the destination captured last
  source : Option Word      -- the value the source offered last
deriving DecidableEq, Repr

/-- A crossing between a clockless domain and a clocked island, with its channels of the three kinds (R268 to R273). -/
structure Crossing where
  status : CrossChan
  event : CrossChan
  toggle : Bool             -- a pulse's toggle is on its way (R270)
  count : Nat               -- the count that goes with it
  acc : Nat                 -- pulse accumulator, 0 to 15 (R270)
  pulses : Nat              -- pulses the far side has turned out
deriving DecidableEq, Repr

/-- A resource's fault window (R488). -/
structure FaultWin where
  start : Nat
  count : Nat
  lasting : Bool
deriving DecidableEq, Repr

/-- A postage meter's count for one route (R443). -/
structure Meter where
  used : Nat
  rndMax : Nat
  waited : Bool             -- an item of the route has waited in this round (R445)
deriving DecidableEq, Repr

/-- A global event's rate limit at its block (R330). -/
structure GlobalEv where
  sentUs : Option Nat
  held : Nat
  edge : Bool
deriving DecidableEq, Repr

/-- States of a firing channel (R285). -/
inductive ChanState where
  | off
  | waiting
  | active
  | safe
deriving DecidableEq, Repr

/-- A firing channel: what its registers do not hold (R285 to R293). -/
structure Chan where
  state : ChanState
  causes : Nat                 -- CH_STAT bits 9:4 as bits 5:0: MAINS, REFRESH, HOLD, SERVICE, DIEOUT, SAFEIN (R291)
  driving : Bool               -- the mode drives the output active now
  hasEntry : Bool              -- an entry has been released to it since EN was set
  refr : Nat                   -- round boundaries since its last released entry (R293)
  acc : Nat                    -- BURST: sigma-delta accumulator (R287)
  pwmNext : Option Nat         -- REF microsecond at which the next PWM period starts; none: align to AX15 (R288)
  endAt : Option Nat           -- tick at which the present PWM active time, PULSE or PHASE gate ends
  point : Option Nat           -- BURST, PHASE: index of the unit whose point of R287 (start − LEAD, or start + 0080h) passed last
  begun : Option (Nat × Bool)  -- BURST, PHASE: the unit in progress, and whether it began in TRACK (R289)
  govern : Option (Nat × Nat)  -- BURST, PHASE: a unit, and action word 0 in force at its point (R287)
  unit : Option Nat            -- BURST, PHASE: the last unit decided or half-cycle gated
  conduct : Bool               -- BURST: what was decided for it
deriving DecidableEq, Repr

/-- One entry of the outbox: the sheet, the tag it is judged by (0000h once committed), and whether it was already late
when it entered its list (R276, R279). -/
structure ObEntry where
  e : Sheet
  tag : Word
  late : Bool
deriving DecidableEq, Repr

/-- What the outbox knows of a spilled entry (R284): its tag, its axis, and whether an OB_PURGE named it. -/
structure ObSpilled where
  tag : Word
  axis : Nat
  purged : Bool
deriving DecidableEq, Repr

/-- A verdict row (R284). -/
structure Verdict where
  tag : Word
  settled : Bool
  count : Nat
deriving DecidableEq, Repr

/-- The outbox (R277 to R284). -/
structure Outbox where
  lists : Tbl (List ObEntry)        -- by 2 * axis + direction (R278)
  spill : List (List ObSpilled)     -- blocks in the ring, oldest first
  firstBlock : Nat                  -- ring index of the oldest block
  wbuf : List ObEntry               -- write buffer, at most 4 (R283)
  wbufAt : Nat                      -- tick its first entry arrived
  hold : Option Word                -- tag of an arrival that waits for room, which withholds credits (R277, R284)
  pushes : List Sheet               -- OB_PUSH entries written during the hold (R277)
  verdicts : List Verdict           -- oldest first, at most 1,024
deriving DecidableEq, Repr

/-- The firing engine beside its channels (R290 to R293). -/
structure FireEng where
  aLow : Bool                       -- SAFE_A_N as filtered reads low
  bLow : Bool
  diffAt : Option Nat               -- tick at which the inputs came to differ (R292)
  watching : Bool                   -- its configuration is complete (R291)
  rndMax : Nat                      -- refresh rounds: highest index seen (R44)
  gpioIn : BitVec 32                -- pad levels of the GPIO inputs
  hsafe : Bool                      -- ZP_STAT.HSAFE, common to all ports (R320)
  gate : Bool                       -- DISPATCH was declared out and is not re-admitted: HUB drives the gate (R290, R291)
deriving DecidableEq, Repr

/-- States of a Zegen address (R326). -/
inductive NodeState where
  | free
  | enrolling
  | enrolled
  | lost
  | fault
deriving DecidableEq, Repr

/-- A command in a node's queue (R308, R313): its SEQ, D0 without SEQ, D1 to D3, the entry of a FIRE, and whether the
mailbox queued it. -/
structure NodeCmd where
  seq : Nat
  d0 : Word
  d1 : Word
  d2 : Word
  d3 : Word
  entry : Option Sheet
deriving DecidableEq, Repr

/-- What the device holds of a Zegen address (R310, R313, R315). -/
structure ZNode where
  state : NodeState
  seq : Nat                         -- SEQ of the last command made
  queue : List NodeCmd              -- at most 4
  tries : Nat                       -- times the head has been sent without a valid answer
  miss : Nat                        -- consecutive rounds without a valid answer
  resp : Nat
  nodeSafe : Bool
  looped : Bool
  vendor : Word
  serialL : Word
  serialH : Word
  known : Bool                      -- vendor and serial are held
  wait : Nat                        -- rounds left for the first valid answer while ENROLLING (R314)
  wasLost : Bool                    -- ENROLLING from LOST
deriving DecidableEq, Repr

/-- A Zegen port (R303 to R326). -/
structure ZPort where
  nextDue : Option Nat              -- REF microsecond at which the next round falls due; none: align to AX15
  flight : Option Nat               -- tick at which J of the frame in flight left
  running : Bool                    -- rounds are on (EN was set)
  down : Bool
  resetLeft : Nat                   -- rounds still to carry RESET (R316)
  loops : List Nat                  -- last measured loop delays, newest first, at most 16 (R317)
  badRun : Nat                      -- frames lost or bad in a row (R324)
  offered : Option Nat              -- address offered in the frame in flight (N1)
  confirm : Option (Nat × Word × Word × Word)   -- confirm due in the next round (N3)
  lastOffer : Bool                  -- the previous round carried an offer
  frame : List Word                 -- words of the last frame sent, header to enrolment slot (R304)
  startUs : Nat                     -- AX15 integer at its start (R321)
deriving DecidableEq, Repr

/-- Where the device stands between OFF and running (R15, R371, R386, R475). -/
inductive Phase where
  | off                      -- PORST_N low, or VAON absent
  | starting (step : Nat)    -- start-up step J`step` is running
  | bootHold                 -- BOOTHOLD (R486)
  | awake
  | dormant
  | isSealed
  | waking (step : Nat)      -- wake step W`step` is running
deriving DecidableEq, Repr

/-- A level transition that is running on a sorting rail (R359). -/
structure PlRun where
  target : Nat
  start : Nat                -- tick of L3
deriving DecidableEq, Repr

/-- A sleep entry that is running (R371). -/
structure SleepRun where
  target : Nat               -- 1 SEALED, 2 DORMANT
  step : Nat                 -- 1 to 7
  start : Nat                -- tick at which D1 started
  fromMode : Nat
  time : Nat                 -- AON_TIME at the start of D1
  stop : Option (Bool × Nat × Nat)   -- what ends the entry, as first recorded: wake?, kind, index (R375)
  dropped : List Nat         -- domains that D4 dropped
deriving DecidableEq, Repr

/-- What a wake has recorded (R384). -/
structure WakeRun where
  fromSealed : Bool
  source : Nat
  detail : Nat
  seen : Nat                 -- SEEN as bits 11:7 of WAKE_RECORD0 stand
  lp : Bool
deriving DecidableEq, Repr
/-- A row of a DDR5 channel's row table (R403): where it lies, and its bursts marked uncorrectable (at most 4). -/
structure DdrRow where
  sub : Nat
  rank : Nat
  bg : Nat
  bank : Nat
  row : Nat
  marks : List Nat
deriving DecidableEq, Repr

/-- States of a pigeonhole (R419). -/
inductive HoleState where
  | free
  | idle
  | busy
  | done
  | releasing
deriving DecidableEq, Repr

/-- A pigeonhole (R418 to R424); its page lies in memory. -/
structure Hole where
  state : HoleState
  key : Nat                 -- 15 bits; 0 unowned
  tag : Word                -- tag in service
  lastTag : Word
  ltValid : Bool
  dup : Bool
  result : Nat              -- RESULT of the last completion
  start : Nat               -- tick at which the command was accepted
deriving DecidableEq, Repr

/-- One access that a host TLP, or a notice, is made of; each waits for postage on its own (R411 to R414, R445). -/
inductive HostAcc where
  | portWrite (p : Nat) (v : Word)
  | portRead (p : Nat)
  | boxRead (dw : Nat)                              -- MSI-X table, pending bits and the rest below 1_0000h
  | burstWrite (byte : Nat) (bs : List (Option (BitVec 8)))
  | burstRead (byte n : Nat)
  | complete                                        -- the completion of a read TLP ends here
  | notice (box : Nat) (x : Sheet)
deriving DecidableEq, Repr

/-- A part of the completions being gathered, in the order of the reads (R251, R411, R414). -/
inductive HostPart where
  | data (bs : List (BitVec 8)) (poison : Bool)
  | await (die : Nat)                               -- a port read whose reply has still to come from a die
  | last                                            -- the completion ends here
deriving DecidableEq, Repr

/-- A completion as the endpoint sends it: Unsupported Request, poisoned, and its bytes (R411 to R414). -/
structure HostCpl where
  ur : Bool
  poisoned : Bool
  bytes : List (BitVec 8)
deriving DecidableEq, Repr

/-- The endpoint (R409, R415, R425). -/
structure Pcie where
  perst : Bool              -- PERST_N is high
  lost : Bool               -- the link left L0 and has not returned
  l1 : Bool                 -- the link is in L1
  d3 : Bool                 -- power state D3hot, which blocks BAR access (R409)
  poisoned : Bool           -- Advanced Error Reporting has logged a poisoned TLP (R411)
  bme : Bool
  msixEn : Bool
  fmask : Bool              -- MSI-X function mask
  mps256 : Bool             -- Max_Payload_Size is 256 bytes, else 128
  speed : Nat
  width : Nat
  pend : List Nat           -- vectors whose pending bit is set
  tab : Tbl (BitVec 32)     -- MSI-X table DWORDs written; unlisted: all vectors masked
  sent : Option Nat         -- vector of the last message sent
  xfLast : Nat              -- transfer channel served last
deriving DecidableEq, Repr

/-- One entry of an envelope: scope, die and clerk; port; data (R436). -/
structure EnvEntry where
  sel : Word
  port : Word
  data : Word
deriving DecidableEq, Repr

/-- States of the envelope (R435). -/
inductive EnvState where
  | idle
  | staging
  | sealedFor
  | applying
deriving DecidableEq, Repr

/-- The envelope (R435 to R441): the author's requester number, the entries staged, the seal (`code`), the tick of OPEN and the window
in milliseconds that began there, the nonces last used (newest first, at most 16), and the draws made. -/
structure Envelope where
  state : EnvState
  author : Nat
  entries : List EnvEntry
  code : Nat
  start : Nat
  window : Nat
  used : List Nat
  draws : Nat
deriving DecidableEq, Repr
/-- A host-boot load in progress (R456, R477): words taken so far, whether the final piece has come, and whether the loader
waits for a new image after a refusal. -/
structure HostLoad where
  got : Nat
  last : Bool
  err : Bool
deriving DecidableEq, Repr

/-- A repair that is running beside IMG_RPSTAT (R465): the mode it started from, the tick of its step, whether it uses the
staged bank, and the MOVE entries still to perform. -/
structure RepairRun where
  fromMode : Nat
  at_ : Nat
  staged : Bool
  wasOut : Bool
  listed : Bool             -- K4: the OUT list has been applied, at `at_`
deriving DecidableEq, Repr

/-- The TAP (R497): the instruction register, the boundary register by pad (0 to 63 FIRE, 64 to 95 GPIO), what the last scan
captured, and the last DBG_CMD's result. -/
structure Tap where
  ir : Nat
  boundary : Tbl Bool
  captured : Tbl (Option Bool)
  idcode : Option (BitVec 32)
  done : Bool
  err : Bool
  data : Word
deriving DecidableEq, Repr

/-- Something in flight inside the package: a parcel, or a cause on its way to the unit that acts on it. The row that
stands for its arrival consumes the oldest one that matches (log 8). -/
inductive Msg where
  | registration (tag : Word) (mark : Pos) (axis : Nat) (devSeq : Word)      -- R170
  | lineage (tag parent : Word)                                             -- R180
  | recallReq (tag : Word)                                                  -- R187
  | recallHalt (c : Nat)                                                    -- R131
  | recallDie (d : Nat)                                                     -- R194: die out or reset
  | recallDrain (d : Nat)                                                   -- R186, R465
  | settleMbe (d : Nat) (tag : Word)                                        -- R185
  | recallMbe (d : Nat) (tags : List Word)                                  -- R193
  | settleClerk (tag : Word)                                                -- R185
  | recallClerk (c : Nat) (tag : Word) (cause : Nat)                        -- R193: the oldest recalled epoch of the clerk
  | recallAnswer (c : Nat)                                                  -- R187: RECALL of an epoch already decided
  | entry (who : Nat) (e : Sheet)                                                    -- R157, R276: outbox entry
  | push (src box : Nat) (item : BagItem)                                   -- R203: from die src, or from clerk src − 8
  | localEv (d src n : Nat)                                                 -- R328
  | globalEv (d g n : Nat) (edge : Bool)                                    -- R330
  | bcast (d axis : Nat) (lanes : Sheet)                                    -- R46
  | bepoch (d : Nat) (e : Nat)                                              -- R267
  | modeAck (d : Nat)                                                       -- R19
  | dead (cause die : Nat) (w : List Word)                                  -- R490: a drop on its way to the office
  | fwEvent (cls idx : Nat)                                                 -- R488: an event of a fault window
  | portReply (who die : Nat) (vals : List Word) (err : Bool)               -- R251, R263: a die's reply to a global read
  | ppr (slot : Nat)                                                        -- R404: a LASTING row, 64 * channel + place
deriving DecidableEq, Repr

/-- A parcel in the fabric: its virtual channel, the links it still crosses, and the link whose receive buffer it stands in, none
at the die that sent it (R252). -/
structure Transit where
  vc : Nat
  res : Bool                -- its route is a reserve route (R446)
  path : List Nat
  via : Option Nat
  msg : Msg
deriving DecidableEq, Repr

/-- Link states (R274). -/
inductive LinkState where
  | down
  | train
  | exchange
  | up
  | quarantine
  | fault
deriving DecidableEq, Repr

/-- One direction of a link: the sender's and the receiver's sequence numbers, the sender's replay buffer, and how often each
virtual channel has been passed over (R253, R257, R258). -/
structure LinkDir where
  nextTx : Nat          -- LSEQ of the next new frame
  acked : Nat           -- LSEQ of the oldest frame not acknowledged
  expect : Nat          -- LSEQ the receiver expects
  naks : Nat            -- times in a row the same LSEQ has been NAKed (R259)
  ackAt : Nat           -- tick at which the acknowledgement last advanced
  nak : Bool            -- a NAK is on its way to the sender (R258)
  sent : List (Nat × Transit)   -- replay buffer: frames not acknowledged, by LSEQ, oldest first, at most 64
  passed : List Nat     -- grants in a row that each VC stood ready for and did not get
deriving DecidableEq, Repr

/-- A fabric link (R257 to R266): direction `ab` runs from end A to end B. -/
structure Link where
  state : LinkState
  ab : LinkDir
  ba : LinkDir
  fails : Nat           -- retrains in a row that did not return the link to UP (R259)
  tries : Nat           -- exchanges repeated after a transient mismatch (R266)
  retrain : Bool        -- in TRAIN by a retrain, which keeps sequence numbers, not by a bring-up (R259)
  retryAt : Option Nat  -- tick before which a transient mismatch is not exchanged again (R266)
  again : Bool          -- in QUARANTINE, and an end has been reset since: a new exchange may end it (R266)
  holdFrom : Option Nat -- REF microsecond from which VC3 has waited for credit (R274)
  holdNext : Nat        -- first REF microsecond that FL_HOLD has not counted
deriving DecidableEq, Repr

/-- The whole device. -/
structure State where
  pending : List Instr           -- commands waiting, first in first out
  now : Nat                      -- 5 ns ticks of the reference since PORST_N was released
  regs : Tbl Word                -- registers written since reset, by key (Regs.lean)
  snaps : Tbl Word               -- snapshots of R3, by reader and key
  stage : Tbl Word               -- staged words of R4, by writer and key
  sels : Tbl Word                -- selector registers, by requester and key (R345)
  mem : Mem                      -- every RAM (Ops.lean names the keys)
  msgs : List Msg                -- in flight, oldest first
  clerks : Tbl Clerk
  lineCaches : Tbl LineCache     -- by 8 * die + group (R63)
  axes : Tbl Axis
  replicas : Tbl Replica         -- by 16 * die + axis
  epochs : Tbl EpRow             -- by 4 * clerk + slot
  bags : Tbl Bag                 -- by mailbag number
  arrivals : Tbl (List (Nat × BagItem))   -- by die: the engine's arrival buffer (R204)
  icu : Tbl IcuSrc               -- by 256 * die + source
  free : Nat                     -- free values taken so far (the model's own field)
  modeAt : Option Nat            -- tick of the mode change whose acknowledgements are awaited (R19)
  fbPend : List (Nat × Bool)     -- fallback lists that HUB is to apply: die, and OUT (true) or BACK (R462, R464)
  bcLast : Option Nat            -- REF microsecond of the last broadcast sample (R46)
  bePause : Option Nat           -- tick of the broadcast epoch announcement that broadcasts wait for (R267)
  cams : Tbl Cam                 -- by 16 * intake die + slot
  cxSignal : Tbl Bool            -- does a connection carry signal, by 20 * intake die + connection
  ccChans : Tbl CcChan           -- by intake die
  rgGap : Tbl Bool               -- a line was dropped since the region's previous LINE sheet, by 64 * intake die + region
  links : Tbl Link               -- FL0 to FL18
  routers : Tbl (List Transit)   -- by die: parcels that stand at it, in order of arrival (R252)
  dies : Tbl Die
  crossings : Tbl Crossing       -- by 32 * die + index (R273)
  routes : Tbl Nat               -- link on which a die sends parcels for another, by 8 * die + destination (R11, R451)
  faultWins : Tbl FaultWin       -- by 65536 * class + log index (R488)
  deadCaps : List (List Word)    -- captured dead letters, oldest first, at most 8 (R491)
  faultLog : Tbl (List Word)     -- AON fault log ring, by index 0 to 63 (R492)
  logCount : Nat                 -- records written (R492)
  aonTime : Nat                  -- AON_TIME, 48 bits, in AON timer units (R388)
  meters : Tbl Meter             -- by 512 * die + 2 * route + class (0 fabric, 1 DDR)
  served : Tbl Nat               -- by the same key: the waiting requester that the meter served last (R445)
  globalEvs : Tbl GlobalEv       -- by global event number
  chans : Tbl Chan               -- by channel 0 to 63
  outbox : Outbox
  fe : FireEng
  zports : Tbl ZPort             -- by port 0 to 7
  znodes : Tbl ZNode             -- by 64 * port + address
  padHold : Nat                  -- pad banks held since sleep: bit 0 VIO1, bit 1 VIO2, bit 2 VIO3 (R382, R388)
  phase : Phase
  vaon : Bool                    -- VAON present
  plRuns : Tbl PlRun             -- by sorting rail 0 to 3
  holdOff : Tbl Nat              -- domains in their hold-off, with the REF microsecond it began (R351)
  sleep : Option SleepRun
  wake : Option WakeRun
  savedAxes : Tbl Pos            -- hold cells of R370, by axis
  savedAon : Nat                 -- AON time in the hold cells
  savedLevels : Tbl Nat          -- rail levels at entry (R386, W3)
  bankSigs : Tbl Nat             -- shared-store bank signatures (R378), by 32 * (die - 3) + bank
  encWake : Tbl Nat              -- transitions since the start of D1, by encoder (R383)
  gpioWake : BitVec 32           -- GPIO pin levels as the wake logic sees them
  strapBoot : Nat                -- BOOTSEL as latched (R474)
  strapSmb : Nat                 -- SMB_ADDR as latched
  polled : Tbl Nat               -- tick of a PMBus rail's last poll (R363)
  pmbCmd : Tbl (Nat × Word)      -- the last command code and data written to a PMBus rail (R362)
  encPins : Tbl (Bool × Bool)    -- encoder pin levels A and B, as the wake logic saw them last
  ticks : Nat                    -- 5 ns ticks since VAON was applied, by which the AON timer runs (R385)
  savedBags : Tbl (Nat × Nat)    -- head sheets and blocks that step D2 saved, by mailbag (R219)
  ddrRows : Tbl DdrRow           -- by 64 * channel + table place (R403)
  ddrBad : List Nat              -- bursts that read as uncorrectable, by M: burst number (R400, R404)
  scrubAt : Tbl Nat              -- by channel: the burst that patrol scrub reads next (R402)
  holes : Tbl Hole               -- by pigeonhole 0 to 63
  pcie : Pcie
  hostQ : List HostAcc           -- host accesses that have not been performed, in order
  hostOut : List HostPart        -- parts of the completions of the reads in progress
  hostCpl : Option HostCpl       -- the last completion sent
  envelope : Envelope
  otpArb : Nat                   -- blown fuses of the anti-rollback count (R454)
  hostLoad : HostLoad
  hostBoot : Bool                -- start-up takes the image from the host (R474)
  fromFlash : Bool               -- the image in use was loaded from flash (R458)
  repair : Option RepairRun
  moves : List (Nat × Nat × Nat) -- MOVE entries to perform: source, destination, tick of their list's start (R463)
  digest : List Word             -- the service digest, 128 words (R494)
  digestMs : Nat                 -- REF millisecond of its last update
  smbReply : List Word           -- digest words of the SMBus transaction in progress (R494)
  pads : Tbl Word                -- pad setting words of the PADS section, by pad index (R507)
  heldFire : Tbl (Option Bool)   -- levels of the firing pads as step D5 latched them (R381)
  heldGpio : Tbl (Option Bool)   -- likewise of the GPIO outputs
  heldZl : BitVec 8              -- likewise of ZL0_DE to ZL7_DE
  tap : Tap
deriving DecidableEq, Repr

/-- Why the device stops with a fault. No command of this device stops it with a fault: every condition the spec
describes has an effect (an exception, a dead letter, an error flag, a refused write), so the type has no value. -/
inductive Fault where
deriving DecidableEq, Repr

/-- Why the model refuses a command. -/
inductive Refusal where
  /-- The command has no meaning yet. Raised by its arm of exec; safe, since nothing is claimed of it. -/
  | notModelled (mnemonic : String)
deriving DecidableEq, Repr

/-- An unused epoch slot. -/
def EpSlot.reset : EpSlot :=
  { state := .free, gen := 0, seq := 0, lineage := false, depth := 0, mark := (0, 0, 0, 0), dReg := 0, parent := 0,
    chk := none, ending := none }

/-- An empty predictor: every counter 01b with tag 00h, no target, no return address (R75). -/
def Predictor.reset : Predictor :=
  { btb := [], dir := [], gh := 0, rstack := [], keys := [(0, 0)], mispred := none }

/-- A clerk after a reset of its die (R90): STATUS 600Fh, vector base I:0_0040h, everything else zero; the bucket of the
issue limiter is full (R59). -/
def Clerk.reset : Clerk :=
  { w := Vector.replicate 16 0, s := Vector.replicate 16 Sheet.zero, a := Vector.replicate 4 Acc.zero,
    pl := 0, ph := 0, spl := Sheet.zero, sph := Sheet.zero, mulPend := [], smulPend := [], rpt := 0, pc := 0,
    status := 0x600F, isp := 0, excCause := 0, excPc := 0, excVec := 0x40, ctx := 0, rep := none, shadow := [],
    lastLoad := [], tokens := 320, pred := Predictor.reset, codeQueue := [], codeDirty := [], waiting := none, loadBuf := [],
    window := [], stray := 0, durs := [], grant := none, entry := none, halted := false, dbgHalt := false, armed := false, haltReq := false, stepping := false, parked := false,
    slots := Vector.replicate 4 EpSlot.reset, epSeq := 0, susp := false, journal := [], held := [], deferred := none }

/-- An empty line cache. -/
def LineCache.reset : LineCache := { sets := [], count := 0, ft := [] }

/-- An empty mailbag. -/
def Bag.reset : Bag :=
  { head := [], tail := [], spill := [], nextBlock := 0, retained := [] }

/-- An epoch table row after reset: FREE, nothing ended yet (R538). -/
def EpRow.reset : EpRow :=
  { state := .free, gen := 0, seq := 0, lineage := false, parent := 0, axis := 0, mark := 0, met := false, lastGen := 0,
    lastSettled := false }

/-- An axis master after reset: OFF at position 0 (R25, R535). -/
def Axis.reset : Axis :=
  { state := .off, int := 0, base := 0, t0 := 0, fromSet := false, back := false, edges := [], same := 0, tpred := 0,
    lastEdge := 0, devSince := false, lateDone := false, va := false, vb := false, srcPos := 0, rem := 0,
    pos := 0, live := 0, devAt := 0 }

/-- A replica that has applied no broadcast: STALE with every value 0 and STATE OFF (R50). -/
def Replica.reset : Replica :=
  { pos := 0, state := 0, devSeq := 0, tpred := 0, seq := 0, fresh := true, stale := true, run := 0, lastUs := 0 }

/-- An interrupt source after reset: nothing pending, nothing held (R347). -/
def IcuSrc.reset : IcuSrc := { pend := false, held := 0, first := none, last := none }

/-- A camera slot that is OFF. -/
def Cam.reset : Cam :=
  { state := .off, step := 0, timer := none, tag := 0, ahead := [], image := .none, active := false, frame := 0, line := 0,
    got := [], raw := [], bad := false, stamp := 0, delivered := 0, dropped := 0, first := none, last := 0, fmt := 0, ls := 0,
    gap := false, jobs := [], out := [], written := 0 }
/-- A control channel with no command made. -/
def CcChan.reset : CcChan := { tag := 0, wr := false, start := 0 }
/-- A direction with nothing sent. -/
def LinkDir.reset : LinkDir :=
  { nextTx := 0, acked := 0, expect := 0, naks := 0, ackAt := 0, nak := false, sent := [], passed := [0, 0, 0, 0] }
/-- A link that is DOWN. -/
def Link.reset : Link :=
  { state := .down, ab := .reset, ba := .reset, fails := 0, tries := 0, retrain := false, retryAt := none, again := false,
    holdFrom := none, holdNext := 0 }
/-- A die in reset. -/
def Die.reset : Die :=
  { state := .reset, phase := 0, mode := 3, bepoch := 0, imgId := 0, ver := 0, cmin := 0, stepping := 0x0201,
    running := false, draining := false, ackPend := false, bePend := false, refSkew := 0 }
/-- A channel at zero phase. -/
def CrossChan.reset : CrossChan := { req := false, ack := false, hold := none, queue := [], seen := none, source := none }
/-- A crossing at zero phase. -/
def Crossing.reset : Crossing := { status := .reset, event := .reset, toggle := false, count := 0, acc := 0, pulses := 0 }
/-- A window with no event. -/
def FaultWin.reset : FaultWin := { start := 0, count := 0, lasting := false }
/-- A meter with no stamp used. -/
def Meter.reset : Meter := { used := 0, rndMax := 0, waited := false }
/-- No event sent or held. -/
def GlobalEv.reset : GlobalEv := { sentUs := none, held := 0, edge := false }
/-- A channel that is OFF. -/
def Chan.reset : Chan :=
  { state := .off, causes := 0, driving := false, hasEntry := false, refr := 0, acc := 0, pwmNext := none, endAt := none,
    point := none, begun := none, govern := none, unit := none, conduct := false }
/-- An outbox with no entry. -/
def Outbox.reset : Outbox :=
  { lists := [], spill := [], firstBlock := 0, wbuf := [], wbufAt := 0, hold := none, pushes := [], verdicts := [] }
/-- The firing engine before its configuration: both safe inputs high. -/
def FireEng.reset : FireEng :=
  { aLow := false, bLow := false, diffAt := none, watching := false, rndMax := 0, gpioIn := 0, hsafe := false, gate := false }
/-- A FREE address. -/
def ZNode.reset : ZNode :=
  { state := .free, seq := 0, queue := [], tries := 0, miss := 0, resp := 0, nodeSafe := false, looped := false, vendor := 0,
    serialL := 0, serialH := 0, known := false, wait := 0, wasLost := false }
/-- A port that is OFF. -/
def ZPort.reset : ZPort :=
  { nextDue := none, flight := none, running := false, down := false, resetLeft := 0, loops := [], badRun := 0,
    offered := none, confirm := none, lastOffer := false, frame := [], startUs := 0 }
/-- A pigeonhole that is FREE. -/
def Hole.reset : Hole :=
  { state := .free, key := 0, tag := 0, lastTag := 0, ltValid := false, dup := false, result := 0, start := 0 }
/-- An endpoint in fundamental reset, with PERST_N low (log 21). -/
def Pcie.reset : Pcie :=
  { perst := false, lost := false, l1 := false, d3 := false, poisoned := false, bme := false, msixEn := false, fmask := false, mps256 := false, speed := 0, width := 0,
    pend := [], tab := [], sent := none, xfLast := 31 }
/-- No envelope. -/
def Envelope.reset : Envelope :=
  { state := .idle, author := 0, entries := [], code := 0, start := 0, window := 0, used := [], draws := 0 }
/-- The TAP held in reset by its pulls: IDCODE selected (PRESUMED, the family's IEEE 1149.1 reset; log 34). -/
def Tap.reset : Tap :=
  { ir := 1, boundary := [], captured := [], idcode := none, done := false, err := false, data := 0 }
/-- The device right after PORST_N is released. -/
def State.reset : State :=
  { pending := [], now := 0, regs := [], snaps := [], stage := [], sels := [], mem := [], msgs := [],
    clerks := [], lineCaches := [], axes := [], replicas := [], epochs := [], bags := [], arrivals := [], icu := [], free := 0,
    modeAt := none, fbPend := [],
    bcLast := none, bePause := none,
    cams := [], cxSignal := [], ccChans := [], rgGap := [],
    links := [], routers := [], dies := [], crossings := [], routes := [], faultWins := [], deadCaps := [], faultLog := [],
    logCount := 0, aonTime := 0, meters := [], served := [], globalEvs := [],
    chans := [], outbox := .reset, fe := .reset, zports := [], znodes := [],
    padHold := 0,
    phase := .starting 1, vaon := true, plRuns := [], holdOff := [], sleep := none, wake := none, savedAxes := [],
    savedAon := 0, savedLevels := [], bankSigs := [], encWake := [], gpioWake := 0, strapBoot := 0, strapSmb := 0,
    polled := [], pmbCmd := [],
    encPins := [],
    ticks := 0, savedBags := [],
    ddrRows := [], ddrBad := [], scrubAt := [],
    holes := [], pcie := .reset, hostQ := [], hostOut := [], hostCpl := none,
    envelope := .reset,
    otpArb := 0, hostLoad := { got := 0, last := false, err := false }, hostBoot := false, fromFlash := false, repair := none, moves := [],
    digest := List.replicate 128 0, digestMs := 0, smbReply := [],
    pads := [], heldFire := [], heldGpio := [], heldZl := 0,
    tap := .reset }

end Sys2Proof.Machine
end

