-- ==== Sys2Proof/Machine/Basic.lean ====
section
/-!
DEFINITION. The plainest operations over State: registers and their counters, staging, memory keys, clerks, time, messages in
flight and dies, with the numbers that tags and mailbags are written in. Each follows the rule its docstring names.
-/
namespace Sys2Proof

/-! ## Sheets -/

/-- Lane `k` of a sheet (R107). -/
def Sheet.lane (x : Sheet) : Nat → Word
  | 0 => x.l0 | 1 => x.l1 | 2 => x.l2 | 3 => x.l3 | 4 => x.l4 | 5 => x.l5 | 6 => x.l6 | _ => x.l7
/-- The sheet whose lane `k` is `f k`. -/
def Sheet.gen (f : Nat → Word) : Sheet := ⟨f 0, f 1, f 2, f 3, f 4, f 5, f 6, f 7⟩
/-- The lanes in order. -/
def Sheet.toList (x : Sheet) : List Word := [x.l0, x.l1, x.l2, x.l3, x.l4, x.l5, x.l6, x.l7]
/-- A sheet from a list of words; lanes beyond the list are 0000h. -/
def Sheet.ofList (l : List Word) : Sheet := Sheet.gen fun k => l.getD k 0

end Sys2Proof

namespace Sys2Proof.Machine

/-! ## Bits of words -/

/-- Field of `n` bits of `w` from bit `lo`, as a number. -/
def field (w : Word) (lo n : Nat) : Nat := w.toNat / 2 ^ lo % 2 ^ n
/-- The word with `v` in the field of `n` bits from bit `lo`. -/
def putField (w : Word) (lo n v : Nat) : Word :=
  BitVec.ofNat 16 (w.toNat - field w lo n * 2 ^ lo + v % 2 ^ n * 2 ^ lo)
/-- Bit `i` of `w`. -/
def bit (w : Word) (i : Nat) : Bool := w.getLsbD i
/-- A word from a number, modulo 2^16. -/
def word (n : Nat) : Word := BitVec.ofNat 16 n
/-- A Bool as the bit at place `i`. -/
def flag (b : Bool) (i : Nat) : Nat := if b then 2 ^ i else 0
/-- Word `i` of a multi-word number, low word first (R3). -/
def wordOf (n i : Nat) : Word := BitVec.ofNat 16 (n / 2 ^ (16 * i))

/-! ## Registers -/

/-- A register's stored value: what was last written, by firmware or from the structure image, else its reset value (R7). -/
def State.reg (s : State) (k : Nat) : Word :=
  s.regs.getD k (resetValue k)

/-- The state with `v` stored in register `k`. -/
def State.setReg (s : State) (k : Nat) (v : Word) : State := { s with regs := s.regs.set k v }
/-- The state with register `k` changed by `f`. -/
def State.modReg (s : State) (k : Nat) (f : Word → Word) : State := s.setReg k (f (s.reg k))
/-- Sets the bits of mask `m` in register `k`. -/
def State.setBits (s : State) (k : Nat) (m : Word) : State := s.modReg k (· ||| m)
/-- Clears the bits of mask `m` in register `k` (the W1C act of R6). -/
def State.clrBits (s : State) (k : Nat) (m : Word) : State := s.modReg k (· &&& ~~~m)
/-- A counter that adds `n` and saturates at FFFFh. -/
def satAdd (w : Word) (n : Nat) : Word := if w.toNat + n ≥ 0xFFFF then 0xFFFF else word (w.toNat + n)
/-- Adds `n` to a saturating counter. -/
def State.bumpBy (s : State) (k n : Nat) : State := s.modReg k (satAdd · n)
/-- Adds 1 to a saturating counter. -/
def State.bump (s : State) (k : Nat) : State := s.bumpBy k 1
/-- Adds `n` to a wrapping counter of one word. -/
def State.bumpWrap (s : State) (k n : Nat) : State := s.modReg k (· + word n)
/-- Value of a register pair, low word first (R3). -/
def State.reg2 (s : State) (lo hi : Nat) : Nat := (s.reg lo).toNat + 0x10000 * (s.reg hi).toNat
/-- Stores a number in a register pair. -/
def State.setReg2 (s : State) (lo hi n : Nat) : State := (s.setReg lo (wordOf n 0)).setReg hi (wordOf n 1)
/-- Adds `n` to a wrapping 32-bit counter. -/
def State.bump2 (s : State) (lo hi n : Nat) : State := s.setReg2 lo hi ((s.reg2 lo hi + n) % 2 ^ 32)
/-- Writes 0 to every register of the list (a CLRCNT, R6). -/
def State.zeroRegs (s : State) (ks : List Nat) : State := ks.foldl (fun t k => t.setReg k 0) s

/-- The bits of a register key that keep their value through everything but PORST_N (R6). -/
def stickyMask (k : Nat) : Word :=
  match rowOf k with
  | some r => BitVec.ofNat 16 r.stky
  | none => if 0x500000 ≤ k ∧ k < 0x500800 ∧ k % 8 = 0 then 0x8000 else 0
/-- Registers that `lost` names return to their reset values but for their sticky bits (R6, R7). -/
def State.loseRegs (s : State) (lost : Nat → Bool) : State :=
  { s with
    regs := s.regs.filterMap fun e =>
      if !(lost e.1) then some e
      else (let v := e.2 &&& stickyMask e.1
            if v = 0 then none else some (e.1, v)) }

/-! ## Staging and snapshots (R3, R4) -/

/-- Key of requester `who`'s staged word or snapshot for register `k`. -/
def ownKey (who k : Nat) : Nat := who * 2 ^ 32 + k
/-- The word that `who` has staged for register `k`; `d` where it has staged none. -/
def State.staged (s : State) (who k : Nat) (d : Word) : Word := s.stage.getD (ownKey who k) d
/-- Stages a word. -/
def State.putStage (s : State) (who k : Nat) (v : Word) : State := { s with stage := s.stage.set (ownKey who k) v }
/-- Empties `who`'s staging of registers `k` to `k + n - 1`. -/
def State.clearStage (s : State) (who k n : Nat) : State :=
  { s with stage := s.stage.drop fun e => decide (ownKey who k ≤ e) && decide (e < ownKey who k + n) }

/-- Key of register `r` of route `rt` (the RT_ registers behind PST_SEL, R448); `r` is the port's offset 3 to 12. -/
def routeKey (rt r : Nat) : Nat := 0x300000 + rt * 16 + r

/-! ## Memory keys: which word of the one memory a space's address is -/

/-- Word `a` of clerk `c`'s private store, 32 K words (R96). -/
def privKey (c a : Nat) : Nat := 0x10000000000 + 0x10000 * c + a % 0x8000
/-- Word `a` of die `d`'s shared store, 2 M words (R8). -/
def sharedKey (d a : Nat) : Nat := 0x20000000000 + 0x1000000 * d + a
/-- Word `a` of die `d`'s code store, 4 M words (R8, R94). -/
def codeKey (d a : Nat) : Nat := 0x30000000000 + 0x1000000 * d + a
/-- DDR5 word `a` of the M: space (R93). -/
def ddrKey (a : Nat) : Nat := 0x40000000000 + a
/-- Word `a` of the AON SRAM, 32 K words (R8, R388). -/
def aonKey (a : Nat) : Nat := 0x50000000000 + a
/-- Word `a` of intake die `d`'s correction store (R233). -/
def corrKey (d a : Nat) : Nat := 0x60000000000 + 0x1000000 * d + a
/-- Word `w` of the boot flash. -/
def flashKey (w : Nat) : Nat := 0x80000000000 + w
/-- Word `w` of the image that a host boot has delivered. -/
def loadKey (w : Nat) : Nat := 0x90000000000 + w
/-- Word `a` of host memory, as the device's writes left it (R416). -/
def hostKey (a : Nat) : Nat := 0x1000000000000000000 + a

/-- The word at a memory key. -/
def State.peek (s : State) (k : Nat) : Word := s.mem.read k
/-- The state with `v` at a memory key. -/
def State.poke (s : State) (k : Nat) (v : Word) : State := { s with mem := s.mem.write k v }
/-- Writes the words of a list at consecutive keys. -/
def State.pokes (s : State) (k : Nat) : List Word → State
  | [] => s
  | v :: t => (s.poke k v).pokes (k + 1) t
/-- Reads `n` words at consecutive keys. -/
def State.peeks (s : State) (k : Nat) : Nat → List Word
  | 0 => []
  | n + 1 => s.peek k :: s.peeks (k + 1) n

/-! ## Clerks -/

/-- The clerk's state. -/
def State.clerk (s : State) (c : Nat) : Clerk := s.clerks.getD c Clerk.reset
/-- The state with clerk `c` replaced. -/
def State.setClerk (s : State) (c : Nat) (k : Clerk) : State := { s with clerks := s.clerks.set c k }
/-- The state with clerk `c` changed by `f`. -/
def State.modClerk (s : State) (c : Nat) (f : Clerk → Clerk) : State := s.setClerk c (f (s.clerk c))
/-- Die of a clerk: sorting clerks by R9, PM0 and PM1 on HUB (R8). -/
def clerkDie (c : Nat) : Nat := if c < 128 then 3 + c / 32 else 0
/-- 4 × group + index of a clerk on its die; 0 for PM0 and 1 for PM1 (R9, R249). -/
def clerkLocal (c : Nat) : Nat := if c < 128 then c % 32 else c - 128
/-- Global number of local clerk `l` of die `d`. -/
def clerkOf (d l : Nat) : Nat := if d = 0 then 128 + l % 2 else 32 * (d - 3) + l
/-- Is it a postmaster clerk? -/
def isPm (c : Nat) : Bool := c == 128 || c == 129
/-- Requester numbers beside the clerks: the host (R3). -/
def hostId : Nat := 130
/-- The debug port (R3). -/
def debugId : Nat := 131
/-- The open envelope, which has its own selection registers (R439). -/
def envelopeId : Nat := 132
/-- One of the three parties HOST, PM0, PM1: the writers of most global blocks (R20, R52, R435). -/
def isParty (who : Nat) : Bool := who == 128 || who == 129 || who == 130

/-! ## STATUS fields (R90) -/

/-- STATUS.IE. -/
def Clerk.ie (k : Clerk) : Bool := bit k.status 15
/-- STATUS.MODE: SUPERVISOR. -/
def Clerk.sup (k : Clerk) : Bool := bit k.status 14
/-- STATUS.CLASS: GUARDED. -/
def Clerk.guarded (k : Clerk) : Bool := bit k.status 13
/-- STATUS.EP: running inside an open epoch. -/
def Clerk.ep (k : Clerk) : Bool := bit k.status 12
/-- STATUS.LM. -/
def Clerk.lm (k : Clerk) : Nat := field k.status 10 2
/-- STATUS.LVL. -/
def Clerk.lvl (k : Clerk) : Nat := field k.status 0 4
/-- STATUS with EP as given. -/
def setEp (st : Word) (b : Bool) : Word := putField st 12 1 (flag b 0)

/-- W register `r`; W0 reads 0000h (R89). -/
def Clerk.rw (k : Clerk) (r : Reg4) : Word := if r = 0 then 0 else k.w.get r
/-- Writes a W register; a write to W0 is discarded (R89). -/
def Clerk.ww (k : Clerk) (r : Reg4) (v : Word) : Clerk := if r = 0 then k else { k with w := k.w.set r v }
/-- S register `r`. -/
def Clerk.rs (k : Clerk) (r : Reg4) : Sheet := k.s.get r
/-- Writes an S register. -/
def Clerk.ws (k : Clerk) (r : Reg4) (v : Sheet) : Clerk := { k with s := k.s.set r v }
/-- Accumulator `r`. -/
def Clerk.ra (k : Clerk) (r : Fin 4) : Acc := k.a.get r
/-- Writes an accumulator. -/
def Clerk.wa (k : Clerk) (r : Fin 4) (v : Acc) : Clerk := { k with a := k.a.set r v }

/-! ## Tags and mailbags -/

/-- The epoch tag word: clerk number, slot, generation (R163). -/
def tagWord (c slot gen : Nat) : Word := word (c * 512 + slot * 128 + gen)
/-- Clerk number of a tag (R163). -/
def tagClerk (t : Word) : Nat := field t 9 7
/-- Slot of a tag. -/
def tagSlot (t : Word) : Nat := field t 7 2
/-- Generation of a tag. -/
def tagGen (t : Word) : Nat := field t 0 7

/-- Die of a mailbag (R197). -/
def bagDie (n : Nat) : Nat := n / 128
/-- Die that a push comes from: its source is a die, or 8 and a clerk number. -/
def pushDie (src : Nat) : Nat := if src < 8 then src else clerkDie (src - 8)

/-! ## Time -/

/-- REF time in whole microseconds: 200 ticks of 5 ns each (R26, R32). -/
def State.refUs (s : State) : Nat := s.now / 200
/-- AX15's position: one count a microsecond, the fraction in 200 equal steps (R32). -/
def State.ax15 (s : State) : Pos := BitVec.ofNat 48 (s.now / 200 * 65536 + s.now % 200 * 65536 / 200)

/-! ## Parcels and causes in flight -/

/-- Sends a message: it joins the back of those in flight. -/
def State.send (s : State) (m : Msg) : State := { s with msgs := s.msgs ++ [m] }
/-- Sends each message of a list. -/
def State.sends (s : State) (ms : List Msg) : State := { s with msgs := s.msgs ++ ms }
/-- The list without its first element that `p` names. -/
def dropFirst {α : Type} (p : α → Bool) : List α → List α
  | [] => []
  | a :: t => if p a then t else a :: dropFirst p t
/-! ## Dies -/

/-- What is held of die `d`. -/
def State.die (s : State) (d : Nat) : Die := s.dies.getD d Die.reset
/-- The state with die `d` changed by `f`. -/
def State.modDie (s : State) (d : Nat) (f : Die → Die) : State := { s with dies := s.dies.set d (f (s.die d)) }
/-- Is die `d` in service: its bit of DEVICE_DIES.IN (R21, R22)? -/
def State.inService (s : State) (d : Nat) : Bool := bit (s.reg Reg.DEVICE_DIES) d
/-- Dies with an interrupt controller: HUB and the sorting dies (R327). -/
def icuDies : List Nat := [0, 3, 4, 5, 6]
/-- Is it a sorting die? -/
def isSort (d : Nat) : Bool := decide (3 ≤ d) && decide (d ≤ 6)
/-- The device mode in DEVICE_MODE.MODE (R21). -/
def State.mode (s : State) : Nat := field (s.reg Reg.DEVICE_MODE) 0 4

/-- Is a VIO1 or VIO2 pad in use: EN of its setting word (R507, R508)? -/
def State.padEn (s : State) (i : Nat) : Bool := bit (s.pads.getD i 0) 15

/-! ## Origins and dead letters (R249, R490, R491) -/

/-- The origin word of a requester's port access (R249). -/
def originWord (who : Nat) (wr : Bool) (aux : Nat) : Word :=
  if who < 130 then word (clerkDie who * 8192 + clerkLocal who * 128 + flag wr 6 + aux)
  else word (4096 + (if who = 130 then 0x10 else 0x11) * 128 + flag wr 6 + aux)

/-- Drops a dead letter at die `d`: `w` holds capture words 1 to 6; the report goes to the office (R490). -/
def State.deadLetter (s : State) (cause d : Nat) (w : List Word) : State :=
  s.send (.dead cause d (w ++ [wordOf (s.now / 200) 0]))

/-- Capture words of an outbox entry: target, tag, lanes 0 to 3 (R491). -/
def entryWords (e : Sheet) : List Word := [e.l4, e.l7, e.l0, e.l1, e.l2, e.l3]
/-- Capture words of a parcel (R491). -/
def parcelWords (postcode ctl : Word) (e : Sheet) : List Word := [postcode, ctl, e.l0, e.l1, e.l2, e.l3]

end Sys2Proof.Machine
end

