-- ==== Sys2Proof/Machine/Parcel.lean ====
section
/-!
DEFINITION. Parcels and how they travel: what a parcel is, the order parcels keep, and the fabric's routers and links with their
virtual channels, credits, arbitration, frames and replay buffers (spec 09; log 8, 63, 71).
-/
namespace Sys2Proof.Machine

/-! ## Parcels (R247 to R249) -/

/-- A parcel: ten words (R247). -/
structure Parcel where
  lanes : Sheet
  post : Word
  ctl : Word
deriving DecidableEq, Repr

/-- A postcode word: die, unit and sub-address (R247). -/
def postcode (d u sub : Nat) : Word := word (d * 8192 + u * 256 + sub)
/-- A sheet of which only the first lanes are given. -/
def lanes4 (a b c d : Word) : Sheet := ⟨a, b, c, d, 0, 0, 0, 0⟩
/-- The virtual channel of the parcels of a unit (R248); a DDR read's data go on VC1. -/
def unitVc (u : Nat) : Nat :=
  match u with
  | 0 | 5 | 0xB | 0xC | 0xD => 3
  | 3 => 1
  | 6 | 7 | 8 => 2
  | _ => 0
/-- Die whose block raises global event `g` (R329). -/
def eventDie (g : Nat) : Nat :=
  if g < 0x20 then 7 else if g < 0x30 then 1 else if g < 0x40 then 2 else if g < 0x46 then 1 + g % 2 else if g < 0x7A then 7 else 0
/-- Unit code of a mailbag sheet: MBE for ordinary sheets and drafts of depth 1, another for each greater depth (R248). -/
def bagUnit (i : BagItem) : Nat := if i.depth ≤ 1 then 0 else 9 + i.depth
/-- Postcode and control words a mailbag parcel would carry (R248), with lanes 0 to 3: capture words of a mailbag sheet. -/
def bagWords (n : Nat) (i : BagItem) : List Word :=
  parcelWords (postcode (bagDie n) (bagUnit i) (n % 128)) i.tag i.data
/-- Capture words of a parcel (R491). -/
def Parcel.words (p : Parcel) : List Word := parcelWords p.post p.ctl p.lanes

/-- Source and destination die of a message; none where it is no parcel. -/
def Msg.route : Msg → Option (Nat × Nat)
  | .registration t _ _ _ => some (clerkDie (tagClerk t), 7)
  | .lineage t _ => some (clerkDie (tagClerk t), 7)
  | .recallReq t => some (clerkDie (tagClerk t), 7)
  | .settleMbe d _ => some (7, d)
  | .recallMbe d _ => some (7, d)
  | .settleClerk t => some (7, clerkDie (tagClerk t))
  | .recallClerk c _ _ => some (7, clerkDie c)
  | .recallAnswer c => some (7, clerkDie c)
  | .entry who _ => if who < 130 then some (clerkDie who, 7) else some (0, 7)
  | .push src n _ => some (pushDie src, bagDie n)
  | .globalEv d g _ _ => some (eventDie (if d = 0 then g else g - 0x80), d)
  | .bcast d _ _ => some (7, d)
  | .bepoch d _ => some (7, d)
  | .modeAck d => some (d, 0)
  | .portReply who d _ _ => some (d, clerkDie who)
  | .recallHalt _ => none
  | .recallDie _ => none
  | .recallDrain _ => none
  | .localEv _ _ _ => none
  | .dead _ _ _ => none
  | .fwEvent _ _ => none
  | .ppr _ => none

/-- The parcel that a message is (R46, R170, R248, R330); all zero for a message that is none. An engine's settle and recall
parcels name unit CLERK too: R248 lists no other unit for them (log 8). -/
def Msg.parcel : Msg → Parcel
  | .registration t m _ q => ⟨lanes4 (wordOf m.toNat 0) (wordOf m.toNat 1) (wordOf m.toNat 2) q, postcode 7 4 0, t⟩
  | .lineage t p => ⟨lanes4 p 0 0 0, postcode 7 4 1, t⟩
  | .recallReq t => ⟨lanes4 0 0 0 0, postcode 7 4 2, t⟩
  | .settleMbe d t => ⟨lanes4 0 0 0 0, postcode d 2 (0x20 + clerkLocal (tagClerk t)), t⟩
  | .recallMbe d ts => ⟨lanes4 0 0 0 0, postcode d 2 (clerkLocal (tagClerk (ts.headD 0))), ts.headD 0⟩
  | .settleClerk t => ⟨lanes4 0 0 0 0, postcode (clerkDie (tagClerk t)) 2 (0x20 + clerkLocal (tagClerk t)), t⟩
  | .recallClerk c t _ => ⟨lanes4 0 0 0 0, postcode (clerkDie c) 2 (clerkLocal c), t⟩
  | .recallAnswer c => ⟨lanes4 0 0 0 0, postcode (clerkDie c) 2 (clerkLocal c), 0⟩
  | .entry who e => ⟨e, postcode 7 5 0, originWord who true 0⟩
  | .push _ n i => ⟨i.data, postcode (bagDie n) (bagUnit i) (n % 128), i.tag⟩
  | .globalEv d g n edge =>
    ⟨lanes4 (word (flag edge 0)) (word n) 0 0, postcode d 0xA g, word (eventDie (if d = 0 then g else g - 0x80) * 8192 + 0x1000)⟩
  | .bcast d a x => ⟨x, postcode d 1 a, 0⟩
  | .bepoch d e => ⟨lanes4 (word e) 0 0 0, postcode d 1 0x10, 0⟩
  | .modeAck _ => ⟨lanes4 0 0 0 0, postcode 0 9 1, 0⟩
  | .portReply who d vals err =>
    ⟨if err then Sheet.zero else Sheet.ofList vals, postcode (clerkDie who) 3 (if who < 130 then clerkLocal who else 0x10),
      word (d * 8192 + flag err 0)⟩
  | .recallHalt _ => ⟨lanes4 0 0 0 0, 0, 0⟩
  | .recallDie _ => ⟨lanes4 0 0 0 0, 0, 0⟩
  | .recallDrain _ => ⟨lanes4 0 0 0 0, 0, 0⟩
  | .localEv _ _ _ => ⟨lanes4 0 0 0 0, 0, 0⟩
  | .dead _ _ _ => ⟨lanes4 0 0 0 0, 0, 0⟩
  | .fwEvent _ _ => ⟨lanes4 0 0 0 0, 0, 0⟩
  | .ppr _ => ⟨lanes4 0 0 0 0, 0, 0⟩
/-- Capture words of a message. -/
def Msg.words (m : Msg) : List Word := m.parcel.words
/-- Destination unit of a message: the MBE codes of a die count as one (R248, R254). -/
def Msg.unit (m : Msg) : Nat :=
  let u := field m.parcel.post 8 5
  if 0xB ≤ u ∧ u ≤ 0xD then 0 else u
/-- Virtual channel of a message (R248). -/
def Msg.vc (m : Msg) : Nat := unitVc m.unit
/-- What sends a message, for the orders of R254: a clerk, a die's block, the epoch table, the axis unit, a die's mode follower, the
block of a global event, or a die's port unit. -/
def Msg.source : Msg → Nat
  | .registration t _ _ _ => tagClerk t
  | .lineage t _ => tagClerk t
  | .recallReq t => tagClerk t
  | .recallHalt c => c
  | .settleMbe _ _ => 210
  | .recallMbe _ _ => 210
  | .settleClerk _ => 210
  | .recallClerk _ _ _ => 210
  | .recallAnswer _ => 210
  | .entry who _ => who
  | .push src _ _ => if src < 8 then 200 + src else src - 8
  | .bcast _ _ _ => 211
  | .bepoch _ _ => 211
  | .modeAck d => 220 + d
  | .globalEv d g _ _ => 300 + (if d = 0 then g else g - 0x80)
  | .portReply _ d _ _ => 230 + d
  | .recallDie _ => 240
  | .recallDrain _ => 240
  | .localEv _ _ _ => 240
  | .dead _ _ _ => 240
  | .fwEvent _ _ => 240
  | .ppr _ => 240

/-! ## The order parcels keep (R170, R254) -/

/-- Is it a registration, a lineage registration or a RECALL request of a clerk that `p` names? -/
def Msg.fromClerks (p : Nat → Bool) : Msg → Bool
  | .registration t _ _ _ => p (tagClerk t)
  | .lineage t _ => p (tagClerk t)
  | .recallReq t => p (tagClerk t)
  | _ => false
/-- Clerk whose stream to the DISPATCH epoch table a message belongs to: its registrations and requests, and its HALT (R131). -/
def Msg.epClerk (m : Msg) : Option Nat :=
  match m with
  | .recallHalt c => some c
  | m => if m.fromClerks fun _ => true then some m.source else none
/-- Parcels of one source on one path keep their order within a VC to one unit, and none passes an older one in a VC of higher
priority (R254). -/
def Msg.keepsBefore (o m : Msg) : Bool :=
  match o.route, m.route with
  | some x, some y => x == y && x.1 != x.2 && o.source == m.source && (decide (o.vc < m.vc) || (o.vc == m.vc && o.unit == m.unit))
  | _, _ => false
/-- Does an older message `o` stand before `m`: by R254, in the same clerk's stream to the epoch table, as the end of that clerk's
die, or, before a drain, as what the die's clerks have registered (R170, R186, R194)? -/
def Msg.before (o m : Msg) : Bool :=
  o.keepsBefore m || (match m with
    | .recallDrain d => o.fromClerks fun c => d == 7 || clerkDie c == d
    | .entry who _ => decide (who < 128) && (o == .recallDie (clerkDie who) || o.epClerk == some who)
    | m => match m.epClerk with
      | some c => o.epClerk == some c || o == .recallDie (clerkDie c)
      | none => false)
/-- The oldest message that `p` names and that no older message stands before. -/
def orderedFind (p : Msg → Bool) : List Msg → List Msg → Option Msg
  | [], _ => none
  | m :: t, older => if p m && !(older.any fun o => o.before m) then some m else orderedFind p t (m :: older)

/-! ## Routes over the fabric (R10, R11, R260 to R262) -/

/-- The ends of each link (R10), end A first: the end with the lower die number. -/
def linkEnds : List (Nat × Nat) :=
  [(0, 1), (0, 2), (0, 3), (0, 4), (0, 5), (0, 6), (0, 7), (1, 3), (1, 4), (2, 5), (2, 6), (3, 4), (4, 5), (5, 6), (3, 6),
    (3, 7), (4, 7), (5, 7), (6, 7)]
/-- The link. -/
def State.link (s : State) (l : Nat) : Link := s.links.getD l Link.reset
/-- The state with link `l` changed by `f`. -/
def State.modLink (s : State) (l : Nat) (f : Link → Link) : State := { s with links := s.links.set l (f (s.link l)) }
/-- Is `l` one of the 19 links, and in UP? -/
def State.linkUp (s : State) (l : Nat) : Bool := decide (l < 19) && (s.link l).state == .up
/-- The direct link between two dies, if the package has one. -/
def directLink (a b : Nat) : Option Nat :=
  let p := (min a b, max a b)
  let i := linkEnds.findIdx (· == p)
  if i < 19 then some i else none

/-- The end of link `l` that is not die `x`. -/
def farEnd (l x : Nat) : Nat :=
  let e := linkEnds.getD l (0, 0)
  if x = e.1 then e.2 else e.1
/-- Link on which parcels for die `b` leave die `a`: by the FABRIC section that `a` was configured with, or the direct link (R451). -/
def State.nextHop (s : State) (a b : Nat) : Option Nat :=
  ((s.routes.find? (8 * a + b)).or (directLink a b)).filter fun l => decide (l < 19)
/-- The links of a parcel's way from die `a` to die `b`, as each die sends it on, over at most `n` links (R11, R451). -/
def State.hopsFrom (s : State) (b : Nat) : Nat → Nat → Option (List Nat)
  | 0, a => if a = b then some [] else none
  | n + 1, a =>
    if a = b then some []
    else (s.nextHop a b).bind fun l => (s.hopsFrom b n (farEnd l a)).map (l :: ·)
/-- The links of the route from die `a` to die `b`: at most three (R11). -/
def State.routeLinks (s : State) (a b : Nat) : Option (List Nat) := s.hopsFrom b 3 a
/-- Is die `x` end A of link `l`? -/
def isEndA (l x : Nat) : Bool := (linkEnds.getD l (0, 0)).1 == x
/-- One direction of a link. -/
def Link.dir (x : Link) (ab : Bool) : LinkDir := if ab then x.ab else x.ba
/-- The link with one direction replaced. -/
def Link.setDir (x : Link) (ab : Bool) (d : LinkDir) : Link := if ab then { x with ab := d } else { x with ba := d }
/-- The direction of link `l` that die `x` sends. -/
def State.outDir (s : State) (l x : Nat) : LinkDir := (s.link l).dir (isEndA l x)
/-- The state with that direction changed by `f`. -/
def State.modOut (s : State) (l x : Nat) (f : LinkDir → LinkDir) : State :=
  s.modLink l fun y => y.setDir (isEndA l x) (f (y.dir (isEndA l x)))

/-- Can die `x` send and be sent to: it is in service, or, for a parcel of the bring-up, past B2 and not declared out (R262,
R265)? -/
def State.reachable (s : State) (sys : Bool) (x : Nat) : Bool :=
  s.inService x || (sys && decide (2 ≤ (s.die x).phase) && (s.die x).state != .out)
/-- Why a parcel from `a` to `b` cannot be delivered, as a dead-letter cause code of R490 (R262); none if it can. -/
def State.undeliverableAs (s : State) (sys : Bool) (a b : Nat) : Option Nat :=
  if a = b then none
  else if !(s.reachable sys a) || !(s.reachable sys b) then some 7
  else match s.routeLinks a b with
    | none => some 6
    | some ls => if ls.all s.linkUp then none else some 6
/-- The same for a parcel of the running device. -/
def State.undeliverable (s : State) (a b : Nat) : Option Nat := s.undeliverableAs false a b

/-- FD_DL counter of a fabric dead-letter cause (R274, R490). -/
def fdDlIdx (cause : Nat) : Nat := if cause = 5 then 0 else if cause = 6 then 1 else if cause = 7 then 2 else 3
/-- A router of die `x` drops a parcel: its die's counter and the dead letter (R262). -/
def State.routerDrop (s : State) (cause x : Nat) (w : List Word) : State :=
  (s.bump (Reg.FD_DL x (fdDlIdx cause))).deadLetter cause x w

/-! ## Routers (R252, R262) -/

/-- Parcels that stand at die `x`, in order of arrival. -/
def State.router (s : State) (x : Nat) : List Transit := s.routers.getD x []
/-- The state with them replaced. -/
def State.setRouter (s : State) (x : Nat) (l : List Transit) : State :=
  { s with routers := if l.isEmpty then s.routers.erase x else s.routers.set x l }
/-- A parcel joins those at a die. -/
def State.joinRouter (s : State) (x : Nat) (t : Transit) : State := s.setRouter x (s.router x ++ [t])
/-- A parcel leaves a die. -/
def State.leaveRouter (s : State) (x : Nat) (t : Transit) : State := s.setRouter x (dropFirst (· == t) (s.router x))

/-- A parcel in the fabric is lost at die `x`; the requester of a lost reply gets one with ERR instead, since no requester waits
for a reply that will never come (R262, R263). -/
def State.loseTransit (s : State) (cause x : Nat) (t : Transit) : State :=
  let s1 := s.routerDrop cause x t.msg.words
  match t.msg with
  | .portReply who d _ _ => { s1 with msgs := dropFirst (· == t.msg) s1.msgs ++ [.portReply who d [] true] }
  | _ => { s1 with msgs := dropFirst (· == t.msg) s1.msgs }

/-! ## Virtual channels, credits and arbitration (R252 to R255) -/

/-- Parcels that a receiver's buffer of a VC holds (R252). -/
def vcRoom : Nat → Nat
  | 0 => 8
  | 1 => 16
  | 2 => 16
  | _ => 32
/-- Credits that die `x` holds for a VC of link `l`: buffer entries neither taken nor promised to a frame on its way (R252). -/
def State.credit (s : State) (l x vc : Nat) : Nat :=
  vcRoom vc - (((s.outDir l x).sent.filter fun f => f.2.vc == vc).length +
    ((s.router (farEnd l x)).filter fun t => t.via == some l && t.vc == vc).length)
/-- Parcels that wait at die `x` for link `l`. -/
def State.queued (s : State) (l x : Nat) : List Transit := (s.router x).filter fun t => t.path.head? == some l
/-- The parcel of a VC that waits at the front for link `l`, unless an older one of the same source and path in a VC of higher
priority has still to be sent (R254). -/
def frontOf (vc : Nat) : List Transit → List Transit → Option Transit
  | [], _ => none
  | t :: r, older =>
    if t.vc = vc then (if older.any fun o => o.vc < vc && o.msg.keepsBefore t.msg then none else some t) else frontOf vc r (t :: older)
/-- The oldest parcel of a reserve route that waits in a VC where it was injected, and that no older parcel stands before (R254, R446). -/
def reserveFront (vc : Nat) : List Transit → List Transit → Option Transit
  | [], _ => none
  | t :: r, older =>
    if t.vc == vc && t.res && t.via.isNone && !(older.any fun o => o.msg.keepsBefore t.msg) then some t
    else reserveFront vc r (t :: older)
/-- The parcel of a VC that goes next over link `l`: the front one, or, at the injection point, one of a reserve route ahead of it
(R446). -/
def State.nextOf (s : State) (l x vc : Nat) : Option Transit :=
  match frontOf vc (s.queued l x) [] with
  | some t => if t.via.isNone && !t.res then some ((reserveFront vc (s.queued l x) []).getD t) else some t
  | none => none
/-- VCs that hold a parcel and a credit. -/
def State.readyVcs (s : State) (l x : Nat) : List Nat :=
  (List.range 4).filter fun v => (s.nextOf l x v).isSome && decide (0 < s.credit l x v)
/-- The VC that gets the next grant: one passed over 8 times in a row, else the first in priority (R253). -/
def State.granted (s : State) (l x : Nat) : Option Nat :=
  match (s.readyVcs l x).find? fun v => decide (8 ≤ (s.outDir l x).passed.getD v 0) with
  | some v => some v
  | none => (s.readyVcs l x).head?
/-- How often each VC has been passed over, after a grant to `v`. -/
def passedAfter (ready : List Nat) (v : Nat) (old : List Nat) : List Nat :=
  (List.range 4).map fun u => if u ≠ v ∧ ready.contains u then old.getD u 0 + 1 else 0

/-- Does VC3 of link `l` wait for credit, in either direction (R274)? -/
def State.holds3 (s : State) (l : Nat) : Bool :=
  let e := linkEnds.getD l (0, 0)
  s.linkUp l && [e.1, e.2].any fun x => (s.queued l x).any (·.vc == 3) && s.credit l x 3 == 0
/-- FL_HOLD with the wait in progress (R274). -/
def State.holdCount (s : State) (l : Nat) : Word :=
  match (s.link l).holdFrom with
  | none => s.reg (Reg.FL_HOLD l)
  | some u => satAdd (s.reg (Reg.FL_HOLD l)) (s.refUs + 1 - u)
/-- A wait of VC3 for credit begins or ends; FL_HOLD counts the microseconds it touched (R274). -/
def State.noteHold (s : State) (l : Nat) : State :=
  if 19 ≤ l then s
  else match (s.link l).holdFrom, s.holds3 l with
  | none, true => s.modLink l fun y => { y with holdFrom := some (max s.refUs y.holdNext) }
  | some _, false =>
    (s.setReg (Reg.FL_HOLD l) (s.holdCount l)).modLink l fun y => { y with holdFrom := none, holdNext := s.refUs + 1 }
  | _, _ => s

/-! ## Frames (R257, R258) -/

/-- A frame goes out: it gets the next LSEQ, and FL_PARA or FL_PARB counts its parcel (R257, R274). -/
def State.countSent (s : State) (l x : Nat) : State :=
  if isEndA l x then s.bump2 (Reg.FL_PARAL l) (Reg.FL_PARAH l) 1 else s.bump2 (Reg.FL_PARBL l) (Reg.FL_PARBH l) 1
/-- The sender of link `l` at die `x` sends what it may: each parcel that is granted leaves its buffer, which may let the link it came
over go on, and stands in the replay buffer until it is acknowledged; with 64 frames there the sender waits (R252 to R257). The first
argument bounds the number of grants. -/
def pumpFuel : Nat → Nat → Nat → State → State
  | 0, _, _, s => s
  | n + 1, l, x, s =>
    let d := s.outDir l x
    match (if s.linkUp l && decide (d.sent.length < 64) then s.granted l x else none) with
    | none => s.noteHold l
    | some v =>
      match s.nextOf l x v with
      | none => s
      | some t =>
        let s1 := ((s.leaveRouter x t).modOut l x fun y =>
          { y with nextTx := (d.nextTx + 1) % 256, sent := d.sent ++ [(d.nextTx, { t with via := none })],
                   passed := passedAfter (s.readyVcs l x) v d.passed, ackAt := if d.sent.isEmpty then s.now else d.ackAt }).countSent
          l x
        let s2 := match t.via with
          | some k => pumpFuel n k (farEnd k x) s1
          | none => s1
        pumpFuel n l x s2
/-- The same, for every grant there can be. -/
def State.pump (s : State) (l x : Nat) : State := pumpFuel 200 l x s

/-- A parcel comes to the router of die `x`: at its destination a unit takes it, but on VC3 the buffer keeps it until the unit does;
else it is dropped where the rest of its way is not there, or waits for its next link (R252, R255, R260, R262). -/
def State.enter (s : State) (x : Nat) (t : Transit) : State :=
  if !(s.msgs.contains t.msg) then s
  else match t.path, t.msg.route with
  | l :: _, some (a, b) =>
    if !(s.linkUp l) then s.loseTransit 6 x t
    else if (s.die a).state == .out || (s.die b).state == .out then s.loseTransit 7 x t
    else (s.joinRouter x t).pump l x
  | _, _ => if t.vc = 3 then s.joinRouter x t else s

/-- The receiver accepts the oldest frame on its way over link `l` from die `x`: the acknowledgement returns and the parcel comes to
the router at the other end (R258). -/
def State.acceptFrame (s : State) (l x : Nat) : State :=
  match (s.outDir l x).sent with
  | [] => s
  | (q, t) :: r =>
    let e := (q + 1) % 256
    let s1 := s.modOut l x fun y => { y with sent := r, expect := e, acked := e, naks := 0, ackAt := s.now }
    (s1.enter (farEnd l x) { t with path := t.path.tail, via := some l }).pump l x

/-! ## From sender to unit -/

/-- Where a parcel stands: at a die, or in a frame on its way over a link from a die. -/
inductive Spot where
  | atDie (x : Nat) (t : Transit)
  | onLink (l x : Nat)
deriving DecidableEq, Repr

/-- Where a message stands in the fabric; none once its unit has it, or where it never crosses a link. -/
def State.spot (s : State) (m : Msg) : Option Spot :=
  match s.routers.findSome? fun e => (e.2.find? (·.msg == m)).map (Spot.atDie e.1) with
  | some p => some p
  | none => s.links.findSome? fun e =>
    let n := linkEnds.getD e.1 (0, 0)
    if e.2.ab.sent.any (·.2.msg == m) then some (.onLink e.1 n.1)
    else if e.2.ba.sent.any (·.2.msg == m) then some (.onLink e.1 n.2) else none

/-- The frames ahead of a message, and its own, have been accepted link by link, as its arrival shows; none where it still waits for
credit or for a link (R252, R258; log 8). -/
def carryFuel : Nat → Msg → State → Option State
  | 0, _, _ => none
  | n + 1, m, s =>
    match s.spot m with
    | none => some s
    | some (.atDie x t) =>
      (match t.path with
        | [] => some s
        | l :: _ => if s.linkUp l && !(s.outDir l x).sent.isEmpty then carryFuel n m (s.acceptFrame l x) else none)
    | some (.onLink l x) => if s.linkUp l then carryFuel n m (s.acceptFrame l x) else none
/-- Can a message have come to its unit? -/
def State.reach (s : State) (m : Msg) : Option State := carryFuel (4 * s.msgs.length + 8) m s
/-- A unit takes a parcel: its buffer entry frees, and the credit returns (R252). -/
def State.takeOut (s : State) (m : Msg) : State :=
  let s1 : State := { s with msgs := dropFirst (· == m) s.msgs }
  match s.spot m with
  | some (.atDie x t) =>
    (match t.via with
      | some l => (s1.leaveRouter x t).pump l (farEnd l x)
      | none => s1.leaveRouter x t)
  | _ => s1
/-- The oldest message that `p` names and that no older one stands before, if it can have come to its unit, with the state then; on its way
a router may have dropped it. -/
def State.nextIn (s : State) (p : Msg → Bool) : Option Msg × State :=
  match orderedFind p s.msgs [] with
  | none => (none, s)
  | some m =>
    match s.reach m with
    | some t => (if t.msgs.contains m then some m else none, t)
    | none => (none, s)
/-- Takes such a message and hands it to `f`; with none nothing happens (log 8). -/
def State.take (s : State) (p : Msg → Bool) (f : Msg → State → State) : State :=
  match s.nextIn p with
  | (none, t) => t
  | (some m, t) => f m (t.takeOut m)

/-- The link that refuses a parcel of this route and counts it: the first that is not up where it stands in QUARANTINE, or
the first of all where the sending die has been declared out (R23, R266). -/
def State.refuser (s : State) (a b : Nat) : Option Nat :=
  let ls := (s.routeLinks a b).getD []
  match ls.find? fun l => !(s.linkUp l) && (s.link l).state == .quarantine with
  | some l => some l
  | none => if (s.die a).state = .out then ls.head? else none

/-- Every frame on its way over link `l` from die `x` has been accepted. -/
def State.drainLink (s : State) (l x : Nat) : State := (List.range (s.outDir l x).sent.length).foldl (fun t _ => t.acceptFrame l x) s
/-- A parcel whose effect the model performs at once crosses a link: the frames before it have been accepted, and its own is (R258). -/
def State.crossLink (s : State) (l x : Nat) : State :=
  ((s.drainLink l x).modOut l x fun d =>
    { d with nextTx := (d.nextTx + 1) % 256, expect := (d.nextTx + 1) % 256, acked := (d.nextTx + 1) % 256, naks := 0,
             ackAt := s.now }).countSent l x
/-- Such a parcel crosses the links of a route from die `x` on as far as they are up; the result names the die it comes to. -/
def State.crossLinks (s : State) : List Nat → Nat → State × Nat
  | [], x => (s, x)
  | l :: r, x => if s.linkUp l then (s.crossLink l x).crossLinks r (farEnd l x) else (s, x)
/-- A parcel's whole way from die `a` to die `b`. -/
def State.passRoute (s : State) (a b : Nat) : State := (s.crossLinks ((s.routeLinks a b).getD []) a).1

/-- So do `n` parcels of one transfer. -/
def State.passN (s : State) (n a b : Nat) : State := (List.range n).foldl (fun t _ => t.passRoute a b) s
/-- DDR parcels that carry `n` words from M: word `a`: one for each 16 bytes of a burst, four for a whole burst (R249). -/
def ddrParcels (a n : Nat) : Nat := if n = 0 then 0 else (a + n + 7) / 8 - a / 8

/-- A router drops a parcel from die `a` to die `b` as a dead letter: at the die where its way ends, where a link is missing, else at
its source (R23, R262, R266). -/
def State.dropParcel (s : State) (cause a b : Nat) (w : List Word) : State :=
  let s1 := match (if cause = 5 then none else s.refuser a b) with
    | some l => s.bump (Reg.FL_REFUSED l)
    | none => s
  let p := if cause = 6 then s1.crossLinks ((s.routeLinks a b).getD []) a else (s1, a)
  p.1.routerDrop cause p.2 w

/-- A parcel travels from die `a` to die `b` and is delivered at once by `f`, or it is dropped by a router as a dead letter, and then
`g` says what its sender sees (R262, R263). -/
def State.parcel (s : State) (a b : Nat) (w : List Word) (f g : State → State) : State :=
  match s.undeliverable a b with
  | some cause => g (s.dropParcel cause a b w)
  | none => f (s.passRoute a b)

/-- Is it a parcel that a die gets while it is brought up: a mode acknowledge or a broadcast epoch announcement (R265)? -/
def Msg.bringUp : Msg → Bool
  | .modeAck _ => true
  | .bepoch _ _ => true
  | _ => false
/-- Route a clerk is charged to (R448). -/
def State.clerkRoute (s : State) (c : Nat) : Nat :=
  if c < 128 then field (s.reg (Reg.CLK_ROUTE c)) 0 8 else field (s.reg (Reg.PST_PMROUTE (c - 128))) 0 8
/-- Is a route a reserve route (R446)? -/
def State.isReserve (s : State) (rt : Nat) : Bool := bit (s.reg (routeKey rt 3)) 14
/-- Is a message charged to a reserve route: a clerk's POST or push, or a notice of the host's (R442, R446)? -/
def State.onReserve (s : State) (m : Msg) : Bool :=
  match m with
  | .entry who _ => decide (who < 130) && s.isReserve (s.clerkRoute who)
  | .push src _ _ => if 8 ≤ src then s.isReserve (s.clerkRoute (src - 8)) else src == 0 && s.isReserve (field (s.reg Reg.HOST_CFG) 0 8)
  | _ => false
/-- Sends a message, on a reserve route or not, as a parcel: it stands at its source's router until its first link takes it, or a router drops it (R252, R262). A
reply that cannot go leaves its requester with ERR (R263). -/
def State.launchAs (s : State) (res : Bool) (m : Msg) : State :=
  match m.route with
  | none => s.send m
  | some (a, b) =>
    if a = b then s.send m
    else match s.undeliverableAs m.bringUp a b with
      | none =>
        let ls := (s.routeLinks a b).getD []
        ((s.send m).joinRouter a { vc := m.vc, res := res, path := ls, via := none, msg := m }).pump (ls.headD 0) a
      | some cause =>
        let s1 := s.dropParcel cause a b m.words
        match m with
        | .portReply who d _ _ => s1.send (.portReply who d [] true)
        | _ => s1
/-- The same for a message whose own sender names its route. -/
def State.launch (s : State) (m : Msg) : State := s.launchAs (s.onReserve m) m
/-- Sends each message of a list. -/
def State.launches (s : State) (ms : List Msg) : State := ms.foldl State.launch s

/-! ## What leaves the fabric otherwise -/

/-- Messages changed by `f` wherever they stand. -/
def State.mapMsgs (s : State) (f : Msg → Msg) : State :=
  let g := fun (t : Transit) => { t with msg := f t.msg }
  let h := fun (d : LinkDir) => { d with sent := d.sent.map fun e => (e.1, g e.2) }
  { s with msgs := s.msgs.map f, routers := s.routers.map (fun e => (e.1, e.2.map g)),
           links := s.links.map fun e => (e.1, { e.2 with ab := h e.2.ab, ba := h e.2.ba }) }
/-- Messages that `p` names are gone from those in flight. What of them stands in the fabric goes with them; a frame already sent keeps
its LSEQ and brings nothing. -/
def State.dropMsgs (s : State) (p : Msg → Bool) : State :=
  { s with msgs := s.msgs.filter fun m => !(p m),
           routers := (s.routers.map fun e => (e.1, e.2.filter fun t => !(p t.msg))).filter fun e => !e.2.isEmpty }

end Sys2Proof.Machine
end

