-- ==== Sys2Proof/Machine/Ops.lean ====
section
/-!
DEFINITION. The named operations over State that every block uses: global and local events, dead letters, fault windows, the
AON fault log, violations and postage. Each follows the rule its docstring names.
-/
namespace Sys2Proof.Machine

/-- Is the sleep entry past D1: dies inject no parcels but the sequencer's (R371)? -/
def State.paused (s : State) : Bool :=
  match s.sleep with
  | some r => decide (2 ≤ r.step)
  | none => false

/-! ## Interrupt events -/

/-- A local event on its way to its die's ICU (R328). -/
def State.raiseLocal (s : State) (d src n : Nat) : State := s.send (.localEv d src n)

/-- The ICU parcels of global event `g`: to HUB with sub-address g and to every sorting die in service with 80h + g (R330). -/
def State.sendGlobal (s : State) (g n : Nat) (edge : Bool) : State :=
  s.launches (icuDies.filterMap fun d =>
    if d = 0 then some (.globalEv 0 g n edge) else if s.inService d then some (.globalEv d (0x80 + g) n edge) else none)

/-- A global event occurs: one parcel a microsecond, later events held back and summed up to FFFFh; during the pause of a sleep entry
none goes out (R330, R371). -/
def State.raiseGlobalEdge (s : State) (g : Nat) (edge : Bool) : State :=
  let e := s.globalEvs.getD g GlobalEv.reset
  if e.held > 0 ∨ e.sentUs = some s.refUs ∨ s.paused = true then
    { s with globalEvs := s.globalEvs.set g { e with held := min (e.held + 1) 0xFFFF, edge := edge } }
  else
    ({ s with globalEvs := s.globalEvs.set g { e with sentUs := some s.refUs, edge := edge } }).sendGlobal g 1 edge

/-- A global event that carries no edge. -/
def State.raiseGlobal (s : State) (g : Nat) : State := s.raiseGlobalEdge g false

/-- Sets W1C bits and raises a global event, whether or not they were 1 already (R329). -/
def State.setAndRaise (s : State) (k : Nat) (m : Word) (g : Nat) : State := (s.setBits k m).raiseGlobal g
/-- Sets W1C bits and raises a global event when one of them went from 0 to 1 (R441). -/
def State.setBitsEv (s : State) (k : Nat) (m : Word) (g : Nat) : State :=
  if s.reg k &&& m = m then s else (s.setBits k m).raiseGlobal g

/-! ## Fault log, dead letters, fault windows (R488 to R492) -/

/-- Writes a record of the AON fault log: `w0` to `w3`, with AON_TIME in words 4 and 5 (R492). -/
def State.logFault (s : State) (w0 w1 w2 w3 : Nat) : State :=
  let rec6 := [word w0, word w1, word w2, word w3, wordOf s.aonTime 0, wordOf s.aonTime 1]
  ({ s with faultLog := s.faultLog.set (s.logCount % 64) rec6, logCount := (s.logCount + 1) % 65536 }).setBits
    Reg.ERR_STAT 0x2000

/-- An event of a resource's fault window, on its way to the window (R488). -/
def State.faultEvent (s : State) (cls idx : Nat) : State := s.send (.fwEvent cls idx)

/-! ## Violations (R431) -/

/-- Records a violation in its counter, with its origin and port; VIOLEV going to 1 raises CSIGN (R431, R441). -/
def State.violation (s : State) (counter : Nat) (origin port : Word) : State :=
  (((s.bump counter).setReg Reg.CS_PVORIGIN origin).setReg Reg.CS_PVPORT port).setBitsEv Reg.CS_STAT 0x1000 0x7C

/-- A port permission violation by `who` at `port` (R102, R431). -/
def State.portViolation (s : State) (who : Nat) (wr : Bool) (port : Nat) : State :=
  s.violation Reg.CS_PVCNT (originWord who wr 0) (word port)

/-- Are the device's ports reachable: not in OFF, and not asleep (R15, R21)? -/
def State.live (s : State) : Bool :=
  match s.phase with
  | .off | .dormant | .isSealed => false
  | _ => true

/-- Does what a write does where `who` is one of the block's writers HOST, PM0 and PM1; else the write is ignored and
counted as a port permission violation (R20, R52, R196, R274, R344, R435, R498). -/
def State.byParty (s : State) (who port : Nat) (f : State → State) : State :=
  if !s.live then s else if isParty who then f s else s.portViolation who true port

/-! ## Rounds on axes (R44) -/

/-- Round index of an integer position for round length `l` (at least 1). -/
def roundIdx (int l : Nat) : Nat := int / max l 1
/-- Is there a boundary between the highest index seen and `rnd`? -/
def roundBoundary (rnd rmax l : Nat) : Bool :=
  let n := (2 ^ 32 + max l 1 - 1) / max l 1
  let d := (rnd + n - rmax % n) % n
  decide (1 ≤ d) && decide (d ≤ (n - 1) / 2)

/-! ## Postage (R442 to R446) -/

/-- The meter of route `rt`, class `cls` (0 fabric, 1 DDR) on die `d`. -/
def State.meter (s : State) (d rt cls : Nat) : Meter := s.meters.getD (512 * d + 2 * rt + cls) Meter.reset
/-- The state with that meter replaced. -/
def State.setMeter (s : State) (d rt cls : Nat) (m : Meter) : State :=
  { s with meters := s.meters.set (512 * d + 2 * rt + cls) m }

/-- Would route `rt` have a stamp left at die `d`'s meter (R444)? -/
def State.hasStamp (s : State) (d rt cls : Nat) : Bool :=
  !(bit (s.reg (routeKey rt 3)) 15) || decide ((s.meter d rt cls).used < (s.reg (routeKey rt (6 + cls))).toNat)

/-- Takes `n` stamps: the used count and its maximum rise (R443, R448). -/
def State.takeStamps (s : State) (d rt cls n : Nat) : State :=
  let m := s.meter d rt cls
  let s1 := s.setMeter d rt cls { m with used := m.used + n }
  if (s.reg (routeKey rt (8 + cls))).toNat < m.used + n then s1.setReg (routeKey rt (8 + cls)) (satAdd (word 0) (m.used + n))
  else s1
/-- Takes one stamp. -/
def State.takeStamp (s : State) (d rt cls : Nat) : State := s.takeStamps d rt cls 1

/-- An item of the route waits: counted once a round over all meters, and WAITEV set (R445). -/
def State.noteWait (s : State) (rt cls : Nat) : State :=
  let m := s.meter 8 rt cls
  if m.waited then s
  else ((s.setMeter 8 rt cls { m with waited := true }).bump (routeKey rt (10 + cls))).setBits Reg.PST_STAT 0x8000

end Sys2Proof.Machine
end

