-- ==== Sys2Proof/Machine/Ddr.lean ====
section
/-!
DEFINITION. The DDR5 channels: the M: address map, whole and partial burst writes, errors and their records, the row
table, repair, scrub and self-refresh (spec 15).
-/
namespace Sys2Proof.Machine

/-! ## Switched domains (R349) -/

/-- Is domain `n` on (PWR_ON)? -/
def State.domOn (s : State) (n : Nat) : Bool := bit (s.reg (Reg.PWR_ON (n / 16))) (n % 16)
/-- Sets or clears a domain's PWR_ON bit. -/
def State.setDom (s : State) (n : Nat) (b : Bool) : State :=
  s.modReg (Reg.PWR_ON (n / 16)) fun w => putField w (n % 16) 1 (flag b 0)
/-! ## Address map (R391 to R393) -/

/-- Column bits of a row: bursts per row are 128 for x4 devices and 64 for x8 (R392, R393). -/
def State.ddrC (s : State) : Nat := if bit (s.reg Reg.DDR_ORG) 15 then 6 else 7
/-- Rows of a device (R392). -/
def State.ddrRowCount (s : State) : Nat :=
  match field (s.reg Reg.DDR_ORG) 12 2 with
  | 0 => 65536
  | 1 => 98304
  | _ => 131072
/-- Ranks (R392). -/
def State.ddrRanks (s : State) : Nat := if bit (s.reg Reg.DDR_ORG) 14 then 2 else 1
/-- Words of one channel (R392). -/
def State.chanWords (s : State) : Nat := 2048 * 2 ^ s.ddrC * s.ddrRanks * s.ddrRowCount
/-- Channels of the population in use (R391). -/
def State.ddrChans (s : State) : Nat :=
  match field (s.reg Reg.DDR_CFG) 0 4 with
  | 0 => 0
  | 1 => 1
  | 3 => 2
  | _ => 4
/-- Populated words: the total of DDR_CAP, which is 0 until the population is trained (R392, R408). -/
def State.ddrCap (s : State) : Nat := s.reg2 Reg.DDR_CAPL Reg.DDR_CAPH * 2 ^ 19
/-- Channel and channel-local word of an M: word (R393). -/
def State.ddrLocal (s : State) (a : Nat) : Nat × Nat :=
  if s.ddrChans ≤ 1 then (0, a)
  else
    let pair := a / (2 * s.chanWords)
    let off := a % (2 * s.chanWords)
    (2 * pair + off / 2048 % 2, off / 4096 * 2048 + off % 2048)
/-- The M: word of a channel-local word. -/
def State.ddrGlobal (s : State) (ch l : Nat) : Nat :=
  if s.ddrChans ≤ 1 then l else ch / 2 * (2 * s.chanWords) + l / 2048 * 4096 + ch % 2 * 2048 + l % 2048
/-- The row that a channel-local word lies in (R393). -/
def State.ddrRowOf (s : State) (l : Nat) : DdrRow :=
  let up := l / 2 ^ (11 + s.ddrC)
  { sub := l / 32 % 2, rank := if s.ddrRanks = 2 then up % 2 else 0, bg := l / 64 % 8, bank := l / 512 % 4,
    row := up / s.ddrRanks, marks := [] }
/-- Burst within the row of a channel-local word (R393). -/
def State.ddrColumn (s : State) (l : Nat) : Nat := l / 2048 % 2 ^ s.ddrC
/-- Are two rows the same? -/
def DdrRow.same (a b : DdrRow) : Bool :=
  a.sub == b.sub && a.rank == b.rank && a.bg == b.bg && a.bank == b.bank && a.row == b.row

/-! ## Regions (R394) -/

/-- Base of region `k` in words. -/
def State.rgnBase (s : State) (k : Nat) : Nat :=
  (field (s.reg (Reg.DDR_RGN_CFG k)) 0 4 * 65536 + (s.reg (Reg.DDR_RGN_BASEL k)).toNat) * 2 ^ 19
/-- Length of region `k` in words. -/
def State.rgnLen (s : State) (k : Nat) : Nat :=
  (field (s.reg (Reg.DDR_RGN_LENH k)) 0 4 * 65536 + (s.reg (Reg.DDR_RGN_LENL k)).toNat) * 2 ^ 19
/-- Is region `k` enabled, and of what kind? -/
def State.rgnKind (s : State) (k : Nat) : Option Nat :=
  let c := s.reg (Reg.DDR_RGN_CFG k)
  if bit c 15 then some (field c 12 3) else none
/-- Do `n` words from `a` lie wholly in one region of the kind (R394)? -/
def State.inRegion (s : State) (kind a n : Nat) : Bool :=
  (List.range 8).any fun k =>
    s.rgnKind k == some kind && decide (s.rgnBase k ≤ a) && decide (a + n ≤ s.rgnBase k + s.rgnLen k)
/-- The first region of kind IMAGE, as its base and length in words (R457). -/
def State.imageRegion (s : State) : Option (Nat × Nat) :=
  ((List.range 8).find? fun k => s.rgnKind k == some 0).map fun k => (s.rgnBase k, s.rgnLen k)

/-! ## Errors (R399 to R403) -/

/-- Sets W1C bits of a channel's status: event DDR (R401). -/
def State.ddrChEvent (s : State) (ch : Nat) (m : Word) : State := s.setAndRaise (Reg.DDR_CHSTAT ch) m 0x7E
/-- Sets W1C bits of DDR_STAT: event DDR (R401). -/
def State.ddrEvent (s : State) (m : Word) : State := s.setAndRaise Reg.DDR_STAT m 0x7E
/-- DDR_CHSTAT.STATE. -/
def State.ddrState (s : State) (ch : Nat) : Nat := field (s.reg (Reg.DDR_CHSTAT ch)) 0 3
/-- Sets DDR_CHSTAT.STATE. -/
def State.setDdr (s : State) (ch st : Nat) : State := s.modReg (Reg.DDR_CHSTAT ch) fun w => putField w 0 3 st

/-- Records an error: a corrected one never replaces an uncorrectable one (R401, R408). -/
def State.ddrRecord (s : State) (ch l dev : Nat) (ue : Bool) : State :=
  let old := s.reg (Reg.DDR_ERRA0 ch)
  if bit old 15 && bit old 14 && !ue then s
  else
    let r := s.ddrRowOf l
    ((s.setReg (Reg.DDR_ERRA0 ch) (word (0x8000 + flag ue 14 + r.sub * 8192 + r.rank * 4096 + r.bg * 512 + r.bank * 128 +
      dev % 32))).setReg (Reg.DDR_ERRA1 ch) (word r.row)).setReg (Reg.DDR_ERRA2 ch)
        (word (r.row / 65536 % 4 * 4096 + s.ddrColumn l))

/-- Place of a row in its channel's table. -/
def State.rowSlot (s : State) (ch : Nat) (r : DdrRow) : Option Nat :=
  (List.range 64).find? fun i => (s.ddrRows.find? (64 * ch + i)).any r.same
/-- Events in the window of a row table place. -/
def State.rowEvents (s : State) (slot : Nat) : Nat := (s.faultWins.getD slot FaultWin.reset).count
/-- Place that a new row takes: the first free one, else the one with the fewest events, the lowest of equals (R403). -/
def State.rowVictim (s : State) (ch : Nat) : Nat :=
  match (List.range 64).find? fun i => (s.ddrRows.find? (64 * ch + i)).isNone with
  | some i => i
  | none => (List.range 64).foldl (fun b i => if s.rowEvents (64 * ch + i) < s.rowEvents (64 * ch + b) then i else b) 0

/-- Brings a row into the table: the second result is its place (R403). -/
def State.rowEnter (s : State) (ch : Nat) (r : DdrRow) : State × Nat :=
  match s.rowSlot ch r with
  | some i => (s, i)
  | none =>
    let i := s.rowVictim ch
    let full := (s.ddrRows.find? (64 * ch + i)).isSome
    let s1 : State := { s with ddrRows := s.ddrRows.set (64 * ch + i) r, faultWins := s.faultWins.erase (64 * ch + i) }
    (if full then s1.bump (Reg.DDR_ROWOVF ch) else s1, i)

/-- A counted event of the row that channel-local word `l` lies in; an uncorrectable burst is marked, at most 4 in a row,
and a marked one counts nothing more (R403). -/
def State.rowEvent (s : State) (ch l : Nat) (ue : Bool) : State :=
  let p := s.rowEnter ch (s.ddrRowOf l)
  let slot := 64 * ch + p.2
  let r := (p.1.ddrRows.find? slot).getD (s.ddrRowOf l)
  let col := s.ddrColumn l
  if ue && r.marks.contains col then p.1
  else
    let r1 := if ue && decide (r.marks.length < 4) then { r with marks := r.marks ++ [col] } else r
    ({ p.1 with ddrRows := p.1.ddrRows.set slot r1 }).faultEvent 0 slot

/-- What the channel does with a burst read: correction and its count, or the uncorrectable detection (R399, R400). A burst
that holds uncorrectable data reads so whatever the command says. -/
def State.burstRead (s : State) (ch b : Nat) (dev : Nat) (ce ue : Bool) : State :=
  let l := (s.ddrLocal (32 * b)).2
  if ue || s.ddrBad.contains b then
    let s1 : State := { s with ddrBad := if s.ddrBad.contains b then s.ddrBad else s.ddrBad ++ [b] }
    ((((s1.bump (Reg.DDR_UE ch)).ddrRecord ch l dev true).rowEvent ch l true).ddrChEvent ch 0x4000)
  else if ce then (((s.bump (Reg.DDR_CE ch)).ddrRecord ch l dev false).rowEvent ch l false).ddrChEvent ch 0x8000
  else s

/-- An access to the pair of M: word `a` while its domain is off raises that domain's vote and waits for U4: the domain is on, and its
channels have left self-refresh (R357, R407). -/
def State.ddrServe (s : State) (a : Nat) : State :=
  let p := (s.ddrLocal a).1 / 2
  if s.domOn (51 + p) then s
  else [2 * p, 2 * p + 1].foldl (fun t ch => if t.ddrState ch = 3 then t.setDdr ch 2 else t) (s.setDom (51 + p) true)
/-- A reader's demand read of `n` words from M: word `a`: every burst that is uncorrectable, and the first one where `bad` says so, is
detected (R400, R403). -/
def State.ddrDemand (s : State) (a n : Nat) (bad : Bool) : State :=
  let s1 := s.ddrServe a
  let known := s1.ddrBad.filter fun b => decide (a / 32 ≤ b) && decide (b * 32 < a + n)
  let bs := if bad && !(known.contains (a / 32)) then a / 32 :: known else known
  bs.foldl (fun t b => t.burstRead (t.ddrLocal (32 * b)).1 b 0 false true) s1

/-- A write of a burst: it ends the burst's uncorrectable data and its mark (R403). -/
def State.burstHeal (s : State) (b : Nat) : State :=
  if s.ddrBad.contains b then
    let p := s.ddrLocal (32 * b)
    let s1 : State := { s with ddrBad := s.ddrBad.filter (· != b) }
    match s1.rowSlot p.1 (s1.ddrRowOf p.2) with
    | none => s1
    | some i =>
      let r := (s1.ddrRows.find? (64 * p.1 + i)).getD (s1.ddrRowOf p.2)
      { s1 with ddrRows := s1.ddrRows.set (64 * p.1 + i) { r with marks := r.marks.filter (· != s1.ddrColumn p.2) } }
  else s

/-- Writes words within one burst: a whole burst at once, a part by read, merge and write, which an uncorrectable read drops
(R400). -/
def State.burstWrite (s : State) (a : Nat) (ws : List Word) : State :=
  let b := a / 32
  if ws.length = 32 then (s.burstHeal b).pokes (ddrKey a) ws
  else if s.ddrBad.contains b then
    let ch := (s.ddrLocal (32 * b)).1
    ((s.burstRead ch b 0 false true).bump (Reg.DDR_RMWDROP ch)).ddrChEvent ch 0x0800
  else s.pokes (ddrKey a) ws

/-- Writes words from M: word `a`, burst by burst. -/
def State.ddrWrite (s : State) (a : Nat) (ws : List Word) : State :=
  (List.range ((a % 32 + ws.length + 31) / 32)).foldl (fun t i =>
    let lo := max a (32 * (a / 32 + i))
    let hi := min (a + ws.length) (32 * (a / 32 + i) + 32)
    (t.ddrServe lo).burstWrite lo ((ws.drop (lo - a)).take (hi - lo))) s

/-- Is any burst of `n` words from `a` uncorrectable? -/
def State.ddrUe (s : State) (a n : Nat) : Bool := s.ddrBad.any fun b => decide (a / 32 ≤ b) && decide (b * 32 < a + n)

/-! ## Commands -/

/-- DDR_BURST_READ: a demand read of a burst on a channel that is UP (R399, R400). -/
def State.ddrBurstRead (s : State) (b dev : Nat) (ce ue : Bool) : State :=
  let ch := (s.ddrLocal (32 * b)).1
  if 32 * b < s.ddrCap ∧ s.ddrState ch = 2 then s.burstRead ch b dev ce ue else s

/-- PATROL_SCRUB: the next burst of a channel is read with write-back; a pass ends at the channel's last burst (R402). -/
def State.patrolScrub (s : State) (ch dev : Nat) (ce ue : Bool) : State :=
  if ch < s.ddrChans ∧ s.ddrState ch = 2 ∧ 0 < s.ddrCap then
    let n := s.chanWords / 32
    let i := s.scrubAt.getD ch 0
    let s1 := s.burstRead ch (s.ddrGlobal ch (32 * i) / 32) dev ce ue
    if i + 1 < n then { s1 with scrubAt := s1.scrubAt.set ch (i + 1) }
    else ({ s1 with scrubAt := s1.scrubAt.set ch 0 }).bumpWrap (Reg.DDR_SCRUBPASS ch) 1
  else s

/-- The channel's next free DDR_PPRLOG entry (R404). -/
def State.pprFree (s : State) (ch : Nat) : Option Nat :=
  (List.range 8).find? fun e => !(bit (s.reg (Reg.DDR_PPRLOG ch (2 * e))) 15)
/-- Word 0 of a row's log entry (R408). -/
def DdrRow.log0 (r : DdrRow) : Word :=
  word (0x8000 + r.sub * 8192 + r.rank * 4096 + r.bg * 512 + r.bank * 128 + r.row / 65536 % 4)

/-- SOFT_PPR: the channel repairs a LASTING row, by P1 to P4; without a spare row or a free log entry NOSPARE sets (R404). -/
def State.softPpr (s : State) (ch : Nat) (spare : Bool) : State :=
  s.take (fun m => match m with | .ppr slot => slot / 64 == ch | _ => false) fun m u =>
    match m with
    | .ppr slot =>
      match u.ddrRows.find? slot, u.pprFree ch with
      | some r, some e =>
        if spare then
          (((u.setReg (Reg.DDR_PPRLOG ch (2 * e)) r.log0).setReg (Reg.DDR_PPRLOG ch (2 * e + 1)) (word r.row)).bump
            (Reg.DDR_PPRCNT ch)).ddrChEvent ch 0x2000
        else u.ddrChEvent ch 0x1000
      | some _, none => u.ddrChEvent ch 0x1000
      | none, _ => u
    | _ => u

/-- DDR_HPPR: in SERVICE, makes a logged repair permanent; else it is refused (R405). -/
def State.ddrHppr (s : State) (v : Word) : State :=
  let ch := field v 3 2
  let k := Reg.DDR_PPRLOG ch (2 * field v 0 3)
  if !(bit v 15) then s
  else if s.mode = 7 ∧ bit (s.reg k) 15 then s.setBits k 0x4000 else s.ddrEvent 0x4000

/-- DDR_CHCTL.CLRCNT (R408). -/
def State.ddrChClrcnt (s : State) (ch : Nat) : State :=
  s.zeroRegs [Reg.DDR_CE ch, Reg.DDR_UE ch, Reg.DDR_RMWDROP ch, Reg.DDR_ROWOVF ch, Reg.DDR_PPRCNT ch, Reg.DDR_SCRUBPASS ch]

/-- The channels of a pair. -/
def pairChans (pair : Nat) : List Nat := [2 * pair, 2 * pair + 1]
/-- A pair enters self-refresh: each of its channels that is UP (R407). -/
def State.selfRefresh (s : State) (pair : Nat) : State :=
  (pairChans pair).foldl (fun t ch => if t.ddrState ch = 2 then t.setDdr ch 3 else t) s
/-- SELF_REFRESH_EXIT: a pair whose domain is on leaves self-refresh (R407). -/
def State.selfRefreshExit (s : State) (pair : Nat) : State :=
  if s.domOn (51 + pair) then
    (pairChans pair).foldl (fun t ch => if t.ddrState ch = 3 then t.setDdr ch 2 else t) s
  else s

end Sys2Proof.Machine
end

