-- ==== Sys2Proof/Machine/Icu.lean ====
section
/-!
DEFINITION. The interrupt controllers: sources, moderation, pending requests, the offer to a clerk, and their
commands (spec 12).
-/
namespace Sys2Proof.Machine

/-- Key of register `r` (port offset 3 to 8) of source `src` of die `d` (R345). -/
def icuKey (d src r : Nat) : Nat := 0x200000 + d * 0x1000 + src * 16 + r
/-- SCFG of a source (R345). -/
def State.scfg (s : State) (d src : Nat) : Word := s.reg (icuKey d src 3)
/-- Pending and moderation state of a source. -/
def State.icuSrc (s : State) (d src : Nat) : IcuSrc := s.icu.getD (256 * d + src) IcuSrc.reset
/-- The state with a source replaced. -/
def State.setIcuSrc (s : State) (d src : Nat) (e : IcuSrc) : State := { s with icu := s.icu.set (256 * d + src) e }
/-- Sources of a die's ICU (R327). -/
def icuCount (d : Nat) : Nat := if d = 0 then 128 else if isSort d then 256 else 0
/-- Does the source exist and is it not reserved (R327, R328)? -/
def icuValid (d src : Nat) : Bool :=
  decide (src < icuCount d) && (d == 0 || decide (src < 0x64) || decide (0x80 ≤ src))
/-- Global event that a source carries, if any (R328). -/
def icuGlobal (d src : Nat) : Option Nat :=
  if d = 0 then some src else if 0x80 ≤ src then some (src - 0x80) else none
/-- Is it a GPIO source (R329)? -/
def isGpioSrc (d src : Nat) : Bool :=
  match icuGlobal d src with
  | some g => decide (0x5A ≤ g) && decide (g < 0x7A)
  | none => false
/-- Does the source take an edge under SCFG.SENSE (R331, R345)? -/
def senseTakes (cfg : Word) (edge : Bool) : Bool :=
  match field cfg 12 2 with
  | 0 => edge
  | 1 => !edge
  | _ => true
/-- Clerk that a source targets (R345). -/
def State.icuTarget (s : State) (d src : Nat) : Nat := clerkOf d (field (s.scfg d src) 0 5)
/-- Is the clerk in WAIT (R161, R332)? -/
def State.inWait (s : State) (c : Nat) : Bool :=
  match (s.clerk c).waiting with
  | some w => w.kind == .event
  | none => false

/-- Does moderation let the held events of a source set PEND now (R331, R332)? -/
def State.icuMayRelease (s : State) (d src : Nat) : Bool :=
  let e := s.icuSrc d src
  let coal := s.reg (icuKey d src 7)
  let mint := (s.reg (icuKey d src 6)).toNat
  let mintOk := match e.last with
    | none => true
    | some t => decide (mint ≤ s.refUs - t)
  let coalT := match e.first with
    | none => false
    | some t => decide (field coal 0 12 ≤ s.refUs - t)
  decide (0 < e.held) && !e.pend && bit (s.scfg d src) 15 &&
    (s.inWait (s.icuTarget d src) || (mintOk && (decide (field coal 12 4 + 1 ≤ e.held) || coalT)))

/-- Sets PEND of a source whose held events may be released (R331). -/
def State.icuRelease (s : State) (d src : Nat) : State :=
  if s.icuMayRelease d src then
    s.setIcuSrc d src { pend := true, held := 0, first := none, last := some s.refUs }
  else s

/-- An event of count `n` reaches a source: EVCNT counts it; while EN = 1 and PEND = 0 it passes moderation (R331). -/
def State.icuCounted (s : State) (d src n : Nat) : State :=
  let s1 := s.bumpWrap (icuKey d src 8) n
  let e := s1.icuSrc d src
  if bit (s1.scfg d src) 15 && !e.pend then
    (s1.setIcuSrc d src
      { e with held := min (e.held + n) 16, first := some (e.first.getD s1.refUs) }).icuRelease d src
  else s1

/-- An event arrives for a source: a reserved one takes none, a GPIO source only the edges that SENSE selects (R328, R331). -/
def State.icuEvent (s : State) (d src n : Nat) (edge : Bool) : State :=
  if !(icuValid d src) || (isGpioSrc d src && !(senseTakes (s.scfg d src) edge)) then s else s.icuCounted d src n

/-- Sources with EN = 1 and PEND = 1 that target clerk `c`, as (priority, source) (R334). -/
def State.pendingFor (s : State) (c : Nat) : List (Nat × Nat) :=
  s.icu.filterMap fun e =>
    let d := e.1 / 256
    let src := e.1 % 256
    if d = clerkDie c ∧ e.2.pend ∧ bit (s.scfg d src) 15 ∧ s.icuTarget d src = c then
      some (field (s.scfg d src) 8 4, src)
    else none

/-- The winner of arbitration: the lowest priority value, then the lowest source number (R334). It stands as the ICU's
offer: arbitration runs again at every change, so the offer is always the present winner (log 12). -/
def State.winner (s : State) (c : Nat) : Option (Nat × Nat) :=
  (s.pendingFor c).foldl
    (fun best e => match best with
      | none => some e
      | some b => if e.1 < b.1 ∨ (e.1 = b.1 ∧ e.2 < b.2) then some e else some b) none

/-- Vector address of a source (R345). -/
def State.icuVector (s : State) (d src : Nat) : CodeAddr :=
  BitVec.ofNat 20 (s.reg2 (icuKey d src 4) (icuKey d src 5))

/-- Clears PEND of a source (H3 of R335, R333). -/
def State.icuClearPend (s : State) (d src : Nat) : State := s.setIcuSrc d src { s.icuSrc d src with pend := false }

/-- LIC_PEND of a clerk (R342). -/
def State.licPend (s : State) (c : Nat) : Word :=
  match s.winner c with
  | none => 0
  | some (p, src) => word (0x8000 + p * 256 + src)

/-! ## Register effects of the ICU block (R344 to R347) -/

/-- Writes SCFG of a source under its field rules; EN going to 0 discards held events (R331, R345, R346). -/
def State.icuWriteScfg (s : State) (d src : Nat) (v : Word) : State :=
  if (isGpioSrc d src ∧ field v 12 2 = 3) ∨ (d = 0 ∧ field v 0 5 ≥ 2) then s.setBits (Reg.ICU_STAT d) 0x8000
  else
    let s1 := s.setReg (icuKey d src 3) (v &&& 0xFF1F)
    if bit v 15 then s1.icuRelease d src
    else s1.setIcuSrc d src { s1.icuSrc d src with held := 0, first := none }

/-- Writes COAL of a source: COALN above 1 with COALT = 0 is refused (R346). -/
def State.icuWriteCoal (s : State) (d src : Nat) (v : Word) : State :=
  if field v 12 4 ≠ 0 ∧ field v 0 12 = 0 then s.setBits (Reg.ICU_STAT d) 0x8000 else s.setReg (icuKey d src 7) v

/-- ICU_CTL.CLRCNT: clears every EVCNT of the die (R345). -/
def State.icuClrcnt (s : State) (d : Nat) : State :=
  s.zeroRegs ((List.range (icuCount d)).map fun src => icuKey d src 8)

/-- ICU_CTL.CLRPEND: clears every PEND of the die (R345). -/
def State.icuClrpend (s : State) (d : Nat) : State :=
  { s with icu := s.icu.map fun e => if e.1 / 256 = d then (e.1, { e.2 with pend := false }) else e }

/-- W1C of PEND bits of sources 16j to 16j + 15 (R333, R345). -/
def State.icuPendClear (s : State) (d j : Nat) (v : Word) : State :=
  { s with icu := s.icu.map fun e =>
      if e.1 / 256 = d ∧ e.1 % 256 / 16 = j ∧ bit v (e.1 % 16) then (e.1, { e.2 with pend := false }) else e }

/-- ICU_PENDj as read (R345). -/
def State.icuPendWord (s : State) (d j : Nat) : Word :=
  word ((List.range 16).foldl (fun n k => n + flag (s.icuSrc d (16 * j + k)).pend k) 0)

/-- Sources of a die with PEND = 1 (R345). -/
def State.icuPendCount (s : State) (d : Nat) : Nat := (s.icu.filter fun e => e.1 / 256 == d && e.2.pend).length

/-- Does the die have an ICU page (R344)? -/
def hasIcu (d : Nat) : Bool := d == 0 || isSort d

end Sys2Proof.Machine
end

