-- ==== Sys2Proof/Machine/ClerkCore.lean ====
section
/-!
DEFINITION. What every clerk instruction shares: products, the mode shadow, the predictor, performance counters, retire,
exception entry, interrupt entry and return (spec 03, 04, 12).
-/
namespace Sys2Proof.Machine

/-! ## The instruction window (R94, R95) -/

/-- Words of the instruction window: SIZE × 64 K. -/
def State.winWords (s : State) (c : Nat) : Nat := field (s.reg (Reg.CLK_IWIN c)) 8 5 * 65536
/-- Code-store word of instruction address `t`. -/
def State.codeWord (s : State) (c : Nat) (t : CodeAddr) : Nat := field (s.reg (Reg.CLK_IWIN c)) 0 6 * 65536 + t.toNat
/-- Code-store line of instruction address `t`. -/
def State.codeLine (s : State) (c : Nat) (t : CodeAddr) : Nat := s.codeWord c t / 16

/-! ## Performance counters (R86, R87) -/

/-- Does the counter filter admit the clerk's mode? -/
def pcntFilter (ctl : Word) (sup : Bool) : Bool :=
  match field ctl 12 2 with
  | 1 => !sup
  | 2 => sup
  | _ => true

/-- Event selected by counter `k` (R86). -/
def State.pcntSel (s : State) (c k : Nat) : Nat :=
  field (s.reg (Reg.PCNT_SEL c (k / 2))) (if k % 2 = 0 then 0 else 8) 6

/-- Counter `k` counts `n` where it is enabled for event `ev`; a wrap sets its OVF bit and raises PCNT (R86, R328). -/
def State.pcntOne (s : State) (c ev n k : Nat) : State :=
  let ctl := s.reg (Reg.PCNT_CTL c)
  if bit ctl 15 ∨ !(bit ctl k) ∨ s.pcntSel c k ≠ ev ∨ !(pcntFilter ctl (s.clerk c).sup) then s
  else
    let v := s.reg2 (Reg.PCNT_L c k) (Reg.PCNT_H c k) + n
    let s1 := s.setReg2 (Reg.PCNT_L c k) (Reg.PCNT_H c k) (v % 2 ^ 32)
    if v < 2 ^ 32 then s1
    else
      let s2 := s1.setBits (Reg.PCNT_OVF c) (word (2 ^ k))
      if c < 128 then s2.raiseLocal (clerkDie c) (0x40 + clerkLocal c) 1 else s2

/-- Event `ev` occurs `n` times on clerk `c` (R87). -/
def State.pcnt (s : State) (c ev n : Nat) : State :=
  if (s.reg (Reg.PCNT_CTL c)) = 0 then s else (List.range 8).foldl (fun t k => t.pcntOne c ev n k) s

/-! ## Instructions in flight (R58, R71, R85) -/

/-- The answer to what waited, with nothing captured: good, or uncorrectable or in error. -/
def Grant.reply (bad : Bool) : Grant := { bad0 := bad, bad1 := false, ts := [], val := [] }
/-- Has the instruction been issued as a window load whose data is still to return? -/
def InFlight.outstanding (e : InFlight) : Bool := !e.ts.isEmpty && e.grant.isNone
/-- Is the waiting instruction a window load whose data is still to return? -/
def Clerk.loadOut (k : Clerk) : Bool :=
  match k.waiting with
  | some w => w.kind == .window
  | none => false
/-- Read-buffer entries in use: by loads in flight, and by squashed ones until their data returns (R71). -/
def Clerk.bufferUsed (k : Clerk) : Nat :=
  flag k.loadOut 0 + (k.window.filter fun e => !e.ts.isEmpty).length + k.stray
/-- Every instruction younger than the oldest in flight is squashed; the squashed ones count, and their loads keep their
read-buffer entries until the data returns (R58, R71, R85, R87). -/
def State.squash (s : State) (c : Nat) : State :=
  let k := s.clerk c
  if k.window.isEmpty then s
  else (s.setClerk c { k with window := [], stray := k.stray + (k.window.filter InFlight.outstanding).length }).pcnt c 0x03
    k.window.length
/-- What waits is given up, to execute again later or not at all; a window load's entry stays until its data returns (R71). -/
def Clerk.dropWaiting (k : Clerk) : Clerk :=
  { k with waiting := none, grant := none, loadBuf := [], stray := k.stray + flag k.loadOut 0 }
/-- Instructions that this event squashes beyond those in the window: they have issued and took their tokens, which bounds
their number; the wrong path counts stalls and window loads too (R59, R85, R87). -/
def State.wrongPath (s : State) (c n stalls loads : Nat) : State :=
  let k := s.clerk c
  let m := min n (k.tokens / 5)
  let l := min loads (min m (8 - k.bufferUsed))
  let s1 := s.setClerk c { k with tokens := k.tokens - 5 * m, stray := k.stray + l }
  (((s1.pcnt c 0x01 m).pcnt c 0x03 m).pcnt c 0x0A (min stalls m)).pcnt c 0x0B l

/-! ## Products (R114, R115) -/

/-- One instruction has retired: each outstanding product is one instruction nearer, and those that are due are written. -/
def Clerk.tickProducts (k : Clerk) : Clerk :=
  let k1 := match k.mulPend with
    | [] => k
    | (n, l, h) :: t =>
      let dec := fun (e : Nat × Word × Word) => (e.1 - 1, e.2)
      if n ≤ 1 then { k with pl := l, ph := h, mulPend := t.map dec }
      else { k with mulPend := (k.mulPend.map dec) }
  match k1.smulPend with
  | [] => k1
  | (n, l, h) :: t =>
    let dec := fun (e : Nat × Sheet × Sheet) => (e.1 - 1, e.2)
    if n ≤ 1 then { k1 with spl := l, sph := h, smulPend := t.map dec }
    else { k1 with smulPend := (k1.smulPend.map dec) }

/-- Completes every outstanding scalar product (R115, R116). -/
def Clerk.completeMul (k : Clerk) : Clerk :=
  match k.mulPend.getLast? with
  | none => k
  | some (_, l, h) => { k with pl := l, ph := h, mulPend := [] }

/-- Completes every outstanding sheet product (R115, R116). -/
def Clerk.completeSmul (k : Clerk) : Clerk :=
  match k.smulPend.getLast? with
  | none => k
  | some (_, l, h) => { k with spl := l, sph := h, smulPend := [] }

/-- Completes every outstanding product (R115). -/
def Clerk.completeProducts (k : Clerk) : Clerk := k.completeMul.completeSmul

/-! ## Predictor (R66 to R75) -/

/-- The running context's predictor key (R73). -/
def Clerk.key (k : Clerk) (c : Nat) : BitVec 16 :=
  match k.pred.keys with
  | [] => Config.predKey c 0
  | (_, n) :: _ => Config.predKey c n

/-- A flush: every BTB and return-stack entry cleared, every counter 01b with tag 00h, GH cleared (R75). -/
def Predictor.flush (p : Predictor) : Predictor := { p with btb := [], dir := [], gh := 0, rstack := [] }

/-- Does a change of STATUS and CTX flush the predictor (R74)? -/
def flushes (old new : Word) (octx nctx : BitVec 8) : Bool :=
  (bit old 13 != bit new 13) || (bit old 14 != bit new 14) || ((octx != nctx) && (bit old 13 || bit new 13))

/-- The keys with context `ctx` run most recently: drawn when it has none, the least recently run of 16 replaced (R73). -/
def keysRun (keys : List (Nat × Nat)) (ctx draw : Nat) : List (Nat × Nat) :=
  match keys.find? (·.1 == ctx) with
  | some e => e :: keys.filter (·.1 != ctx)
  | none => (ctx, draw) :: keys.take 15

/-- Writes STATUS and CTX of a clerk, with the key of a context that begins to run and the flush of R74. -/
def State.enterContext (s : State) (c : Nat) (st : Word) (ctx : BitVec 8) : State :=
  let k := s.clerk c
  let fl := flushes k.status st k.ctx ctx
  let p1 := if fl then k.pred.flush else k.pred
  let p2 := if ctx = k.ctx then p1 else { p1 with keys := keysRun p1.keys ctx.toNat (s.free + 1) }
  let s1 := { s with free := if ctx = k.ctx then s.free else s.free + 1 }
  let s2 := s1.setClerk c { k with status := st, ctx := ctx, pred := p2 }
  if fl then s2.pcnt c 0x12 1 else s2

/-- Index of a branch in the direction table (R67). -/
def dirIndex (pc : CodeAddr) (gh : BitVec 8) (key : BitVec 16) : Nat :=
  ((pc.toNat % 1024) ^^^ ((gh.toNat * 4) % 1024)) ^^^ (key.toNat % 1024)

/-- BTB set of a branch (R67). -/
def btbSet (pc : CodeAddr) (key : BitVec 16) : Nat :=
  ((pc.toNat % 16) ^^^ (pc.toNat / 16 % 16)) ^^^ (key.toNat / 4096)

/-- The target as the BTB stores it: xor-ed with KEY in bits 15:0 (R67). -/
def btbMask (t : CodeAddr) (key : BitVec 16) : CodeAddr := t ^^^ BitVec.ofNat 20 key.toNat

/-- The BTB's prediction for a branch, if it hits (R66). -/
def Predictor.btbHit (p : Predictor) (pc : CodeAddr) (ctx : BitVec 8) (key : BitVec 16) : Option CodeAddr :=
  (((p.btb.getD (btbSet pc key) []).find? fun e => e.pc == pc && e.ctx == ctx)).map fun e => btbMask e.target key

/-- The BTB with a taken branch entered, with the first two words `ws` at its target; a full set replaces the way that Config
names (R66, R69). -/
def Predictor.btbPut (p : Predictor) (pc t : CodeAddr) (ctx : BitVec 8) (key : BitVec 16) (ws : List Word) (n : Nat) : Predictor :=
  let i := btbSet pc key
  let es := (p.btb.getD i []).filter fun e => !(e.pc == pc && e.ctx == ctx)
  let es1 := if es.length < 4 then es else es.eraseIdx (Config.btbVictim n % 4)
  { p with btb := p.btb.set i (es1 ++ [{ pc := pc, ctx := ctx, target := btbMask t key, words := ws }]) }

/-- How a retiring branch uses the predictor. -/
inductive BranchKind where
  | cond          -- conditional under R67
  | direct        -- resolved at DC: JMP, and the always and never taken forms (R142)
  | callDirect
  | indirect
  | callIndirect
  | ret
deriving DecidableEq, Repr

/-- The predictor after a branch at `pc` retires, taken or not, toward `t` with `next` after it (R67 to R69, R142). -/
def Clerk.trainBranch (k : Clerk) (c : Nat) (kind : BranchKind) (taken : Bool) (t next : CodeAddr) (ws : List Word)
    (n : Nat) : Clerk :=
  let p := k.pred
  let key := k.key c
  let hit := p.btbHit k.pc k.ctx key
  let pushed := fun (q : Predictor) => { q with rstack := (next :: q.rstack).take 8 }
  let learn := fun (q : Predictor) => if taken then q.btbPut k.pc t k.ctx key ws n else q
  match kind with
  | .cond =>
    let i := dirIndex k.pc p.gh key
    let e := p.dir.getD i { cnt := 1, tag := 0 }
    let cnt := if e.tag = k.ctx then e.cnt else 1
    let guess := decide (2 ≤ cnt)
    let cnt1 := if taken then min (cnt + 1) 3 else cnt - 1
    { k with pred := learn { p with dir := p.dir.set i { cnt := cnt1, tag := k.ctx },
                                    gh := BitVec.ofNat 8 (p.gh.toNat * 2 + flag taken 0),
                                    mispred := if guess = taken then none else some true } }
  | .direct => { k with pred := learn { p with mispred := none } }
  | .callDirect => { k with pred := pushed (learn { p with mispred := none }) }
  | .indirect => { k with pred := learn { p with mispred := if hit = some t then none else some false } }
  | .callIndirect => { k with pred := pushed (learn { p with mispred := if hit = some t then none else some false }) }
  | .ret =>
    { k with pred := { p with rstack := p.rstack.tail,
                              mispred := if p.rstack.head? = some t then none else some false } }

/-! ## Mode shadow (R76 to R80) -/

/-- STATUS and CTX after a pending mode change takes effect (R153, R159). -/
def ModeChange.result (m : ModeChange) (st : Word) (ctx : BitVec 8) : Word × BitVec 8 :=
  match m with
  | .status v => (putField (putField st 13 2 (field v 13 2)) 10 2 (field v 10 2), ctx)
  | .lm v => (putField st 10 2 v.toNat, ctx)
  | .ctx v => (st, v)

/-- A mode change takes effect on clerk `c` (R78, R80). -/
def State.applyMode (s : State) (c : Nat) (m : ModeChange) : State :=
  let k := s.clerk c
  let r := m.result k.status k.ctx
  (s.enterContext c r.1 r.2).pcnt c 0x11 1

/-- Mode changes take effect one by one, in program order (R78, R79). -/
def State.applyModes (s : State) (c : Nat) : List Shadow → State
  | [] => s
  | m :: t => (s.applyMode c m.change).applyModes c t

/-- The changes whose shadow has ended take effect, and every younger instruction is squashed (R76, R80). -/
def State.settleShadow (s : State) (c : Nat) : State :=
  let k := s.clerk c
  let due := k.shadow.takeWhile fun m => m.left == 0
  if due.isEmpty then s
  else ((s.squash c).modClerk c fun x => { x with shadow := x.shadow.drop due.length }).applyModes c due

/-- Every pending change takes effect at once: an exception or a RETI in the shadow (R79, R162). -/
def State.flushShadow (s : State) (c : Nat) : State :=
  let k := s.clerk c
  if k.shadow.isEmpty then s else (s.setClerk c { k with shadow := [] }).applyModes c k.shadow

/-! ## Retire -/

/-- An instruction, or an iteration of a repeated one, has retired as far as products go (R114). -/
def State.retireUnit (s : State) (c : Nat) : State := s.modClerk c Clerk.tickProducts

/-- An instruction has retired: the retired count, events 02h and 10h, and one instruction less in every shadow (R76, R86). -/
def State.retireInsn (s : State) (c : Nat) : State :=
  let ep := (s.clerk c).ep
  let n := (s.reg2 (Reg.PCNT_RETL c) (Reg.PCNT_RETM c) + 2 ^ 32 * (s.reg (Reg.PCNT_RETH c)).toNat + 1) % 2 ^ 48
  let s1 := (s.setReg2 (Reg.PCNT_RETL c) (Reg.PCNT_RETM c) (n % 2 ^ 32)).setReg (Reg.PCNT_RETH c) (wordOf n 2)
  let s2 := s1.pcnt c 0x02 1
  let s3 := if ep then s2.pcnt c 0x10 1 else s2
  s3.modClerk c fun k => { k with shadow := k.shadow.map fun m => { m with left := m.left - 1 } }

/-! ## Frames, exceptions, interrupts (R130, R131, R337) -/

/-- Pushes the four words of a frame at ISP: PC high, PC low, STATUS, W15, addresses modulo 8000h (R130, R337). -/
def State.pushFrame (s : State) (c : Nat) (pc : CodeAddr) (st : Word) : State :=
  let k := s.clerk c
  let i := k.isp.toNat + 0x10000
  ((((s.poke (privKey c (i - 1)) (word (pc.toNat / 65536))).poke (privKey c (i - 2)) (word pc.toNat)).poke
    (privKey c (i - 3)) st).poke (privKey c (i - 4)) (k.rw 15)).setClerk c { k with isp := k.isp - 4 }

/-- STATUS on exception entry: SUPERVISOR, IE 0, LM WRAP; the rest kept (X3 of R130). -/
def excStatus (st : Word) : Word := (st ||| 0x4000) &&& 0x73FF

/-- Number a clerk has in fault records: 80h PM0, 81h PM1 (R492). -/
def clerkRecord (c : Nat) : Nat := if c < 128 then c else c - 128 + 0x80

/-- A second exception before the first is acknowledged: the clerk stops in HALTED (R131). -/
def State.haltClerk (s : State) (c cause : Nat) (epc : CodeAddr) : State :=
  let k := s.clerk c
  let s1 := ((s.squash c).modClerk c fun x => { x.dropWaiting with halted := true }).logFault (0x2000 + clerkRecord c)
    (field k.excCause 0 8 * 256 + cause) epc.toNat (epc.toNat / 65536)
  let s2 := if c < 128 then s1.raiseLocal (clerkDie c) 0x60 1 else s1
  if (k.slots.toList.any fun e => e.state != .free) then s2.send (.recallHalt c) else s2

/-- Takes an exception on clerk `c`: `cause` and `arg` go to EXC_CAUSE, `epc` to EXC_PC and the frame; a repetition's
remaining count goes to RPT with RA (and RU) in the pushed STATUS; younger instructions are squashed (R123, R130). -/
def State.takeException (s : State) (c cause arg : Nat) (half : Bool) (epc : CodeAddr) : State :=
  let s0 := (s.flushShadow c).squash c
  let k0 := s0.clerk c
  if bit k0.excCause 15 then s0.haltClerk c cause epc
  else
    let ra := match k0.rep with
      | some r => 0x200 + flag r.unint 8
      | none => 0
    let k1 := { k0.dropWaiting.completeProducts with
      excCause := word (0x8000 + flag half 14 + arg * 256 + cause), excPc := epc,
      rpt := match k0.rep with
        | some r => word r.left
        | none => k0.rpt,
      rep := none }
    let s1 := (s0.setClerk c k1).pushFrame c epc (k1.status ||| word ra)
    let s2 := s1.enterContext c (excStatus k1.status) k1.ctx
    (s2.modClerk c fun k => { k with pc := k.excVec + BitVec.ofNat 20 (8 * cause) }).pcnt c 0x15 1

/-- STATUS on interrupt entry: SUPERVISOR, IE 0, LM WRAP, LVL and CLASS of the source, EP 0 (R191, R337). -/
def intStatus (prio : Nat) (cls : Bool) : Word :=
  word (0x4000 + flag cls 13 + prio % 16)

/-- The clerk takes over a source's request: PEND cleared, LIC_SRC, STATUS and the vector (E1 and the settings of R337). -/
def State.acceptSource (s : State) (c prio src : Nat) : State :=
  let d := clerkDie c
  let vec := s.icuVector d src
  let cls := bit (s.scfg d src) 14
  let s1 := (s.icuClearPend d src).setReg (Reg.LIC_SRC c) (word (0x8000 + prio * 256 + src))
  let s2 := s1.enterContext c (intStatus prio cls) (s1.clerk c).ctx
  (s2.modClerk c fun k => { k with pc := vec, entry := some src }).pcnt c 0x15 1

/-- Can the clerk run at all: not halted, not held by debug, not parked (R131, R497)? -/
def Clerk.alive (k : Clerk) : Bool := !k.halted && !k.dbgHalt && !k.parked

/-- Does the clerk execute: its die is configured and out of reset, and the clerk is alive; PM0 and PM1 do not run in BOOTHOLD
(R90, R486)? -/
def State.clerkRuns (s : State) (c : Nat) : Bool :=
  s.live && s.phase != .bootHold && (s.die (clerkDie c)).running && (s.clerk c).alive

/-- May an interrupt be taken in place of what waits: a pop, or what waits as a journal wait does (R174, R175, R176, R205,
R207, R445)? An access already issued completes first (R108, R145). -/
def WaitKind.open : WaitKind → Bool
  | .pop | .push | .journal | .held | .peek | .postage | .token => true
  | _ => false

/-- May the clerk accept the offered priority now (R336)? -/
def Clerk.accepts (k : Clerk) (prio : Nat) : Bool :=
  let repu := match k.rep with
    | some r => r.unint && (r.started || k.waiting.isSome)
    | none => false
  let waitOk := match k.waiting with
    | some w => w.kind.open
    | none => true
  k.alive && !k.stepping && k.ie && decide (prio < k.lvl) && !(k.shadow.any fun m => decide (0 < m.left)) && !repu && waitOk

/-- Is there an offer the clerk may accept now: the boundary between iterations and words looks at this (R120, R125)? -/
def State.mayInterrupt (s : State) (c : Nat) : Bool :=
  match s.winner c with
  | none => false
  | some (p, _) => (s.clerk c).accepts p

/-- Interrupt entry (R337): a repetition in progress goes to RPT and RA (R120); one not begun starts again at its
prefix; what waits starts again after return, and so do the younger instructions, which are squashed (R85). -/
def State.interruptEntry (s : State) (c prio src : Nat) : State :=
  let s0 := s.squash c
  let k0 := s0.clerk c
  let going := match k0.rep with
    | some r => r.started
    | none => false
  let pc := match k0.rep with
    | some r => if r.started then k0.pc else r.pfx
    | none => k0.pc
  let rpt := match k0.rep with
    | some r => if r.started then word r.left else k0.rpt
    | none => k0.rpt
  let k1 := { k0.dropWaiting.completeProducts with rpt := rpt, rep := none, susp := k0.susp || k0.ep }
  ((s0.setClerk c k1).pushFrame c pc (k1.status ||| (if going then 0x200 else 0))).acceptSource c prio src

/-- A more urgent offer before the first handler instruction: it replaces the accepted request, whose PEND is set again
(R338). -/
def State.replaceEntry (s : State) (c prio src old : Nat) : State :=
  let d := clerkDie c
  (s.acceptSource c prio src).setIcuSrc d old { s.icuSrc d old with pend := true }

/-- The mode changes that are due take effect; a request that waited for them is then taken before the first instruction after the
shadow (R77, R80). -/
def State.shadowEnd (s : State) (c : Nat) : State :=
  if (s.clerk c).shadow.any fun m => m.left == 0 then
    (let s1 := s.settleShadow c
     match s1.winner c with
     | some (p, src) => if (s1.clerk c).accepts p then s1.interruptEntry c p src else s1
     | none => s1)
  else s

end Sys2Proof.Machine
end

