-- ==== Sys2Proof/Machine/EpochClerk.lean ====
section
/-!
DEFINITION. The clerk's side of epochs: slots and tags, the checkpoint, the undo journal, held writes, and the clerk's
own steps of a settle and of a recall (spec 06).
-/
namespace Sys2Proof.Machine

/-- Slot `i` of a clerk. -/
def Clerk.slot (k : Clerk) (i : Nat) : EpSlot := k.slots.toList.getD i EpSlot.reset
/-- The clerk with slot `i` replaced. -/
def Clerk.setSlot (k : Clerk) (i : Nat) (e : EpSlot) : Clerk := { k with slots := k.slots.set! i e }
/-- Is slot `i` occupied? -/
def Clerk.slotOpen (k : Clerk) (i : Nat) : Bool := (k.slot i).state != .free
/-- The lowest-numbered FREE slot (R170, R180). -/
def Clerk.freeSlot (k : Clerk) : Option Nat := (List.range 4).find? fun i => !(k.slotOpen i)
/-- The youngest open slot: the current epoch (R164). -/
def Clerk.young (k : Clerk) : Option Nat :=
  (List.range 4).foldl (fun b i =>
    if k.slotOpen i then
      match b with
      | some j => if (k.slot j).seq < (k.slot i).seq then some i else b
      | none => some i
    else b) none
/-- The oldest open slot. -/
def Clerk.old (k : Clerk) : Option Nat :=
  (List.range 4).foldl (fun b i =>
    if k.slotOpen i then
      match b with
      | some j => if (k.slot i).seq < (k.slot j).seq then some i else b
      | none => some i
    else b) none
/-- Tag of the epoch in slot `i`; 0000h when FREE (R195). -/
def Clerk.slotTag (k : Clerk) (c i : Nat) : Word := if k.slotOpen i then tagWord c i (k.slot i).gen else 0
/-- Tag of the current epoch; 0000h outside one. -/
def Clerk.curTag (k : Clerk) (c : Nat) : Word :=
  match k.young with
  | some i => k.slotTag c i
  | none => 0
/-- Slot whose open epoch has tag `t` (R158). -/
def Clerk.slotOfTag (k : Clerk) (c : Nat) (t : Word) : Option Nat :=
  if t = 0 then none else (List.range 4).find? fun i => k.slotTag c i == t

/-- The checkpoint with its restart PC (R171). -/
def Clerk.checkpoint (k : Clerk) (pc : CodeAddr) : Checkpoint :=
  { w := k.w, s := k.s, a := k.a, status := k.status, rpt := k.rpt, isp := k.isp, excCause := k.excCause, pc := pc }

/-- A slot's generation after an open in it: 127 is followed by 1 (R163). -/
def nextGen (g : Nat) : Nat := if g ≥ 127 then 1 else g + 1

/-- Opens an epoch in slot `i`: generation, checkpoint, OPEN, STATUS.EP = 1 (R170, R180). The checkpoint holds STATUS as
it stands before the open. -/
def State.openSlot (s : State) (c i : Nat) (lineage : Bool) (depth : Nat) (mark : Word × Word × Word × Word) (d : Reg4)
    (parent : Word) (restart : CodeAddr) : State :=
  let k := s.clerk c
  let e : EpSlot := { state := .isOpen, gen := nextGen (k.slot i).gen, seq := k.epSeq, lineage := lineage, depth := depth,
                      mark := mark, dReg := d, parent := parent, chk := some (k.checkpoint restart), ending := none }
  let k1 := k.setSlot i e
  (s.setClerk c { k1 with epSeq := k.epSeq + 1, status := setEp k.status true }).bump (Reg.EP_OPENCNT c)

/-! ## Journal and held writes (R174, R175) -/

/-- Is there journal room for `n` more entries? -/
def Clerk.journalRoom (k : Clerk) (n : Nat) : Bool := decide (k.journal.length + n ≤ 256)
/-- Is there room in the held-write queue? -/
def Clerk.heldRoom (k : Clerk) : Bool := decide (k.held.length < 16)

/-- Writes private-store words of clerk `c`; inside an epoch each group is journalled as one entry first (R174). -/
def State.privWrite (s : State) (c : Nat) : List (List (Nat × Word)) → State
  | [] => s
  | g :: t =>
    let k := s.clerk c
    let s1 := if k.ep then
        s.setClerk c { k with journal :=
          { tag := k.curTag c, cells := g.map fun e => (e.1 % 0x8000, s.peek (privKey c e.1)) } :: k.journal }
      else s
    (g.foldl (fun (u : State) e => u.poke (privKey c e.1) e.2) s1).privWrite c t

/-- Restores the cells of a journal entry (R189). -/
def State.undoEntry (s : State) (c : Nat) (e : JEntry) : State :=
  e.cells.foldl (fun (u : State) x => u.poke (privKey c x.1) x.2) s

/-- Queues a held write of the current epoch (R175). -/
def State.holdWrite (s : State) (c port : Nat) (vals : List Word) : State :=
  s.modClerk c fun k => { k with held := k.held ++ [{ tag := k.curTag c, sup := k.sup, port := port, vals := vals }] }

/-! ## The clerk's steps of a settle (R185, step 4) -/

/-- Frees the journal entries and the slot of a settled epoch and lets its held writes begin; EP goes to 0 when no epoch
of the clerk remains open. -/
def State.clerkSettle (s : State) (tag : Word) : State :=
  let c := tagClerk tag
  let k := s.clerk c
  match k.slotOfTag c tag with
  | none => s
  | some i =>
    let k1 := k.setSlot i { k.slot i with state := .free, chk := none, ending := none }
    s.setClerk c { k1 with
      journal := k.journal.filter fun e => e.tag != tag,
      held := k.held.map fun h => if h.tag = tag then { h with tag := 0 } else h,
      status := if k1.young.isNone then setEp k.status false else k.status }

/-! ## The clerk's steps of a recall (R189) -/

/-- Tags of the epoch in slot `i` and of every younger one of the clerk. -/
def Clerk.recalledTags (k : Clerk) (c i : Nat) : List Word :=
  (List.range 4).filterMap fun j =>
    if k.slotOpen j ∧ (k.slot i).seq ≤ (k.slot j).seq then some (k.slotTag c j) else none

/-- Items 3, 4 and 7 of R189 for the epochs `tags`: journal written back youngest first, held writes discarded, slots
freed. -/
def State.undoEpochs (s : State) (c : Nat) (tags : List Word) : State :=
  let k := s.clerk c
  let s1 := (k.journal.filter fun e => tags.contains e.tag).foldl (fun u e => u.undoEntry c e) s
  let free := fun (k : Clerk) (i : Nat) =>
    if k.slotOpen i && tags.contains (k.slotTag c i) then
      k.setSlot i { k.slot i with state := .free, chk := none, ending := none }
    else k
  let k1 := (List.range 4).foldl free k
  s1.setClerk c { k1 with journal := k.journal.filter fun e => !(tags.contains e.tag),
                          held := k.held.filter fun h => !(tags.contains h.tag) }

/-- EP_LASTRC after the recall of E (R195). -/
def lastRc (tag : Word) (cause : Nat) (defer : Bool) : Word :=
  word (0x8000 + tagSlot tag * 8192 + flag defer 12 + cause % 16 * 256 + tagGen tag)

/-- The clerk restarts from the checkpoint of E, the oldest of its recalled epochs, with the recall word in the register
EOPEN named; a lineage epoch writes no register (R189, R192). -/
def State.clerkRestart (s : State) (c : Nat) (tag : Word) (cause : Nat) (defer : Bool) : State :=
  let s := s.squash c
  let k := s.clerk c
  match k.slotOfTag c tag with
  | none => s
  | some i =>
    let e := k.slot i
    let tags := k.recalledTags c i
    let s1 := (s.undoEpochs c tags).bumpBy (Reg.EP_RECALLCNT c) tags.length
    let k1 := s1.clerk c
    let older := k1.young.isSome
    match e.chk with
    | none => s1
    | some ch =>
      let s2 := s1.enterContext c (setEp ch.status older) k1.ctx
      let k2 := { (s2.clerk c).dropWaiting with
        w := ch.w, s := ch.s, a := ch.a, rpt := ch.rpt, isp := ch.isp, excCause := ch.excCause, pc := ch.pc,
        rep := none, shadow := [], entry := none, susp := false, deferred := none }
      let k3 := if e.lineage then k2 else k2.ww e.dReg (word (cause * 256))
      (s2.setClerk c k3).setReg (Reg.EP_LASTRC c) (lastRc tag cause defer)

end Sys2Proof.Machine
end

