-- ==== Sys2Proof/Machine/Mailbag.lean ====
section
/-!
DEFINITION. The mailbag engines: pushes, pops, the spill, drafts, retained copies and their registers (spec 07).
-/
namespace Sys2Proof.Machine

/-- The mailbag. -/
def State.bag (s : State) (n : Nat) : Bag := s.bags.getD n Bag.reset
/-- The state with mailbag `n` replaced. -/
def State.setBag (s : State) (n : Nat) (b : Bag) : State := { s with bags := s.bags.set n b }
/-- MB_CFG.EN. -/
def State.bagEn (s : State) (n : Nat) : Bool := bit (s.reg (Reg.MB_CFG n)) 15
/-- MB_SPLEN in blocks (R220). -/
def State.spLen (s : State) (n : Nat) : Nat := (s.reg (Reg.MB_SPLENL n)).toNat + 65536 * field (s.reg (Reg.MB_SPLENH n)) 0 3
/-- First DDR5 word of the spill region (R200, R220). -/
def State.spBase (s : State) (n : Nat) : Nat :=
  2048 * ((s.reg (Reg.MB_SPBASEL n)).toNat + 65536 * field (s.reg (Reg.MB_SPBASEH n)) 0 11)
/-- Capacity C (R198). -/
def State.bagCap (s : State) (n : Nat) : Nat := 16 + 3 * s.spLen n
/-- Marks of the sheets in the spill, oldest first. -/
def Bag.marks (b : Bag) : List SpillMark := (b.spill.map fun x => x.marks).flatten
/-- Every sheet that counts against C (R198). -/
def Bag.held (b : Bag) : Nat := b.head.length + b.tail.length + b.marks.length + b.retained.length
/-- The visible count (R209). -/
def Bag.visible (b : Bag) : Nat := b.head.length + b.tail.length + (b.marks.filter fun m => !m.removed).length
/-- Drafts in the visible count (R220). -/
def Bag.drafts (b : Bag) : Nat :=
  (b.head.filter fun i => i.tag != 0).length + (b.tail.filter fun i => i.tag != 0).length +
    (b.marks.filter fun m => !m.removed && m.tag != 0).length

/-- While the spill holds no block and the head has a free register, the oldest tail sheet moves to the head (R200). -/
def Bag.settle (b : Bag) : Bag :=
  if b.spill.isEmpty then
    let n := 8 - b.head.length
    { b with head := b.head ++ b.tail.take n, tail := b.tail.drop n }
  else b

/-- Mailbags of a die that hold something listed. -/
def State.bagsOf (s : State) (d : Nat) : List (Nat × Bag) := s.bags.filter fun e => bagDie e.1 == d
/-- Retained store of a die in use (R214). -/
def State.retainedCount (s : State) (d : Nat) : Nat := ((s.bagsOf d).map fun e => e.2.retained.length).sum
/-- Draft table of a die in use (R212): drafts in its mailbags, removed ones in the spill included. -/
def State.draftCount (s : State) (d : Nat) : Nat :=
  ((s.bagsOf d).map fun e => (e.2.head.filter fun i => i.tag != 0).length + (e.2.tail.filter fun i => i.tag != 0).length +
    (e.2.marks.filter fun m => m.tag != 0).length).sum
/-- The arrival buffer of a die (R204). -/
def State.arrivalsOf (s : State) (d : Nat) : List (Nat × BagItem) := s.arrivals.getD d []

/-- A condition of MBE_STAT occurs: its bit sets and the local source MBE gets one event (R221). -/
def State.mbeEvent (s : State) (d i : Nat) : State :=
  let s1 := s.setBits (Reg.MBE_STAT d) (word (2 ^ i))
  if isSort d then s1.raiseLocal d 0x63 1 else s1

/-- Raises the high-water mark to the visible count (R220). -/
def State.markHigh (s : State) (n : Nat) : State :=
  let v := (s.bag n).visible
  if s.reg2 (Reg.MB_HWMARKL n) (Reg.MB_HWMARKH n) < v then s.setReg2 (Reg.MB_HWMARKL n) (Reg.MB_HWMARKH n) v else s

/-- A sheet is dropped because its mailbag is full or disabled: dead letter MAILBAG_FULL (R205). -/
def State.dropFull (s : State) (n : Nat) (i : BagItem) : State :=
  ((s.bump (Reg.MB_FULLDROP n)).setBits (Reg.MB_STAT n) 0x4000).deadLetter 1 (bagDie n) (bagWords n i)

/-- A sheet is found uncorrectable: dead letter MAILBAG_ECC (R210, R211). -/
def State.dropEcc (s : State) (n : Nat) (i : BagItem) : State :=
  ((s.bump (Reg.MB_DEAD n)).setBits (Reg.MB_STAT n) 0x8000).deadLetter 2 (bagDie n) (bagWords n i)

/-- Tail sheets of a mailbag that a sleep entry has saved: they return to the tail if it is undone (R219, R373). -/
def State.savedTail (s : State) (n : Nat) : Nat :=
  match s.savedBags.find? n with
  | none => 0
  | some (h, blocks) =>
    let b := s.bag n
    (((b.spill.drop (b.spill.length - blocks)).map fun x => x.marks.length).sum) - h
/-- Does the engine have a place for the sheet now: a tail register, and a draft table entry for a draft (R204, R212)? -/
def State.bagRoom (s : State) (n : Nat) (i : BagItem) : Bool :=
  decide ((s.bag n).tail.length + s.savedTail n < 8) && (i.tag == 0 || decide (s.draftCount (bagDie n) < 1024))

/-- The sheet enters the mailbag (R199, R200); the draft table becoming full is an event (R221). -/
def State.bagEnter (s : State) (n : Nat) (i : BagItem) : State :=
  let b := s.bag n
  let s1 := (s.setBag n { b with tail := b.tail ++ [i] }.settle).markHigh n
  if i.tag != 0 && decide (s1.draftCount (bagDie n) = 1024) then s1.mbeEvent (bagDie n) 14 else s1

/-- Does an older sheet for the mailbag wait in the arrival buffer (R199)? -/
def State.bagAhead (s : State) (n : Nat) : Bool := (s.arrivalsOf (bagDie n)).any fun e => e.1 == n
/-- A sheet arrives by parcel: it enters, waits in the arrival buffer, or is dropped (R204, R205). The buffer becoming
full makes the engine hold its links (R221). -/
def State.bagArrive (s : State) (n : Nat) (i : BagItem) : State :=
  let d := bagDie n
  if !(s.bagEn n) || decide (s.bagCap n ≤ (s.bag n).held) then s.dropFull n i
  else if !(s.bagAhead n) && s.bagRoom n i then s.bagEnter n i
  else
    let q := s.arrivalsOf d ++ [(n, i)]
    let s1 := { s with arrivals := s.arrivals.set d q }
    if q.length = 32 then s1.mbeEvent d 13 else s1

/-- May another parcel arrive at die `d`'s engine, or does it hold its links (R204)? -/
def State.bagAccepts (s : State) (d : Nat) : Bool := decide ((s.arrivalsOf d).length < 32)

/-- The oldest entry of the arrival buffer that `p` names and that no older one of its mailbag stands before (R199). -/
def nextArrival (p : Nat × BagItem → Bool) : List (Nat × BagItem) → List Nat → Option (Nat × BagItem)
  | [], _ => none
  | e :: t, seen => if p e && !(seen.contains e.1) then some e else nextArrival p t (e.1 :: seen)
/-- Is a sheet for the mailbag dropped, since it is disabled or full (R205)? -/
def State.bagRefuses (s : State) (n : Nat) : Bool := !(s.bagEn n) || decide (s.bagCap n ≤ (s.bag n).held)
/-- The oldest parcel of the arrival buffer that can enter its mailbag does so (R204). -/
def State.drainArrivals (s : State) (d : Nat) : State :=
  match nextArrival (fun e => s.bagRefuses e.1 || s.bagRoom e.1 e.2) (s.arrivalsOf d) [] with
  | none => s
  | some e =>
    let s1 := { s with arrivals := s.arrivals.set d (dropFirst (· == e) (s.arrivalsOf d)) }
    if s1.bagRefuses e.1 then s1.dropFull e.1 e.2 else s1.bagEnter e.1 e.2

/-- A push has come to its mailbag's engine: it arrives, or it is held on the links behind an older push of the same source, or while
the arrival buffer is full (R199, R204). -/
def State.bagOffer (s : State) (src n : Nat) (i : BagItem) : State :=
  if s.bagAccepts (bagDie n) && !(s.msgs.any fun m => match m with
      | .push q b _ => q == src && b == n
      | _ => false) then s.bagArrive n i
  else s.send (.push src n i)
/-- A push to a mailbag from a die or a clerk: on the mailbag's own die the engine gets it directly; else it travels as a
parcel (R203). -/
def State.pushFrom (s : State) (src n : Nat) (i : BagItem) : State :=
  if pushDie src = bagDie n then s.bagOffer src n i
  else s.launch (.push src n i)
/-- The same for a push of a camera, charged to the route given (R231). -/
def State.pushOn (s : State) (rt src n : Nat) (i : BagItem) : State :=
  if pushDie src = bagDie n then s.bagOffer src n i
  else s.launchAs (s.isReserve rt) (.push src n i)

/-- An ordinary sheet with no flipped bit. -/
def ordinary (x : Sheet) : BagItem := { data := x, tag := 0, depth := 0, flips := 0 }

/-! ## Spill blocks (R200, R201, R211) -/

/-- One step of the CRC-8 with polynomial 07h over a bit (R201). -/
def crc8Bit (r : Nat) (b : Bool) : Nat :=
  let x := (r / 128) ^^^ (flag b 0)
  ((r * 2) % 256) ^^^ (if x = 1 then 7 else 0)
/-- CRC-8 of a byte, most significant bit first. -/
def crc8Byte (r n : Nat) : Nat := (List.range 8).foldl (fun q i => crc8Bit q (n.testBit (7 - i))) r
/-- HCRC over words 27 to 30 (each low byte first, R107) and the low byte of word 31 (R201). -/
def hcrc (ws : List Word) (low31 : Nat) : Nat :=
  crc8Byte (ws.foldl (fun r w => crc8Byte (crc8Byte r (w.toNat % 256)) (w.toNat / 256)) 0) low31

/-- Even parity of the bits of a number below 2^18. -/
def parity (n : Nat) : Nat := ((List.range 18).foldl (fun p i => p + flag (n.testBit i) 0) 0) % 2
/-- Check word of a sheet: its check bits, and depth − 1 of a draft (R201). -/
def checkWord (i : BagItem) : Word := word ((Config.secded i.data).toNat + (if i.tag = 0 then 0 else (i.depth - 1) % 4) * 512)
/-- TPAR bit of a sheet: parity of its tag word with bits 10:9 of its check word (R201). -/
def tparBit (chk tag : Word) : Nat := parity (tag.toNat * 4 + field chk 9 2)

/-- The 32 words of a spill block (R201). -/
def blockWords (is : List BagItem) (seq : Nat) : List Word :=
  let at_ := fun k => is.getD k (ordinary Sheet.zero)
  let chk := fun k => if k < is.length then checkWord (at_ k) else 0
  let tag := fun k => if k < is.length then (at_ k).tag else 0
  let tpar := tparBit (chk 0) (tag 0) * 32 + tparBit (chk 1) (tag 1) * 64 + tparBit (chk 2) (tag 2) * 128
  let low := tpar + is.length % 4
  let hd := [tag 0, tag 1, tag 2, word seq]
  (at_ 0).data.toList ++ (at_ 1).data.toList ++ (at_ 2).data.toList ++ [chk 0, chk 1, chk 2] ++ hd ++
    [word (hcrc hd low * 256 + low)]

/-- Address of block `i` of a mailbag's spill (R200). -/
def State.blockAddr (s : State) (n i : Nat) : Nat := s.spBase n + 32 * (i % max (s.spLen n) 1)

/-- The words of a spill block as they stand in DDR5. -/
def State.spillWords (s : State) (n : Nat) (blk : SpillBlock) : List Word := s.peeks (ddrKey (s.blockAddr n blk.idx)) 32
/-- Does a block pass its checks: SEQ, HCRC and FILL, and no uncorrectable burst (R211, R400)? -/
def State.blockGood (s : State) (n : Nat) (blk : SpillBlock) : Bool :=
  let ws := s.spillWords n blk
  let w31 := ws.getD 31 0
  ws.getD 30 0 == word blk.idx && decide (field w31 8 8 = hcrc ((ws.drop 27).take 4) (field w31 0 8)) &&
    decide (field w31 0 2 ≠ 0) && !(s.ddrUe (s.blockAddr n blk.idx) 32)
/-- The sheets of a block in order, each with its mark and whether the block and its tag word pass their checks (R211). -/
def State.savedItems (s : State) (n : Nat) (blk : SpillBlock) : List (SpillMark × BagItem × Bool) :=
  let ws := s.spillWords n blk
  let good := s.blockGood n blk
  ((List.range blk.marks.length).zip blk.marks).map fun p =>
    (p.2, { data := Sheet.ofList ((ws.drop (8 * p.1)).take 8), tag := p.2.tag, depth := p.2.depth, flips := p.2.flips },
      good && decide (tparBit (ws.getD (24 + p.1) 0) (ws.getD (27 + p.1) 0) = field (ws.getD 31 0) (5 + p.1) 1))

/-! ## Popping (R206 to R210) -/

/-- Pops down the head, dropping uncorrectable sheets: the sheet delivered, what is left of the head, the sheets
dropped. -/
def popHead : List BagItem → Option BagItem × List BagItem × List BagItem
  | [] => (none, [], [])
  | i :: t =>
    if 2 ≤ i.flips then
      let r := popHead t
      (r.1, r.2.1, i :: r.2.2)
    else (some i, t, [])

/-- Pops the oldest sheet that can be delivered: corrected and counted, or dropped when uncorrectable (R206, R210). -/
def State.bagPop (s : State) (n : Nat) : Option BagItem × State :=
  if !(s.bagEn n) then (none, s)
  else
    let b := s.bag n
    let all := if b.spill.isEmpty then b.head ++ b.tail else b.head
    let r := popHead all
    let rest := r.2.1
    let b1 := if b.spill.isEmpty then { b with head := rest.take 8, tail := rest.drop 8 } else { b with head := rest }
    let s1 := r.2.2.foldl (fun (u : State) i => (u.dropEcc n i).faultEvent 2 (bagDie n)) (s.setBag n b1)
    match r.1 with
    | none => (none, s1)
    | some i =>
      if i.flips = 1 then
        (some { i with flips := 0 }, ((s1.bump (Reg.MB_CORR n)).setBits (Reg.MB_STAT n) 0x2000).faultEvent 2 (bagDie n))
      else (some i, s1)

/-- Uncorrectable sheets that stand first are dropped, as a pop finds them, whether or not it then delivers (R210). -/
def State.dropBad (s : State) (n : Nat) : State :=
  let b := s.bag n
  let all := if b.spill.isEmpty then b.head ++ b.tail else b.head
  let bad := all.takeWhile fun i => decide (2 ≤ i.flips)
  if !(s.bagEn n) || bad.isEmpty then s
  else
    let rest := all.drop bad.length
    let b1 := if b.spill.isEmpty then { b with head := rest.take 8, tail := rest.drop 8 } else { b with head := rest }
    bad.foldl (fun (u : State) i => (u.dropEcc n i).faultEvent 2 (bagDie n)) (s.setBag n b1)
/-- The sheet a pop would take now, if the head or, with no spill, the tail holds one. -/
def State.bagNext (s : State) (n : Nat) : Option BagItem :=
  let b := s.bag n
  if !(s.bagEn n) then none
  else ((if b.spill.isEmpty then b.head ++ b.tail else b.head).find? fun i => decide (i.flips < 2))
/-- The next sheet to pop, wherever it stands: in the head, the spill or the tail (R208, R216). -/
def State.bagPeek (s : State) (n : Nat) : Option BagItem :=
  let b := s.bag n
  let spilled := (b.spill.map fun x => (s.savedItems n x).filterMap fun p => if p.1.removed || !p.2.2 then none else some p.2.1).flatten
  if !(s.bagEn n) then none else (b.head ++ spilled ++ b.tail).find? fun i => decide (i.flips < 2)

/-- Is a POP slot bound to the mailbag: the clerk and slot that hold it (R215)? -/
def State.popSlot (s : State) (n : Nat) : Option (Nat × Nat) :=
  let d := bagDie n
  let clerks := if d = 0 then [128, 129] else if isSort d then (List.range 32).map fun l => clerkOf d l else []
  clerks.findSome? fun c => (List.range 64).findSome? fun k =>
    let cfg := s.reg (Reg.SL_CFG c k)
    if field cfg 14 2 = 1 ∧ field cfg 7 3 = d ∧ field cfg 0 7 = n % 128 then some (c, k) else none

/-- Mailbag that a slot of clerk `c` is bound to, if it is bound in direction `dir` (1 POP, 2 PUSH) (R216). -/
def State.slotBag (s : State) (c k dir : Nat) : Option Nat :=
  let cfg := s.reg (Reg.SL_CFG c k)
  if field cfg 14 2 = dir then some (128 * field cfg 7 3 + field cfg 0 7) else none

/-- What a pop by a clerk comes to. -/
inductive PopResult where
  | wait (k : WaitKind) (s : State)
  | got (x : Sheet) (s : State)

/-- A global pop (MB_DATA0) of mailbag `n`: one sheet, or 0000h in every lane with EMPTYRD when there is nothing to
deliver; a draft is left in place (R208, R210). -/
def State.globalPop (s0 : State) (n : Nat) : Sheet × State :=
  let s := s0.dropBad n
  let none_ := (Sheet.zero, s.setBits (Reg.MB_STAT n) 0x1000)
  match s.bagNext n with
  | none => none_
  | some i =>
    if i.tag != 0 then none_
    else match s.bagPop n with
      | (some j, s1) => (j.data, s1)
      | (none, _) => none_

/-- The popped sheet is retained for the clerk's current epoch and journalled (R174, R177); the retained store becoming
full is an event (R221). -/
def State.retainPop (s : State) (c n : Nat) (i : BagItem) : State :=
  let k := s.clerk c
  let b := s.bag n
  let s1 := s.setBag n { b with retained := b.retained ++ [{ item := i, popper := k.curTag c }] }
  let s2 := s1.setClerk c { k with journal := { tag := k.curTag c, cells := [] } :: k.journal }
  if s2.retainedCount (bagDie n) = 256 then s2.mbeEvent (bagDie n) 15 else s2

/-- A pop by clerk `c` of mailbag `n` through its slot (R177, R180, R181, R206, R207, R214). A draft joins the current
epoch or opens a lineage epoch whose restart PC is the popping instruction's. -/
def State.clerkPop (s0 : State) (c n : Nat) : PopResult :=
  let s := s0.dropBad n
  let k := s.clerk c
  match s.bagNext n with
  | none => .wait .pop s
  | some i =>
    let finish := fun (u : State) =>
      match u.bagPop n with
      | (none, u1) => PopResult.wait .pop u1
      | (some j, u1) => .got j.data (if (u1.clerk c).ep then u1.retainPop c n j else u1)
    let room := decide (s.retainedCount (bagDie n) < 256)
    if i.tag = 0 then
      if k.ep then
        if !room then .wait .pop s else if !(k.journalRoom 1) then .wait .journal s else finish s
      else finish s
    else
      let joins := match k.young with
        | some y => k.ep && (k.slotTag c y == i.tag || ((k.slot y).lineage && (k.slot y).parent == i.tag))
        | none => false
      if decide (4 ≤ i.depth) || k.susp then .wait .pop s
      else if joins then
        if !room then .wait .pop s else if !(k.journalRoom 1) then .wait .journal s else finish s
      else if isPm c || !room then .wait .pop s
      else match k.freeSlot with
        | none => .wait .pop s
        | some y =>
          if !(k.journalRoom 1) then .wait .journal s
          else
            let s1 := s.openSlot c y true (i.depth + 1) (0, 0, 0, 0) 0 i.tag k.pc
            finish (s1.launch (.lineage ((s1.clerk c).slotTag c y) i.tag))

/-! ## The spill (R200 to R202, R211) -/

/-- Writes the sheets `is` to the spill as one block. -/
def State.writeBlock (s : State) (n : Nat) (is : List BagItem) : State :=
  let b := s.bag n
  let s1 := (s.passN 4 (bagDie n) 0).ddrWrite (s.blockAddr n b.nextBlock) (blockWords is b.nextBlock)
  s1.setBag n { b with
    spill := b.spill ++ [{ idx := b.nextBlock,
                           marks := is.map fun i => { tag := i.tag, depth := i.depth, removed := false, flips := i.flips } }],
    nextBlock := b.nextBlock + 1 }

/-- Is a block due to be written: the tail holds 3 sheets that cannot move to the head (R200)? -/
def State.spillDue (s : State) (n : Nat) : Bool :=
  let b := s.bag n
  decide (3 ≤ b.tail.length) && decide (b.spill.length < s.spLen n) && (!b.spill.isEmpty || decide (8 ≤ b.head.length))

/-- Takes a DDR stamp of the mailbag's route for one block, or notes that the block waits (R202, R445). -/
def State.spillStamp (s : State) (n : Nat) (f : State → State) : State :=
  let rt := field (s.reg (Reg.MB_CFG n)) 0 8
  if s.hasStamp 0 rt 1 then f (s.takeStamp 0 rt 1)
  else s.noteWait rt 1

/-- SPILL_BLOCK_WRITE: the oldest three tail sheets go to the spill as one block (R200, R202). -/
def State.spillWrite (s : State) (n : Nat) : State :=
  if s.spillDue n then s.spillStamp n fun u =>
    let b := u.bag n
    (u.setBag n { b with tail := b.tail.drop 3 }).writeBlock n (b.tail.take 3)
  else s

/-- Is a block due to be read back: the spill holds one and the head has 3 free registers (R200)? -/
def State.refillDue (s : State) (n : Nat) : Bool := !(s.bag n).spill.isEmpty && decide ((s.bag n).head.length ≤ 5)
/-- One sheet of a block read back: discarded if a recall removed it, dropped if a check fails, else entered in the head with the
tag the draft table still gives it (R211, R213). -/
def State.takeSpilled (s : State) (n : Nat) (p : SpillMark × BagItem × Bool) : State :=
  if p.1.removed then s
  else if !p.2.2 then s.dropEcc n p.2.1
  else s.setBag n { s.bag n with head := (s.bag n).head ++ [p.2.1] }
/-- SPILL_BLOCK_READ: the oldest block is read into the head and checked; a block whose SEQ, HCRC or FILL is wrong is
dropped whole (R200, R211). -/
def State.spillRead (s : State) (n : Nat) : State :=
  match (s.bag n).spill with
  | [] => s
  | blk :: rest =>
    if !(s.refillDue n) then s
    else s.spillStamp n fun u =>
      let r := (u.passRoute (bagDie n) 0).ddrDemand (u.blockAddr n blk.idx) 32 false
      let u1 := (r.passN 4 0 (bagDie n)).setBag n { (u.bag n) with spill := rest }
      let u2 := (u.savedItems n blk).foldl (fun (v : State) p => v.takeSpilled n p) u1
      let u3 := if u.blockGood n blk then u2 else u2.faultEvent 2 (bagDie n)
      u3.setBag n (u3.bag n).settle

/-! ## Settle and recall at an engine (R179, R185, R193, R213, R214) -/

/-- A settled epoch's drafts become ordinary in place, and the copies its pops retained are discarded. -/
def Bag.settleTag (b : Bag) (tag : Word) : Bag :=
  let fix := fun (i : BagItem) => if i.tag = tag then { i with tag := 0, depth := 0 } else i
  { b with
    head := b.head.map fix, tail := b.tail.map fix,
    spill := b.spill.map fun x =>
      { x with marks := x.marks.map fun m => if m.tag = tag ∧ !m.removed then { m with tag := 0, depth := 0 } else m },
    retained := (b.retained.filter fun r => r.popper != tag).map fun r => { r with item := fix r.item } }

/-- A recalled set's drafts are removed, and the sheets its epochs popped go back ahead of every sheet, in their original
order, except drafts of the set itself. -/
def Bag.recallTags (b : Bag) (tags : List Word) : Bag :=
  let back := (b.retained.filter fun r => tags.contains r.popper && !(tags.contains r.item.tag)).map fun r => r.item
  Bag.settle { b with
    head := back ++ b.head.filter fun i => !(tags.contains i.tag), tail := b.tail.filter fun i => !(tags.contains i.tag),
    spill := b.spill.map fun x =>
      { x with marks := x.marks.map fun m => if tags.contains m.tag then { m with removed := true } else m },
    retained := b.retained.filter fun r => !(tags.contains r.popper) && !(tags.contains r.item.tag) }

/-- Every mailbag of die `d` changed by `f`. -/
def State.mapBags (s : State) (d : Nat) (f : Bag → Bag) : State :=
  { s with bags := s.bags.map fun e => if bagDie e.1 = d then (e.1, f e.2) else e }

/-- A settle parcel at the engine of die `d` (R185, step 3). -/
def State.mbeSettle (s : State) (d : Nat) (tag : Word) : State :=
  let s1 := s.mapBags d fun b => b.settleTag tag
  { s1 with arrivals := s1.arrivals.set d ((s1.arrivalsOf d).map fun e =>
      if e.2.tag = tag then (e.1, { e.2 with tag := 0, depth := 0 }) else e) }

/-- Raises the high-water marks of every mailbag of die `d` (R220). -/
def State.markAll (s : State) (d : Nat) : State := (s.bagsOf d).foldl (fun t e => t.markHigh e.1) s
/-- A recall parcel at the engine of die `d` (R193, step 4); drafts of the set in its arrival buffer go too. Drafts that return may
fill the draft table (R221). -/
def State.mbeRecall (s : State) (d : Nat) (tags : List Word) : State :=
  let s1 := s.mapBags d fun b => b.recallTags tags
  let s2 := ({ s1 with arrivals := s1.arrivals.set d ((s1.arrivalsOf d).filter fun e => !(tags.contains e.2.tag)) }).markAll d
  if s.draftCount d < 1024 ∧ 1024 ≤ s2.draftCount d then s2.mbeEvent d 14 else s2

/-- MB_CTL.FLUSH: every ordinary visible sheet is discarded; drafts and retained copies stay (R220). -/
def Bag.flush (b : Bag) : Bag :=
  Bag.settle { b with
    head := b.head.filter fun i => i.tag != 0, tail := b.tail.filter fun i => i.tag != 0,
    spill := b.spill.map fun x =>
      { x with marks := x.marks.map fun m => if m.tag = 0 then { m with removed := true } else m } }

/-- MB_CTL.CLRCNT: the counters go to 0 and the high-water mark to the present visible count (R220). -/
def State.mbClrcnt (s : State) (n : Nat) : State :=
  (s.zeroRegs [Reg.MB_CORR n, Reg.MB_DEAD n, Reg.MB_FULLDROP n]).setReg2 (Reg.MB_HWMARKL n) (Reg.MB_HWMARKH n)
    (s.bag n).visible

end Sys2Proof.Machine
end

