-- ==== Sys2Proof/Machine/AxisCore.lean ====
section
/-!
DEFINITION. Axis positions: interpolation, mains phase offset, copies, the REF axis, angles and dueness (spec 02).
-/
namespace Sys2Proof.Machine

/-- The axis master. -/
def State.axis (s : State) (n : Nat) : Axis := s.axes.getD n Axis.reset
/-- The state with axis `n` replaced. -/
def State.setAxis (s : State) (n : Nat) (a : Axis) : State := { s with axes := s.axes.set n a }
/-- AXn_CFG.SRC; AX15 is always REF (R25). -/
def State.axSrc (s : State) (n : Nat) : Nat := if n = 15 then 4 else field (s.reg (Reg.AX_CFG n)) 12 4
/-- AXn_CFG.SEL. -/
def State.axSel (s : State) (n : Nat) : Nat := field (s.reg (Reg.AX_CFG n)) 8 4
/-- S = 2^SPAN (R27). -/
def State.axSpan (s : State) (n : Nat) : Nat := 2 ^ field (s.reg (Reg.AX_CFG n)) 3 3
/-- The signed value of a word. -/
def signed (w : Word) : Int := w.toInt
/-- The signed serial difference of two positions, modulo 2^48. -/
def serialDiff (a b : Pos) : Int := (a - b).toInt
/-- A position from an integer and a fraction. -/
def mkPos (i : Nat) (f : Nat) : Pos := BitVec.ofNat 48 (i * 65536 + f)
/-- The 32-bit integer of a position. -/
def posInt (p : Pos) : Nat := p.toNat / 65536
/-- The fraction of a position. -/
def posFrac (p : Pos) : Nat := p.toNat % 65536

/-- The interpolated part at tick `now`, clamped at FFFFh (R28). -/
def Axis.interp (a : Axis) (now : Nat) : Nat :=
  if a.tpred = 0 then 0xFFFF else min ((now - a.t0) * 65536 / a.tpred) 0xFFFF

/-- Position of an encoder or mains axis at tick `now`, before any phase offset (R28, R38). -/
def Axis.rawPos (a : Axis) (now : Nat) : Pos :=
  if a.state = .track then
    if a.fromSet then mkPos a.int.toNat (min (a.base.toNat + a.interp now) 0xFFFF)
    else if a.back then mkPos a.int.toNat 0 - BitVec.ofNat 48 (a.interp now)
    else mkPos a.int.toNat (a.interp now)
  else a.pos

/-- The increment of a COPY for a change of its source, with the remainder carried (R31). -/
def copyStep (delta : Int) (rem : Nat) (num : Int) (den : Nat) : Int × Nat :=
  let t := delta * num + rem
  (t / (max den 1 : Nat), (t % (max den 1 : Nat)).toNat)

/-- Master position of axis `n` at the present tick; `fuel` bounds the chain of copies (R25 to R32). -/
def State.posFuel (s : State) : Nat → Nat → Pos
  | 0, _ => 0
  | fuel + 1, n =>
    let a := s.axis n
    match s.axSrc n with
    | 1 => a.rawPos s.now
    | 2 => a.rawPos s.now + BitVec.ofInt 48 (signed (s.reg (Reg.AX_PHOFS n)))
    | 3 =>
      let src := s.posFuel fuel (s.axSel n)
      let r := copyStep (serialDiff src a.srcPos) a.rem (signed (s.reg (Reg.AX_NUM n))) (s.reg (Reg.AX_DEN n)).toNat
      a.pos + BitVec.ofInt 48 r.1
    | 4 => s.ax15
    | _ => 0
/-- Master position of axis `n` (R26). -/
def State.axPos (s : State) (n : Nat) : Pos := s.posFuel 17 n

/-- State of axis `n`; a copy shows its source's, AX15 shows TRACK (R33). -/
def State.axStateFuel (s : State) : Nat → Nat → AxState
  | 0, _ => .off
  | fuel + 1, n =>
    match s.axSrc n with
    | 1 => (s.axis n).state
    | 2 => (s.axis n).state
    | 3 => s.axStateFuel fuel (s.axSel n)
    | 4 => .track
    | _ => .off
/-- State of axis `n`. -/
def State.axState (s : State) (n : Nat) : AxState := s.axStateFuel 17 n
/-- The code of an axis state (R33). -/
def AxState.code : AxState → Nat
  | .off => 0 | .acquire => 1 | .track => 2 | .stopped => 3 | .lost => 4

/-- TPRED of axis `n`; a copy's is its source's scaled by DEN / |NUM|, saturating (R31, R535). AX15 counts one per
microsecond: 200 ticks. -/
def State.tpredFuel (s : State) : Nat → Nat → Nat
  | 0, _ => 0
  | fuel + 1, n =>
    match s.axSrc n with
    | 3 =>
      let num := (signed (s.reg (Reg.AX_NUM n))).natAbs
      if num = 0 then 0xFFFFFF
      else min (s.tpredFuel fuel (s.axSel n) * (s.reg (Reg.AX_DEN n)).toNat / num) 0xFFFFFF
    | 4 => 200
    | _ => (s.axis n).tpred
/-- TPRED of axis `n`. -/
def State.axTpred (s : State) (n : Nat) : Nat := s.tpredFuel 17 n

/-- The angle: the integer modulo MOD with the same fraction; the position itself when MOD is 0 (R39). -/
def State.axAngle (s : State) (n : Nat) : Pos :=
  let m := s.reg2 (Reg.AX_MODL n) (Reg.AX_MODH n)
  let p := s.axPos n
  if m = 0 then p else mkPos (posInt p % m) (posFrac p)

/-- Does an axis give round boundaries (R45)? -/
def State.axRounds (s : State) (n : Nat) : Bool :=
  match s.axState n with
  | .stopped => false | .lost => false | .off => false | _ => true

/-! ## Dueness (R41, R42) -/

/-- L of the forward-due test. -/
def lateness (p m : Pos) (back : Bool) : Nat := if back then (m - p).toNat else (p - m).toNat
/-- Is a mark due? -/
def due (p m : Pos) (back : Bool) : Bool := decide (lateness p m back < 2 ^ 47)
/-- Is a mark due and stale? -/
def stale (p m : Pos) (back : Bool) (late : Nat) : Bool :=
  due p m back && decide (late ≠ 0) && decide (lateness p m back > late * 65536)

/-- Axis named by postmark word 0 (R41). -/
def markAxis (w0 : Word) : Nat := field w0 12 4
/-- DIR of postmark word 0. -/
def markBack (w0 : Word) : Bool := bit w0 11
/-- LATE of postmark word 0. -/
def markLate (w0 : Word) : Nat := field w0 0 8
/-- The 48-bit mark in lanes 1 to 3 of an entry. -/
def markPos (frac lo hi : Word) : Pos := BitVec.ofNat 48 (frac.toNat + lo.toNat * 65536 + hi.toNat * 2 ^ 32)

/-! ## Following a source -/

/-- Freezes an axis that leaves TRACK at its present position (R28). -/
def Axis.freeze (a : Axis) (now : Nat) : Axis := { a with pos := a.rawPos now }

/-- A copy takes up the increments of its source so far, so that a change of NUM, DEN or its position acts from here on
(R31, R38). -/
def State.syncCopy (s : State) (n : Nat) : State :=
  if s.axSrc n = 3 then
    let a := s.axis n
    let src := s.axPos (s.axSel n)
    let r := copyStep (serialDiff src a.srcPos) a.rem (signed (s.reg (Reg.AX_NUM n))) (s.reg (Reg.AX_DEN n)).toNat
    s.setAxis n { a with pos := a.pos + BitVec.ofInt 48 r.1, rem := r.2, srcPos := src }
  else s

/-- Replaces the master position by a SET or a CORRECT move: interpolation restarts with elapsed time 0 (R38, R40). -/
def State.movePos (s : State) (n : Nat) (p : Pos) : State :=
  match s.axSrc n with
  | 2 =>
    let q := p - BitVec.ofInt 48 (signed (s.reg (Reg.AX_PHOFS n)))
    s.setAxis n { s.axis n with int := BitVec.ofNat 32 (posInt q), base := BitVec.ofNat 16 (posFrac q), pos := q,
                                t0 := s.now, fromSet := true }
  | 3 => (s.syncCopy n).setAxis n { (s.syncCopy n).axis n with pos := p, rem := 0 }
  | _ => s.setAxis n { s.axis n with int := BitVec.ofNat 32 (posInt p), base := BitVec.ofNat 16 (posFrac p), pos := p,
                                     t0 := s.now, fromSet := true }

end Sys2Proof.Machine
end

