-- ==== Sys2Proof/Machine/Firing.lean ====
section
/-!
DEFINITION. The firing engine: channels, their modes, their causes of SAFE, the safe inputs, refresh rounds and GPIO
(spec 10, R285 to R299).
-/
namespace Sys2Proof.Machine

/-- The channel. -/
def State.chan (s : State) (n : Nat) : Chan := s.chans.getD n Chan.reset
/-- The state with channel `n` replaced. -/
def State.setChan (s : State) (n : Nat) (c : Chan) : State := { s with chans := s.chans.set n c }
/-- CH_CFG.EN. -/
def State.chEn (s : State) (n : Nat) : Bool := bit (s.reg (Reg.CH_CFG n)) 15
/-- CH_CFG.MODE (R287). -/
def State.chMode (s : State) (n : Nat) : Nat := field (s.reg (Reg.CH_CFG n)) 12 3
/-- CH_CFG.AXIS. -/
def State.chAxis (s : State) (n : Nat) : Nat := field (s.reg (Reg.CH_CFG n)) 4 4

/-- Bits of `Chan.causes`, as CH_STAT bits 9:4 stand (R291). -/
def causeMains : Nat := 1
def causeRefresh : Nat := 2
def causeHold : Nat := 4
def causeService : Nat := 8
def causeDieOut : Nat := 16
def causeSafeIn : Nat := 32

/-- Is either safe input low (R290)? -/
def State.safeLow (s : State) : Bool := s.fe.aLow || s.fe.bLow
/-- DISPATCH is declared out and not yet re-admitted (R23, R291). -/
def State.dispatchIsOut (s : State) : Bool := s.fe.gate || (s.die 7).state == .out
/-- The R290 gate: either input low, or DISPATCH declared out (R23). -/
def State.forced (s : State) : Bool := s.safeLow || s.dispatchIsOut
/-- Is FE_STAT.DISCREP set? -/
def State.discrep (s : State) : Bool := bit (s.reg Reg.FE_STAT) 14

/-- A W1C bit of OB_STAT sets: event OB_EVENT (R329). -/
def State.obEvent (s : State) (i : Nat) : State := (s.setBits Reg.OB_STAT (word (2 ^ i))).raiseGlobal 0x48

/-- A channel gets a cause: it enters SAFE, driving its safe level; entering sets SAFEEV and raises CH_SAFE (R285, R291). -/
def State.enterSafe (s : State) (n cause : Nat) : State :=
  let c := s.chan n
  if c.state = .off then s
  else
    let s1 := s.setChan n { c with state := .safe, causes := c.causes ||| cause, driving := false, endAt := none }
    if c.state = .safe then s1 else (s1.setBits (Reg.CH_STAT n) 0x8000).raiseGlobal 0x49

/-- Every channel gets a cause. -/
def State.allSafe (s : State) (cause : Nat) : State := (List.range 64).foldl (fun t n => t.enterSafe n cause) s

/-- A channel returns to ACTIVE: last action for LEVEL, PWM and BURST, idle for PHASE and PULSE (R291). -/
def State.resumeChan (s : State) (n : Nat) : State :=
  let c := s.chan n
  s.setChan n { c with state := .active, acc := 0, pwmNext := none, endAt := none, unit := none, govern := none, conduct := false,
                       driving := s.chMode n == 0 && bit (s.reg (Reg.CH_ACT0 n)) 0 }

/-- Causes of a channel end; with none left it leaves SAFE (R291). -/
def State.endCauses (s : State) (n mask : Nat) : State :=
  let c := s.chan n
  if c.state ≠ .safe then s
  else
    let left := c.causes &&& (63 - mask % 64)
    let s1 := s.setChan n { c with causes := left }
    if left ≠ 0 then s1
    else if c.hasEntry then s1.resumeChan n
    else s1.setChan n { s1.chan n with state := .waiting }

/-- The causes whose entering condition holds for channel `n` when it is enabled (R285). -/
def State.causesNow (s : State) (n : Nat) : Nat :=
  (if s.safeLow then causeSafeIn else 0) + (if s.dispatchIsOut then causeDieOut else 0) +
    (if s.mode = 7 then causeService else 0) + (if s.padHold.testBit 1 then causeHold else 0) +
    (if s.chMode n = 2 ∧ s.axState (s.chAxis n) = .lost then causeMains else 0)

/-- The causes an entry released to a channel in SAFE clears: REFRESH; HOLD once VIO2's pad hold is released; MAINS once
the axis is back in TRACK (R291). -/
def State.entryClears (s : State) (n : Nat) : Nat :=
  causeRefresh + (if s.padHold.testBit 1 then 0 else causeHold) +
    (if s.axState (s.chAxis n) = .track then causeMains else 0)

/-- A released entry is dropped as OUTBOX_FORMAT (R276, R286). -/
def State.dropFormat (s : State) (e : Sheet) : State :=
  ((s.bump Reg.OB_FORMAT).obEvent 14).deadLetter 9 7 (entryWords e)

/-- A released entry becomes the channel's action (R286, R287). -/
def State.applyAction (s : State) (n : Nat) (e : Sheet) : State :=
  let us := s.refUs
  let s1 := (((s.bump (Reg.CH_APPLIED n)).setReg (Reg.CH_ACT0 n) e.l5).setReg (Reg.CH_ACT1 n) e.l6).setReg2
    (Reg.CH_LASTL n) (Reg.CH_LASTH n) (us % 2 ^ 32)
  let s2 := if (s1.chan n).state = .active then s1 else s1.resumeChan n
  let c := { s2.chan n with hasEntry := true, refr := 0 }
  match s.chMode n with
  | 0 => s2.setChan n { c with driving := bit e.l5 0 }
  | 4 => s2.setChan n (if e.l5 = 0 then { c with driving := false, endAt := none }
                       else { c with driving := true, endAt := some (s.now + e.l5.toNat * 200) })
  | _ => s2.setChan n c

/-- A released entry reaches direct channel `n` (R286). -/
def State.fireEntry (s : State) (n : Nat) (e : Sheet) : State :=
  if !(s.chEn n) then s.dropFormat e
  else if field e.l6 0 3 ≠ s.chMode n then
    (((s.bump Reg.OB_MODE).obEvent 13).setBits (Reg.CH_STAT n) 0x4000).deadLetter 0xB 7 (entryWords e)
  else if (s.chan n).state = .safe then
    let s1 := (s.bump (Reg.CH_SUPP n)).bump Reg.OB_SUPP
    (s1.setChan n { s1.chan n with hasEntry := true, refr := 0 }).endCauses n (s.entryClears n)
  else s.applyAction n e

/-- May a write of CH_CFG go through (R289, R299, R508)? -/
def State.chCfgOk (s : State) (n : Nat) (v : Word) : Bool :=
  let mode := field v 12 3
  let old := s.reg (Reg.CH_CFG n)
  let p0 := s.reg (Reg.CH_P0 n)
  let p1 := (s.reg (Reg.CH_P1 n)).toNat
  let limits := match mode with
    | 1 => bit p0 0 || decide (p1 < 0x8000)
    | 2 => decide (p1 < 0x8000)
    | 3 => decide (2 ≤ p0.toNat) && decide (p1 < p0.toNat)
    | _ => true
  decide (mode ≤ 4) && decide (field v 9 2 ≠ 3) &&
    (!(decide (mode = 1) || decide (mode = 2)) || decide (s.axSrc (field v 4 4) = 2)) &&
    (!(bit v 15) || (limits && s.padEn (0x100 + n))) && (!(bit old 15) || decide (v &&& 0x7EF0 = old &&& 0x7EF0))

/-- A channel's CH_CFG is set: EN going to 1 puts it in WAITING, or in SAFE with the causes that hold; EN = 0 in OFF
(R285). -/
def State.chEnable (s : State) (n : Nat) (v : Word) : State :=
  let was := s.chEn n
  let s1 := s.setReg (Reg.CH_CFG n) (v &&& 0xFEF0)
  if !(bit v 15) then s1.setChan n { Chan.reset with state := .off }
  else if was then s1
  else
    let s2 := s1.setChan n { Chan.reset with state := .waiting }
    let cs := s2.causesNow n
    if cs = 0 then s2 else s2.enterSafe n cs

/-- A write of CH_CFG (R285, R289). -/
def State.chCfgWrite (s : State) (n : Nat) (v : Word) : State :=
  if s.chCfgOk n v then s.chEnable n v else s.setBits (Reg.CH_STAT n) 0x2000

/-- A write of CH_P0 or CH_P1: refused while EN = 1 if it changes anything (R299). -/
def State.chParamWrite (s : State) (n k : Nat) (v : Word) : State :=
  if s.chEn n ∧ s.reg k ≠ v then s.setBits (Reg.CH_STAT n) 0x2000 else s.setReg k v

/-! ## Modes (R287, R288) -/

/-- Length of a BURST unit in fraction units: a half-cycle, or a cycle with CYC = 1. -/
def State.burstUnit (s : State) (n : Nat) : Nat := if bit (s.reg (Reg.CH_P0 n)) 0 then 0x10000 else 0x8000

/-- A PWM period starts and applies the duty (R287, R288). -/
def State.pwmStart (s : State) (n : Nat) : State :=
  let c := s.chan n
  let t := (s.reg (Reg.CH_P0 n)).toNat
  let starts : Bool := match c.pwmNext with
    | none => decide (posInt s.ax15 % max t 1 = (s.reg (Reg.CH_P1 n)).toNat)
    | some us => decide (us ≤ s.refUs)
  if c.state = .active ∧ s.chMode n = 3 ∧ starts = true then
    let u := (s.reg (Reg.CH_ACT0 n)).toNat
    let ticks := u * t * 200 / 65536
    s.setChan n { c with pwmNext := some ((c.pwmNext.getD s.refUs) + t), driving := decide (u = 0xFFFF) || decide (0 < ticks),
                         endAt := if u = 0xFFFF then none else some (s.now + ticks) }
  else s

/-- The active time of a PWM period, a PULSE or a timed PHASE gate ends (R287). -/
def State.endActive (s : State) (n mode : Nat) : State :=
  let c := s.chan n
  match c.endAt with
  | some t => if c.state = .active ∧ s.chMode n = mode ∧ t ≤ s.now then s.setChan n { c with driving := false, endAt := none }
              else s
  | none => s

/-- Half-cycle index of a PHASE channel's axis, and the position within it. -/
def State.halfCycle (s : State) (n : Nat) : Nat × Nat :=
  let p := (s.axPos (s.chAxis n)).toNat
  (p / 0x8000, p % 0x8000)

/-- Length of the channel's unit: of a BURST unit, or a half-cycle (R287). -/
def State.unitLen (s : State) (n : Nat) : Nat := if s.chMode n = 1 then s.burstUnit n else 0x8000
/-- The unit in progress on the channel's axis. -/
def State.unitNow (s : State) (n : Nat) : Nat := (s.axPos (s.chAxis n)).toNat / s.unitLen n
/-- The unit whose point passed last: for BURST its decision point, start minus LEAD; for PHASE start plus 0080h (R287). -/
def State.pointNow (s : State) (n : Nat) : Nat :=
  let p := (s.axPos (s.chAxis n)).toNat
  (if s.chMode n = 1 then (p + (s.reg (Reg.CH_P1 n)).toNat) % 2 ^ 48 else (p + (2 ^ 48 - 0x80)) % 2 ^ 48) / s.unitLen n

/-- A new unit begins: a BURST channel drives it at the level decided for it, if the axis is in TRACK; a PHASE gate of width 0
has ended (R287, R289). -/
def State.beginUnit (s : State) (n : Nat) : State :=
  let c := s.chan n
  let u := s.unitNow n
  if c.begun.map Prod.fst = some u then s
  else
    let ok := s.axState (s.chAxis n) == .track
    let on := if s.chMode n = 1 then ok && c.unit == some u && c.conduct else c.driving && c.endAt.isSome
    s.setChan n { c with begun := some (u, ok), driving := on }
/-- A unit's point passes: on an ACTIVE channel whose axis is in TRACK, the action in force governs that unit; a PHASE
half-cycle that did not begin in TRACK is not started (R287, R289). -/
def State.passPoint (s : State) (n : Nat) : State :=
  let c := s.chan n
  let u := s.pointNow n
  if c.point = some u then s
  else
    let ok := c.point.isSome && c.state == .active && s.axState (s.chAxis n) == .track &&
      (s.chMode n == 1 || c.begun == some (u, true))
    s.setChan n { c with point := some u,
                         govern := if ok then some (u, (s.reg (Reg.CH_ACT0 n)).toNat) else c.govern }
/-- A BURST or PHASE channel follows its axis; a lost axis resets acc (R287, R289). -/
def State.tickChan (s : State) (n : Nat) : State :=
  if (s.chan n).state = .off ∨ ¬(s.chMode n = 1 ∨ s.chMode n = 2) then s
  else
    let s1 := (s.beginUnit n).passPoint n
    if s.chMode n = 1 ∧ s.axState (s.chAxis n) = .lost then s1.setChan n { s1.chan n with acc := 0 } else s1

/-- A BURST channel decides a unit by sigma-delta, by the action in force at its decision point (R287). A unit that has begun
in TRACK is driven at once. -/
def State.burstDecide (s : State) (n : Nat) : State :=
  let s1 := s.tickChan n
  let c := s1.chan n
  match c.govern with
  | some (u, d) =>
    if c.state = .active ∧ s1.chMode n = 1 ∧ s1.axState (s1.chAxis n) = .track ∧ c.unit ≠ some u then
      let on := decide (65536 ≤ c.acc + d)
      s1.setChan n { c with unit := some u, acc := if on then c.acc + d - 65536 else c.acc + d, conduct := on,
                            driving := if c.begun = some (u, true) then on else c.driving }
    else s1
  | none => s1

/-- A PHASE channel turns on at start plus max(D, 0080h), once a half-cycle (R287). -/
def State.phaseOn (s : State) (n : Nat) : State :=
  let s1 := s.tickChan n
  let c := s1.chan n
  let h := s1.halfCycle n
  let gate := (s1.reg (Reg.CH_P0 n)).toNat
  match c.govern with
  | some (u, d) =>
    if c.state = .active ∧ s1.chMode n = 2 ∧ s1.axState (s1.chAxis n) = .track ∧ u = h.1 ∧ c.unit ≠ some u ∧
        max d 0x80 ≤ h.2 ∧ d + (s1.reg (Reg.CH_P1 n)).toNat < 0x8000 then
      s1.setChan n { c with unit := some u, driving := true,
                            endAt := if gate = 0 then none else some (s1.now + gate * 200) }
    else s1
  | none => s1

/-- A PHASE gate ends after its width, or with width 0 at LEAD before the next start (R287). -/
def State.phaseOff (s : State) (n : Nat) : State :=
  let c := s.chan n
  let h := s.halfCycle n
  if c.state = .active ∧ s.chMode n = 2 ∧ c.endAt = none ∧ c.driving ∧
      (c.unit ≠ some h.1 ∨ 0x8000 ≤ h.2 + (s.reg (Reg.CH_P1 n)).toNat) then
    s.setChan n { c with driving := false }
  else s.endActive n 2

/-- Is the FIRING domain on (R349)? -/
def State.firingOn (s : State) : Bool := bit (s.reg (Reg.PWR_ON 3)) 6

/-- Level of a firing pad now: none for high impedance. The pad is high impedance while it is not in use, or until
DISPATCH's configuration completes; while VIO2 is held it keeps the level latched at D5, which is its safe level; it is at
the safe level while the gate forces, or the engine's domain is off (R285, R289, R290, R381, R382, R473, R508). -/
def State.padLevel (s : State) (n : Nat) : Option Bool :=
  let cfg := s.reg (Reg.CH_CFG n)
  let c := s.chan n
  let safe := match field cfg 9 2 with
    | 0 => some false
    | 1 => some true
    | _ => none
  if s.padHold.testBit 1 then s.heldFire.getD n safe
  else if !(s.padEn (0x100 + n)) then none
  else if s.forced || !s.firingOn || c.state != .active then safe
  else
    let m := s.chMode n
    let ok := !(m == 1 || m == 2) || s.axState (s.chAxis n) == .track
    some ((c.driving && ok) != bit cfg 11)

/-! ## Safe inputs and refresh (R290 to R293) -/

/-- HSAFE is set while the gate forces, DISCREP is set, or the device is in SERVICE (R320). -/
def State.updHsafe (s : State) : State :=
  if s.forced || s.discrep || s.mode == 7 then { s with fe := { s.fe with hsafe := true } } else s

/-- ZP_STAT.HSAFE (R320). -/
def State.hsafe (s : State) : Bool := s.fe.hsafe || s.forced || s.discrep || s.mode == 7

/-- A counted fall or difference of the safe inputs (R291). -/
def State.countSafe (s : State) : State :=
  ((s.setBits Reg.FE_STAT 0x8000).bump Reg.FE_SAFECNT).raiseGlobal 0x46

/-- A safe input falls: every channel gets SAFEIN; falls are counted while the engine watches (R290, R291). -/
def State.safeFall (s : State) (b : Bool) : State :=
  let f := s.fe
  let f1 := if b then { f with bLow := true } else { f with aLow := true }
  let f2 := { f1 with diffAt := if f1.aLow = f1.bLow then none else some s.now }
  let was := if b then f.bLow else f.aLow
  if was then s
  else
    let s1 := { s with fe := f2 }
    if f.watching then (s1.countSafe.allSafe causeSafeIn).updHsafe else s1

/-- A safe input rises; a rise that makes the inputs differ counts as a fall does (R291). -/
def State.safeRise (s : State) (b : Bool) : State :=
  let f := s.fe
  let f1 := if b then { f with bLow := false } else { f with aLow := false }
  let f2 := { f1 with diffAt := if f1.aLow = f1.bLow then none else some s.now }
  let was := if b then f.bLow else f.aLow
  if !was then s
  else
    let s1 := { s with fe := f2 }
    if f.watching && f1.aLow != f1.bLow then s1.countSafe else s1

/-- The filter of the safe inputs: a level of input B, or else A, that has lasted less than 100 ns changes nothing (R290). -/
def State.filtered (s : State) (b : Bool × Nat) (f : State → Bool → State) : State := if b.2 < 100 then s else f s b.1

/-- The configuration of the engine completes: it watches the safe inputs from now on, and an input that already reads low
counts as one fall (R291). -/
def State.startWatching (s : State) : State :=
  let f := s.fe
  let s1 : State := { s with fe := { f with watching := true, diffAt := if f.aLow = f.bLow then none else some s.now } }
  let s2 := if f.aLow then s1.countSafe.allSafe causeSafeIn else s1
  (if f.bLow then s2.countSafe.allSafe causeSafeIn else s2).updHsafe

/-- The inputs have differed for longer than FE_DISCT (R292). -/
def State.discrepTimeout (s : State) : State :=
  match s.fe.diffAt with
  | none => s
  | some t =>
    if max (field (s.reg Reg.FE_DISCT) 0 8) 1 * 200000 < s.now - t ∧ s.fe.watching then
      (((({ s with fe := { s.fe with diffAt := none } }).setBits Reg.FE_STAT 0x4000).bump Reg.FE_SAFECNT).raiseGlobal
        0x47).updHsafe
    else s

/-- FE_CTL.REARM: ignored while DISCREP is set; clears the causes whose conditions have ended, and HSAFE (R291, R292,
R320). -/
def State.rearm (s : State) : State :=
  if s.discrep then s
  else
    let mask := (if s.safeLow then 0 else causeSafeIn) + (if s.dispatchIsOut then 0 else causeDieOut) +
      (if s.mode = 7 then 0 else causeService)
    let s1 := (List.range 64).foldl (fun t n => t.endCauses n mask) s
    if s1.forced || s1.mode == 7 then s1 else { s1 with fe := { s1.fe with hsafe := false } }

/-- Refresh round length: below the minimum of R44 it acts as that minimum (R298). -/
def State.refreshLen (s : State) : Nat :=
  max (s.reg2 Reg.FE_RNDLENL Reg.FE_RNDLENH) (if field (s.reg Reg.FE_RNDCFG) 12 4 = 15 then 10 else 16)

/-- One channel counts a refresh boundary; at the CH_REFR-th it enters SAFE (R293). -/
def State.refreshChan (s : State) (n : Nat) : State :=
  let c := s.chan n
  let lim := field (s.reg (Reg.CH_REFR n)) 0 8
  if c.state = .off ∨ !c.hasEntry ∨ lim = 0 then s
  else
    let s1 := s.setChan n { c with refr := c.refr + 1 }
    if lim ≤ c.refr + 1 then s1.enterSafe n causeRefresh else s1

/-- The refresh rounds are set up, or their axis or length changes: the index at that moment counts as seen (R44, R293). -/
def State.refreshSetUp (s : State) : State :=
  let ax := field (s.reg Reg.FE_RNDCFG) 12 4
  { s with fe := { s.fe with rndMax := roundIdx (posInt (s.axPos ax)) s.refreshLen } }

/-- A refresh round boundary, where the law of R44 gives one (R45, R293). -/
def State.refreshBoundary (s : State) : State :=
  let ax := field (s.reg Reg.FE_RNDCFG) 12 4
  let l := s.refreshLen
  let rnd := roundIdx (posInt (s.axPos ax)) l
  if s.axRounds ax && roundBoundary rnd s.fe.rndMax l then
    (List.range 64).foldl (fun t n => t.refreshChan n) { s with fe := { s.fe with rndMax := rnd } }
  else s

/-! ## GPIO (R296) -/

/-- GP_OB bit of pin `i`. -/
def State.gpOb (s : State) (i : Nat) : Bool := bit (s.reg (Reg.GP_OB (i / 16))) (i % 16) && s.padEn i
/-- GP_DIR bit of pin `i`: an output. -/
def State.gpDir (s : State) (i : Nat) : Bool := bit (s.reg (Reg.GP_DIR (i / 16))) (i % 16) && s.padEn i
/-- An entry of kind 10b sets the pin's GP_OUT bit (R286, R296). -/
def State.gpioEntry (s : State) (i : Nat) (e : Sheet) : State :=
  if !(s.gpOb i) then s.dropFormat e
  else if bit e.l5 0 then s.setBits (Reg.GP_OUT (i / 16)) (word (2 ^ (i % 16)))
  else s.clrBits (Reg.GP_OUT (i / 16)) (word (2 ^ (i % 16)))

/-- GPIO_EDGE: a pin's level changes; held 20 ns on a pin that is an input and in use it is an edge, which raises event
GPIO i (R329, R330, R508). -/
def State.gpioEdge (s : State) (i : Nat) (level : Bool) (ns : Nat) : State :=
  if !(s.padEn i) || s.fe.gpioIn.getLsbD i == level || decide (ns < 20) then s
  else
    let m := BitVec.ofNat 32 (2 ^ i)
    let s1 : State := { s with fe := { s.fe with gpioIn := if level then s.fe.gpioIn ||| m else s.fe.gpioIn &&& ~~~m } }
    if s.gpDir i || !s.live then s1 else s1.raiseGlobalEdge (0x5A + i) level
/-- Level of a GPIO pin that is an output: latched while VIO1 is held (R296, R381, R382). -/
def State.gpioPad (s : State) (i : Nat) : Option Bool :=
  if s.padHold.testBit 0 then s.heldGpio.getD i none
  else if s.gpDir i then some (bit (s.reg (Reg.GP_OUT (i / 16))) (i % 16)) else none

/-- HELD_BACK_EVENT_PARCEL: at the next microsecond the parcel held back goes out with the summed count (R330). -/
def State.heldBack (s : State) (g : Nat) : State :=
  let e := s.globalEvs.getD g GlobalEv.reset
  if 0 < e.held ∧ e.sentUs ≠ some s.refUs ∧ s.paused = false then
    ({ s with globalEvs := s.globalEvs.set g { e with sentUs := some s.refUs, held := 0 } }).sendGlobal g e.held e.edge
  else s

/-- Does channel `n` hold a cause that only a re-arm ends, with its condition ended (R291)? -/
def State.rearmWanted (s : State) (n : Nat) : Bool :=
  let c := (s.chan n).causes
  (c / causeSafeIn % 2 == 1 && !s.safeLow) || (c / causeDieOut % 2 == 1 && !s.dispatchIsOut) ||
    (c / causeService % 2 == 1 && s.mode != 7)
/-- FE_STAT as it reads (R298). -/
def State.feStat (s : State) : Word :=
  (s.reg Reg.FE_STAT &&& 0xC000) ||| word (flag ((List.range 64).any s.rearmWanted) 3 + flag s.forced 2 + flag s.fe.bLow 1 +
    flag s.fe.aLow 0)
/-- FE_CTL.CLRCNT: FE_SAFECNT and every CH_APPLIED and CH_SUPP (R298). -/
def State.feClrcnt (s : State) : State :=
  (s.setReg Reg.FE_SAFECNT 0).zeroRegs (((List.range 64).map fun n => [Reg.CH_APPLIED n, Reg.CH_SUPP n]).flatten)

end Sys2Proof.Machine
end

