-- ==== Sys2Proof/Machine/Zegen.lean ====
section
/-!
DEFINITION. The Zegen line: rounds and frames, node queues, answers, enrolment and the mailbox (spec 11).
-/
namespace Sys2Proof.Machine

/-- The port. -/
def State.zport (s : State) (p : Nat) : ZPort := s.zports.getD p ZPort.reset
/-- The state with port `p` replaced. -/
def State.setZport (s : State) (p : Nat) (z : ZPort) : State := { s with zports := s.zports.set p z }
/-- Address `a` of port `p`. -/
def State.znode (s : State) (p a : Nat) : ZNode := s.znodes.getD (64 * p + a) ZNode.reset
/-- The state with an address replaced. -/
def State.setZnode (s : State) (p a : Nat) (z : ZNode) : State := { s with znodes := s.znodes.set (64 * p + a) z }
/-- ZP_CFG.EN. -/
def State.zpEn (s : State) (p : Nat) : Bool := bit (s.reg (Reg.ZP_CFG p)) 15
/-- ZP_CFG.NSLOT. -/
def State.zpSlots (s : State) (p : Nat) : Nat := field (s.reg (Reg.ZP_CFG p)) 6 6
/-- ZP_CFG.AXIS. -/
def State.zpAxis (s : State) (p : Nat) : Nat := field (s.reg (Reg.ZP_CFG p)) 2 4
/-- A W1C bit of ZP_STAT sets: event ZL_EVENT p (R329). -/
def State.zpEvent (s : State) (p i : Nat) : State := (s.setBits (Reg.ZP_STAT p) (word (2 ^ i))).raiseGlobal (0x4A + p)

/-- A time of `t` / `k` ticks of 5 ns as fraction units of an axis (R312, R317). -/
def State.ticksToFrac (s : State) (ax t k : Nat) : Nat := t * 65536 / (k * max (s.axTpred ax) 1)
/-- The dispatch lead of a port in fraction units (R280, R312). -/
def State.zpLead (s : State) (p : Nat) : Nat := s.ticksToFrac (s.zpAxis p) ((s.reg (Reg.ZP_LEAD p)).toNat * 200) 1

/-! ## CRC-16 (R306) -/

/-- One bit of the CRC-16 with polynomial 1021h. -/
def crc16Bit (r : Nat) (b : Bool) : Nat :=
  ((r * 2) % 65536) ^^^ (if (r / 32768) ^^^ (flag b 0) = 1 then 0x1021 else 0)
/-- A word, most significant bit first. -/
def crc16Word (r : Nat) (w : Word) : Nat := (List.range 16).foldl (fun q i => crc16Bit q (w.getLsbD (15 - i))) r
/-- CRC-16 of the words in transmission order, initial value FFFFh. -/
def crc16 (ws : List Word) : Word := word (ws.foldl crc16Word 0xFFFF)

/-! ## The mailbox (R326) -/

/-- The mailbox command of port `p` ends with a result: event ZL_NCMD p (R326, R329). -/
def State.ncmdEnd (s : State) (p result : Nat) : State :=
  (s.modReg (Reg.ZP_NSTAT p) fun w => putField ((w &&& 0x7FFF) ||| 0x4000) 0 3 result).raiseGlobal (0x52 + p)

/-- A queued command is dropped: a FIRE as a dead letter with `cause`, a mailbox command with `result` (R311, R313, R315). -/
def State.dropCmd (s : State) (p cause result : Nat) (c : NodeCmd) : State :=
  match c.entry with
  | some e => s.deadLetter cause 7 (entryWords e)
  | none => s.ncmdEnd p result

/-- An address changes to LOST, FREE or FAULT: its queue is dropped as ZEGEN_NODE dead letters (R315). -/
def State.nodeLeaves (s : State) (p a : Nat) (st : NodeState) : State :=
  let n := s.znode p a
  let s1 := n.queue.foldl (fun t c => t.dropCmd p 0xF 2 c) s
  s1.setZnode p a { n with state := st, queue := [], tries := 0, miss := 0, wasLost := n.state == .lost }

/-- The SEQ after `q`: 01h to FFh and back to 01h (R310). -/
def nextSeq (q : Nat) : Nat := if q ≥ 255 then 1 else q + 1

/-- Queues a command for a node; its SEQ is taken now (R310, R313). -/
def State.queueCmd (s : State) (p a : Nat) (d0 d1 d2 d3 : Word) (e : Option Sheet) : State :=
  let n := s.znode p a
  let q := nextSeq n.seq
  s.setZnode p a { n with seq := q, queue := n.queue ++ [{ seq := q, d0 := d0, d1 := d1, d2 := d2, d3 := d3, entry := e }] }

/-- A released entry of kind 01b goes into its node's queue (R313). -/
def State.zegenEntry (s : State) (e : Sheet) : State :=
  let p := field e.l4 10 3
  let a := field e.l4 4 6
  let n := s.znode p a
  if n.state ≠ .enrolled then s.deadLetter 0xF 7 (entryWords e)
  else if 4 ≤ n.queue.length then s.deadLetter 0x10 7 (entryWords e)
  else s.queueCmd p a (word (0x10 + field e.l4 0 4)) e.l5 e.l1 (word (e.l2.toNat % 256 * 256 + field e.l6 0 3)) (some e)

/-- A write of ZP_NCMD: GO queues one WRITE or READ (R326). -/
def State.ncmdWrite (s : State) (p : Nat) (v : Word) : State :=
  if !(bit v 15) then s.setReg (Reg.ZP_NCMD p) (v &&& 0x403F)
  else if bit (s.reg (Reg.ZP_NSTAT p)) 15 then s.setBits (Reg.ZP_NSTAT p) 0x2000
  else
    let s1 := s.setReg (Reg.ZP_NCMD p) (v &&& 0x403F)
    let a := field v 0 6
    let n := s1.znode p a
    if n.state ≠ .enrolled then s1.ncmdEnd p 2
    else if 4 ≤ n.queue.length then s1.ncmdEnd p 4
    else
      let wr := bit v 14
      (s1.setBits (Reg.ZP_NSTAT p) 0x8000).queueCmd p a (if wr then 0x20 else 0x30) (s1.reg (Reg.ZP_NADDR p))
        (if wr then s1.reg (Reg.ZP_NDATA p) else 0) 0 none

/-! ## Line coding (R300, R301) -/

/-- 4B5B code of a nibble, leftmost bit first. -/
def code5 (n : Nat) : Nat :=
  [0b11110, 0b01001, 0b10100, 0b10101, 0b01010, 0b01011, 0b01110, 0b01111, 0b10010, 0b10011, 0b10110, 0b10111, 0b11010, 0b11011,
    0b11100, 0b11101].getD n 0
/-- The five bits of a code, in the order sent. -/
def codeBits (c : Nat) : List Bool := (List.range 5).map fun i => c.testBit (4 - i)
/-- The bits of a word: four nibbles, bits 15:12 first. -/
def wordBits (w : Word) : List Bool := ((List.range 4).map fun i => codeBits (code5 (field w (4 * (3 - i)) 4))).flatten
/-- The bits of a frame: J K, its words, T R (R301, R304). -/
def frameBits (ws : List Word) : List Bool :=
  codeBits 0b11000 ++ codeBits 0b10001 ++ (ws.map wordBits).flatten ++ codeBits 0b01101 ++ codeBits 0b00111
/-- NRZI from a line level: a 1 is a transition, a 0 holds it. -/
def nrzi : Bool → List Bool → List Bool
  | _, [] => []
  | l, b :: t => (l != b) :: nrzi (l != b) t
/-- Level of ZLn_DE: high while EN = 1, and latched while VIO1 is held (R300, R381). -/
def State.zlDe (s : State) (p : Nat) : Bool := if s.padHold.testBit 0 then s.heldZl.getLsbD p else s.zpEn p
/-- The bit of 40 ns that ZLn_TXD carries now: of the frame in flight, or of I between frames (R301). -/
def State.zlBit (s : State) (p : Nat) : Bool :=
  let z := s.zport p
  match z.flight with
  | some t => (frameBits z.frame).getD ((s.now - t) / 8) true
  | none => true

/-! ## Sending a round (R303 to R308, R314, R316, R317) -/

/-- Words of a slot with its check words: DCRC over H1 and D0 to D3, and an up part that checks bad (R306). -/
def slotWords (h1 d0 d1 d2 d3 : Word) : List Word :=
  [d0, d1, d2, d3, crc16 [h1, d0, d1, d2, d3], 0, 0, 0, 0, ~~~(crc16 [h1, 0, 0, 0, 0])]

/-- A node's slot: its queue head while ENROLLED, else IDLE (R308, R313, R315). -/
def State.nodeSlot (s : State) (p : Nat) (h1 : Word) (a : Nat) : List Word :=
  let n := s.znode p a
  match n.queue with
  | c :: _ =>
    if n.state = .enrolled then slotWords h1 (c.d0 + word (c.seq * 256)) c.d1 c.d2 c.d3 else slotWords h1 0 0 0 0
  | [] => slotWords h1 0 0 0 0

/-- The header words H0 to H5 of the next frame (R305, R317). -/
def State.zpHeader (s : State) (p : Nat) (rnd : Nat) : List Word :=
  let ax := s.zpAxis p
  let safe := s.hsafe || bit (s.reg (Reg.ZP_CFG p)) 13
  let pos := s.axPos ax + BitVec.ofNat 48 (s.ticksToFrac ax (s.reg (Reg.ZP_LOOPAVG p)).toNat 2)
  let h0 := word (s.zpSlots p * 256 + flag safe 7 + flag (decide (0 < (s.zport p).resetLeft)) 6 +
    flag (s.axState ax == .track) 5)
  let hs := [h0, word rnd, word (posFrac pos), word (posInt pos % 256 * 256 + field (s.reg (Reg.ZP_WDOG p)) 0 8),
    s.reg (Reg.ZP_PERIOD p)]
  hs ++ [crc16 hs]

/-- The lowest FREE address up to NSLOT. -/
def State.freeAddress (s : State) (p : Nat) : Option Nat :=
  ((List.range (s.zpSlots p)).map (· + 1)).find? fun a => (s.znode p a).state == .free

/-- The enrolment slot: a confirm that is due, else in every other round an offer (R314). -/
def State.enrolSlot (s : State) (p : Nat) (h1 : Word) : List Word × Option Nat × Bool :=
  let z := s.zport p
  match z.confirm with
  | some (a, v, sl, sh) => (slotWords h1 (word (a * 1024 + 0x90)) v sl sh, none, false)
  | none =>
    if bit (s.reg (Reg.ZP_CFG p)) 14 && !z.lastOffer then
      match s.freeAddress p with
      | some a => (slotWords h1 (word (a * 1024 + 0x80)) 0 0 0, some a, true)
      | none => (slotWords h1 0 0 0 0, none, false)
    else (slotWords h1 0 0 0 0, none, false)

/-- A confirm has been sent: its address enters ENROLLING, with 4 rounds for its first valid answer (R314). -/
def State.confirmSent (s : State) (p : Nat) : State :=
  match (s.zport p).confirm with
  | none => s
  | some (a, v, sl, sh) =>
    let n := s.znode p a
    s.setZnode p a { n with state := .enrolling, vendor := v, serialL := sl, serialH := sh, known := true, wait := 5,
                            wasLost := n.state == .lost }

/-- A round falls due: it sends its frame, or is skipped while a frame is in flight (R303). -/
def State.roundStart (s : State) (p : Nat) : State :=
  let z := s.zport p
  let per := (s.reg (Reg.ZP_PERIOD p)).toNat
  let isDue : Bool := match z.nextDue with
    | none => decide (posInt s.ax15 % max per 1 = (s.reg (Reg.ZP_PHASE p)).toNat)
    | some us => decide (us ≤ s.refUs)
  if !z.running || !isDue then s
  else
    let next := some (z.nextDue.getD s.refUs + per)
    if z.flight.isSome then ((s.setZport p { z with nextDue := next }).bump (Reg.ZP_SKIP p)).zpEvent p 13
    else
      let s1 := s.bump2 (Reg.ZP_ROUNDL p) (Reg.ZP_ROUNDH p) 1
      let rnd := (s1.reg (Reg.ZP_ROUNDL p)).toNat
      let en := s1.enrolSlot p (word rnd)
      let ws := s1.zpHeader p rnd ++
        (((List.range (s1.zpSlots p)).map fun i => s1.nodeSlot p (word rnd) (i + 1)).flatten) ++ en.1
      let s2 := s1.confirmSent p
      s2.setZport p { z with nextDue := next, flight := some s.now, resetLeft := z.resetLeft - 1, offered := en.2.1,
                             lastOffer := en.2.2, confirm := none, frame := ws, startUs := posInt s.ax15 }

/-! ## A frame returns or is lost (R309 to R315, R317, R321, R324) -/

/-- The input sheet of a valid answer (R321). -/
def State.inputSheet (s : State) (p a : Nat) (x : NodeAnswer) : State :=
  let cfg := s.reg (Reg.ZP_INMB p)
  let z := s.zport p
  if bit cfg 15 then
    s.pushFrom 7 (128 * field cfg 10 3 + field cfg 0 7)
      (ordinary ⟨word (0xA000 + p * 512 + a * 8), x.u0, x.u1, x.u2, x.u3, wordOf z.startUs 0, wordOf z.startUs 1,
                 z.frame.getD 1 0⟩)
  else s

/-- The head of a queue has a valid answer and leaves it (R313, R326). -/
def State.headAnswered (s : State) (p : Nat) (c : NodeCmd) (x : NodeAnswer) : State :=
  let resp := field x.u0 4 4
  match c.entry with
  | some e => if resp = 0 ∨ resp = 4 ∨ resp = 5 then s else s.deadLetter 0x11 7 (entryWords e)
  | none =>
    let s1 := if c.d0 = 0x30 ∧ resp = 0 then s.setReg (Reg.ZP_NDATA p) x.u1 else s
    s1.ncmdEnd p (if resp = 3 then 3 else if resp = 7 then 4 else 0)

/-- A valid answer from address `a` (R311 to R315). -/
def State.validAnswer (s : State) (p a sent : Nat) (x : NodeAnswer) : State :=
  let n := s.znode p a
  let resp := field x.u0 4 4
  let n1 := { n with miss := 0, resp := resp, nodeSafe := bit x.u3 15, looped := bit x.u3 13 }
  let s1 : State := match n.queue with
    | c :: rest =>
      if sent ≠ 0 ∧ c.seq = sent then (s.setZnode p a { n1 with queue := rest, tries := 0 }).headAnswered p c x
      else s.setZnode p a n1
    | [] => s.setZnode p a n1
  let s2 : State := match n.state with
    | .enrolling => (s1.setZnode p a { s1.znode p a with state := .enrolled, wait := 0 }).zpEvent p 14
    | .lost => s1.setZnode p a { s1.znode p a with state := .enrolled }
    | _ => s1
  let s3 : State := if (s2.znode p a).state = .enrolled then s2.inputSheet p a x else s2
  if resp = 5 ∧ n.state = .enrolled then s3.nodeLeaves p a .free else s3

/-- No valid answer from address `a` in a round; with a good header it is an event of the node's fault window (R311, R315,
R324). -/
def State.noAnswer (s : State) (p a sent : Nat) (hdr : Bool) : State :=
  let n := s.znode p a
  match n.state with
  | .free => s
  | .fault => s
  | .enrolling =>
    if n.wait ≤ 1 then s.nodeLeaves p a (if n.wasLost then .lost else .free)
    else s.setZnode p a { n with wait := n.wait - 1 }
  | .lost => if hdr then (s.bump (Reg.NODE_ERR p (a - 1))).faultEvent 5 (64 * p + a) else s
  | .enrolled =>
    let s1 : State := if hdr then (s.bump (Reg.NODE_ERR p (a - 1))).faultEvent 5 (64 * p + a) else s
    let n1 := { n with miss := n.miss + 1 }
    let retry := field (s.reg (Reg.ZP_RETRY p)) 0 4
    let s2 : State := match n.queue with
      | c :: rest =>
        if sent ≠ 0 ∧ c.seq = sent then
          if retry ≤ n.tries then (s1.setZnode p a { n1 with queue := rest, tries := 0 }).dropCmd p 0xE 1 c
          else s1.setZnode p a { n1 with tries := n.tries + 1 }
        else s1.setZnode p a n1
      | [] => s1.setZnode p a n1
    if max (field (s.reg (Reg.ZP_WDOG p)) 8 8) 1 ≤ n.miss + 1 then (s2.nodeLeaves p a .lost).zpEvent p 15 else s2

/-- SEQ sent to address `a` in the last frame (R310). -/
def State.sentSeq (s : State) (p a : Nat) : Nat := ((s.zport p).frame.getD (6 + 10 * (a - 1)) 0).toNat / 256

/-- Does a header that returned check good (R305, R306)? -/
def headerOk (hdr : List Word) : Bool := decide (hdr.length = 6) && decide (hdr.getD 5 0 = crc16 (hdr.take 5))
/-- Does an up part check good: UCRC covers H1 and U0 to U3 (R306)? -/
def answerOk (h1 : Word) (x : NodeAnswer) : Bool := decide (x.ucrc = crc16 [h1, x.u0, x.u1, x.u2, x.u3])

/-- One address's answer in a frame that returned: valid when its UCRC checks good and its SEQ echo is the SEQ sent (R311). -/
def State.nodeAnswer (s : State) (p : Nat) (hdr : Bool) (answers : List (Nat × NodeAnswer)) (a : Nat) : State :=
  let sent := s.sentSeq p a
  let st := (s.znode p a).state
  match answers.find? (·.1 == a) with
  | some (_, x) =>
    if answerOk ((s.zport p).frame.getD 1 0) x && decide (field x.u0 8 8 = sent) && st != .free && st != .fault then
      s.validAnswer p a sent x
    else s.noAnswer p a sent hdr
  | none => s.noAnswer p a sent hdr

/-- Address held for a vendor and serial whose node is LOST, else the offered one (N3). -/
def State.claimAddress (s : State) (p offered : Nat) (x : NodeAnswer) : Nat :=
  (((List.range 62).map (· + 1)).find? fun a =>
    let n := s.znode p a
    n.state == .lost && n.known && n.vendor == x.u1 && n.serialL == x.u2 && n.serialH == x.u3).getD offered

/-- A loop delay has been measured: ZP_LOOP and the mean of the last 16 (R317). -/
def State.measureLoop (s : State) (p : Nat) (w : Word) : State :=
  let z := s.zport p
  let ls := (w.toNat :: z.loops).take 16
  ((s.setZport p { z with loops := ls }).setReg (Reg.ZP_LOOP p) w).setReg (Reg.ZP_LOOPAVG p) (word (ls.sum / max ls.length 1))

/-- A frame lost or back with a bad HCRC: ZP_RXLOST, and after 3 in a row the port is DOWN (R324). -/
def State.badFrame (s : State) (p : Nat) : State :=
  let z := s.zport p
  let s1 := (s.setZport p { z with badRun := z.badRun + 1, down := z.down || decide (3 ≤ z.badRun + 1) }).bump (Reg.ZP_RXLOST p)
  if !z.down ∧ 3 ≤ z.badRun + 1 then s1.zpEvent p 11 else s1

/-- A frame has returned: the loop delay is measured, and each node's answer is validated (R311, R314, R317, R324). -/
def State.frameReturn (s : State) (p : Nat) (header : List Word) (loop : Word) (answers : List (Nat × NodeAnswer))
    (enrol : Option NodeAnswer) : State :=
  let z := s.zport p
  let hdr := headerOk header
  if z.flight.isNone then s
  else
    let s1 := (s.setZport p { z with flight := none }).measureLoop p loop
    let s2 := if hdr then s1.setZport p { s1.zport p with badRun := 0, down := false } else s1.badFrame p
    let s3 := ((List.range (s.zpSlots p)).map (· + 1)).foldl (fun t a => t.nodeAnswer p hdr answers a) s2
    match z.offered, enrol with
    | some a, some x =>
      if answerOk (z.frame.getD 1 0) x && decide (x.u0 = 0x60) then
        s3.setZport p { s3.zport p with confirm := some (s3.claimAddress p a x, x.u1, x.u2, x.u3) }
      else s3
    | _, _ => s3

/-- Time after which a frame in flight is declared lost, in ticks from its J (R303, R304). -/
def State.frameLimit (s : State) (p : Nat) : Nat :=
  let avg := (s.reg (Reg.ZP_LOOPAVG p)).toNat
  (340 + 200 * s.zpSlots p) * 8 + (if avg = 0 then 44000 else avg + 4000)

/-- A frame not returned in time is declared lost; its J may have been measured (R303, R317, R324). -/
def State.frameLost (s : State) (p : Nat) (loop : Option Word) : State :=
  let z := s.zport p
  match z.flight with
  | none => s
  | some t =>
    if s.now < t + s.frameLimit p then s
    else
      let s1 := s.setZport p { z with flight := none }
      let s2 := match loop with
        | some w => s1.measureLoop p w
        | none => s1
      ((List.range (s.zpSlots p)).map (· + 1)).foldl (fun u a => u.nodeAnswer p false [] a) (s2.badFrame p)

/-! ## Register effects (R315, R316, R325, R326) -/

/-- May ZP_CFG be written with `v` (R326, R508)? -/
def State.zpCfgOk (s : State) (p : Nat) (v : Word) : Bool :=
  let n := field v 6 6
  decide (1 ≤ n) && decide (n ≤ 62) && decide (s.axSrc (field v 2 4) = 2) &&
    (!(bit v 15) || (s.padEn (0x20 + 3 * p) && s.padEn (0x21 + 3 * p) && s.padEn (0x22 + 3 * p))) &&
    (!(s.zpEn p) || decide (v &&& 0x0FFC = s.reg (Reg.ZP_CFG p) &&& 0x0FFC))

/-- A write of ZP_CFG: EN going to 1 starts rounds afresh with every address FREE; EN = 0 starts no further round (R303,
R316, R325, R326). -/
def State.zpCfgWrite (s : State) (p : Nat) (v : Word) : State :=
  if !(s.zpCfgOk p v) then s.zpEvent p 12
  else
    let was := s.zpEn p
    let s1 := s.setReg (Reg.ZP_CFG p) (v &&& 0xEFFC)
    if bit v 15 then
      if was then s1
      else
        let s2 := { s1 with znodes := s1.znodes.drop fun k => k / 64 == p }
        (s2.setReg (Reg.ZP_LOOPAVG p) 0).setZport p { ZPort.reset with running := true, resetLeft := 4 }
    else s1.setZport p { s1.zport p with running := false }

/-- A write of ZP_PERIOD or ZP_PHASE: refused while EN = 1 and out of range (R326). -/
def State.zpTimingWrite (s : State) (p : Nat) (period : Bool) (v : Word) : State :=
  let ok := !(s.zpEn p) && (if period then decide (50 ≤ v.toNat) && decide (v.toNat ≤ 10000)
    else decide (v.toNat < (s.reg (Reg.ZP_PERIOD p)).toNat))
  if ok then s.setReg (if period then Reg.ZP_PERIOD p else Reg.ZP_PHASE p) v else s.zpEvent p 12

/-- The fault window of a node has ended its LASTING (R315, R488). -/
def State.endLasting (s : State) (cls idx : Nat) : State :=
  { s with faultWins := s.faultWins.set (65536 * cls + idx) FaultWin.reset }

/-- Port of NODE_CTL of address `a`, 1 to 62; the port before the first is reserved (R326). -/
def nodeCtlPort (p a : Nat) : Nat := 0x58C0 + 0x100 * p + a

/-- NODE_CTL.RELEASE: the address becomes FREE, vendor and serial forgotten (R315). -/
def State.nodeRelease (s : State) (p a : Nat) : State :=
  let s1 := s.nodeLeaves p a .free
  (s1.setZnode p a { ZNode.reset with seq := (s1.znode p a).seq }).endLasting 5 (64 * p + a)

/-- NODE_CTL.UNFAULT: a FAULT address returns to the state it left (R315). -/
def State.nodeUnfault (s : State) (p a : Nat) : State :=
  let n := s.znode p a
  if n.state = .fault then
    (s.setZnode p a { n with state := if n.wasLost then .lost else .enrolled }).endLasting 5 (64 * p + a)
  else s

/-- ZP_CTL.CLRCNT: ZP_SKIP, ZP_RXLOST and every NODE_ERR (R326). -/
def State.zpClrcnt (s : State) (p : Nat) : State :=
  s.zeroRegs ([Reg.ZP_SKIP p, Reg.ZP_RXLOST p] ++ (List.range 62).map fun i => Reg.NODE_ERR p i)

end Sys2Proof.Machine
end

