-- ==== Sys2Proof/Machine/EpochTable.lean ====
section
/-!
DEFINITION. The DISPATCH epoch table: registration, lineage, settle and recall decisions, and what they do to the outbox,
the mailbag engines and the clerks (spec 06).
-/
namespace Sys2Proof.Machine

/-- Row of slot `i` of clerk `c`. -/
def State.epRow (s : State) (c i : Nat) : EpRow := s.epochs.getD (4 * c + i) EpRow.reset
/-- The state with that row replaced. -/
def State.setEpRow (s : State) (c i : Nat) (r : EpRow) : State := { s with epochs := s.epochs.set (4 * c + i) r }
/-- Row that a tag's clerk and slot name. -/
def State.tagRow (s : State) (t : Word) : EpRow := s.epRow (tagClerk t) (tagSlot t)
/-- Tag of the present epoch of a row. -/
def rowTag (key : Nat) (r : EpRow) : Word := tagWord (key / 4) (key % 4) r.gen
/-- Is the row OPEN or HELD: not decided yet (R188)? -/
def EpRow.live (r : EpRow) : Bool := r.state == .isOpen || r.state == .held

/-- How DISPATCH judges a tag (R538). -/
inductive TagJudge where
  | committed            -- 0000h, or an epoch decided settled
  | live                 -- OPEN or HELD
  | recalled
  | unknown
deriving DecidableEq, Repr

/-- The judgement of a tag by its slot's present epoch, else by the last that ended there (R538). -/
def State.judgeTag (s : State) (t : Word) : TagJudge :=
  let r := s.tagRow t
  if t = 0 then .committed
  else if r.live ∧ r.gen = tagGen t then .live
  else if r.lastGen = tagGen t ∧ r.lastGen ≠ 0 then (if r.lastSettled then .committed else .recalled)
  else .unknown

/-! ## The outbox's part (R184, R193, R284) -/

/-- Entries of a list that `revoke` names removed; the rest of the set's entries are due and stand committed. -/
def reviseList (tags : List Word) (revoke : ObEntry → Bool) (l : List ObEntry) : List ObEntry :=
  l.filterMap fun e =>
    if tags.contains e.tag then (if revoke e then none else some { e with tag := 0 }) else some e

/-- Spilled entries of a tag that still wait for its verdict: those no older row with the same tag covers. -/
def Outbox.spilledOf (o : Outbox) (t : Word) : Nat :=
  ((o.spill.flatten).filter fun x => x.tag == t).length - ((o.verdicts.filter fun v => v.tag == t).map fun v => v.count).sum

/-- Takes a verdict row for a decided epoch with spilled entries (R284). -/
def Outbox.addVerdict (o : Outbox) (settled : Bool) (t : Word) : Outbox :=
  let n := o.spilledOf t
  if n = 0 then o else { o with verdicts := o.verdicts ++ [{ tag := t, settled := settled, count := n }] }

/-- Entries of the set held on DISPATCH. -/
def Outbox.entriesOf (o : Outbox) (tags : List Word) : List ObEntry :=
  ((o.lists.map fun e => e.2).flatten ++ o.wbuf).filter fun e => tags.contains e.tag

/-- The master position an entry is tested against: kind 01b is advanced by its port's dispatch lead in the direction of its
mark (R280). -/
def State.entryPos (s : State) (e : Sheet) (p : Pos) : Pos :=
  if field e.l4 14 2 = 1 then
    let lead := BitVec.ofNat 48 (s.zpLead (field e.l4 10 3))
    if markBack e.l0 then p - lead else p + lead
  else p

/-- Is an entry due, against position `dp` on axis `ax` where given and the master positions elsewhere (R37, R193)? -/
def State.entryDue (s : State) (at_ : Option (Nat × Pos)) (e : Sheet) : Bool :=
  let ax := markAxis e.l0
  let p := match at_ with
    | some (a, dp) => if a = ax then dp else s.axPos ax
    | none => s.axPos ax
  due (s.entryPos e p) (markPos e.l1 e.l2 e.l3) (markBack e.l0)

/-- The set's entries that are not due at the decision are revoked and counted; spilled ones get a verdict row (R37, R193). -/
def State.revokeEntries (s : State) (tags : List Word) (at_ : Option (Nat × Pos)) : State :=
  let o := s.outbox
  let gone := fun (e : ObEntry) => !(s.entryDue at_ e.e)
  let n := ((o.entriesOf tags).filter gone).length
  let o1 : Outbox := { o with lists := o.lists.map (fun e => (e.1, reviseList tags gone e.2)), wbuf := reviseList tags gone o.wbuf }
  ({ s with outbox := tags.foldl (fun q t => q.addVerdict false t) o1 }).bumpBy Reg.EPOCH_REVOKED n

/-- The entries of a settled epoch become committed (R184). -/
def State.commitEntries (s : State) (t : Word) : State :=
  let o := s.outbox
  let rev := reviseList [t] fun _ => false
  let o1 : Outbox := { o with lists := o.lists.map (fun e => (e.1, rev e.2)), wbuf := rev o.wbuf }
  { s with outbox := o1.addVerdict true t }

/-! ## Engines that hold something of an epoch -/

/-- Does a mailbag hold drafts or retained pops of one of these epochs? -/
def Bag.touches (b : Bag) (tags : List Word) : Bool :=
  (b.head.any fun i => tags.contains i.tag) || (b.tail.any fun i => tags.contains i.tag) ||
    (b.marks.any fun m => tags.contains m.tag) || (b.retained.any fun r => tags.contains r.popper || tags.contains r.item.tag)
/-- Dies whose engine holds drafts or retained pops of one of these epochs. -/
def State.enginesOf (s : State) (tags : List Word) : List Nat :=
  (List.range 8).filter fun d =>
    ((s.bagsOf d).any fun e => e.2.touches tags) || ((s.arrivalsOf d).any fun e => tags.contains e.2.tag)

/-- A draft still on its way whose epoch settles arrives as an ordinary sheet. -/
def settleMsg (t : Word) (m : Msg) : Msg :=
  match m with
  | .push d n i => if i.tag = t then .push d n { i with tag := 0, depth := 0 } else m
  | _ => m
/-- Is it a draft of the set still on its way? -/
def isDraftOf (tags : List Word) (m : Msg) : Bool :=
  match m with
  | .push _ _ i => tags.contains i.tag && i.tag != 0
  | _ => false

/-! ## Recall (R186 to R193) -/

/-- An epoch to be recalled: its row key and its cause. -/
abbrev RecallSet := List (Nat × Nat)

/-- Is the row in the set? -/
def inSet (set : RecallSet) (key : Nat) : Bool := set.any fun e => e.1 == key

/-- The next cause that follows for a live row not in the set: LINEAGE through its parent, NEST through an older epoch of its
clerk (R186). -/
def State.followCause (s : State) (set : RecallSet) (key : Nat) (r : EpRow) : Option Nat :=
  if !r.live || inSet set key then none
  else if r.lineage && set.any (fun e => rowTag e.1 (s.epochs.getD e.1 EpRow.reset) == r.parent) then some 5
  else if set.any (fun e => e.1 / 4 == key / 4 && decide ((s.epochs.getD e.1 EpRow.reset).seq < r.seq)) then some 6
  else none

/-- The set closed under LINEAGE and NEST; every round adds at least one row, so as many rounds as rows suffice. -/
def State.closeSet (s : State) : Nat → RecallSet → RecallSet
  | 0, set => set
  | n + 1, set =>
    let more := s.epochs.filterMap fun e => (s.followCause set e.1 e.2).map fun c => (e.1, c)
    if more.isEmpty then set else s.closeSet n (set ++ more)

/-- A row whose epoch has been decided. -/
def EpRow.decided (r : EpRow) (settled : Bool) : EpRow := { r with state := .ending, lastGen := r.gen, lastSettled := settled }

/-- The oldest recalled epoch of clerk `c` in the set, with its cause (R189). -/
def State.oldestOf (s : State) (set : RecallSet) (c : Nat) : Option (Nat × Nat) :=
  set.foldl (fun b e =>
    if e.1 / 4 ≠ c then b
    else match b with
      | none => some e
      | some f => if (s.epochs.getD e.1 EpRow.reset).seq < (s.epochs.getD f.1 EpRow.reset).seq then some e else b) none

/-- One recall decision on the live rows among `roots`, judged at `at_`: the closed set ends, its entries that are not due are
revoked, and recall parcels go to the engines and to each clerk; no clerk restarts from DIE_OUT (R186, R188, R193, R194). -/
def State.decideRecall (s : State) (roots : RecallSet) (at_ : Option (Nat × Pos)) : State :=
  let live := roots.filter fun e => (s.epochs.getD e.1 EpRow.reset).live
  if live.isEmpty then s
  else
    let set := s.closeSet s.epochs.length live
    let tags := set.map fun e => rowTag e.1 (s.epochs.getD e.1 EpRow.reset)
    let s1 : State := { s with epochs := s.epochs.map fun e => if inSet set e.1 then (e.1, e.2.decided false) else e }
    let s2 := (s1.revokeEntries tags at_).bumpBy Reg.EPOCH_RECALLS set.length
    let s3 := s2.dropMsgs (isDraftOf tags)
    let s4 := s3.launches ((s3.enginesOf tags).map fun d => .recallMbe d tags)
    (List.range 128).foldl (fun t c =>
      match s.oldestOf set c with
      | none => t
      | some (key, cause) =>
        if cause = 7 then
          { t with epochs := t.epochs.map fun e => if e.1 / 4 = c ∧ inSet set e.1 then (e.1, { e.2 with state := .free }) else e }
        else t.launch (.recallClerk c (rowTag key (s.epochs.getD key EpRow.reset)) cause)) s4

/-- Keys of the live rows that `p` names, each with a cause. -/
def State.rowsWith (s : State) (cause : Nat) (p : Nat → EpRow → Bool) : RecallSet :=
  s.epochs.filterMap fun e => if e.2.live && p e.1 e.2 then some (e.1, cause) else none

/-- The recall that a deviation on axis `n` at `dp` starts: OPEN ordinary epochs on the axis not due there; one due there has
met its condition (R37, R186, R188). -/
def State.recallDeviation (s : State) (n : Nat) (dp : Pos) : State :=
  let onAxis := fun (r : EpRow) => r.state == .isOpen && !r.lineage && r.axis == n
  let meet := fun (r : EpRow) => if onAxis r && due dp r.mark false then { r with met := true } else r
  let s1 : State := { s with epochs := s.epochs.map fun e => (e.1, meet e.2) }
  s1.decideRecall (s1.rowsWith 1 fun _ r => onAxis r && !r.met) (some (n, dp))

/-- Recalls the epoch a tag names, if it is OPEN or HELD (R188). -/
def State.recallTag (s : State) (t : Word) (cause : Nat) : State :=
  if s.judgeTag t = .live ∧ t ≠ 0 then s.decideRecall [(4 * tagClerk t + tagSlot t, cause)] none else s

/-- Every epoch of the clerks of die `d`. -/
def State.rowsOfDie (s : State) (d cause : Nat) : RecallSet := s.rowsWith cause fun k _ => clerkDie (k / 4) == d

/-- Is it a recall cause that has reached DISPATCH? -/
def isRecallCause : Msg → Bool
  | .recallReq _ | .recallHalt _ | .recallDie _ | .recallDrain _ => true
  | _ => false

/-- The end of die `d` reaches DISPATCH (R194): what its clerks had sent before is gone with them, their live epochs are recalled with
DIE_OUT, and every row of theirs becomes FREE, those that were ENDING too. `ms` is what was in flight. -/
def State.endOfDie (s : State) (d : Nat) (ms : List Msg) : State :=
  let lost := (ms.takeWhile (· != .recallDie d)).filter fun m => m.fromClerks fun c => clerkDie c == d
  let s1 := (s.dropMsgs (lost.contains ·)).decideRecall (s.rowsOfDie d 7) none
  { s1 with epochs := s1.epochs.map fun e => if clerkDie (e.1 / 4) = d then (e.1, { e.2 with state := .free }) else e }

/-- RECALL_DECISION: the oldest recall cause at DISPATCH is decided (R186 to R188). A RECALL of an epoch already decided is
answered without a recall (R187). -/
def State.recallDecision (s : State) : State :=
  s.take isRecallCause fun m u =>
    match m with
    | .recallReq t => if u.judgeTag t = .live then u.recallTag t 3 else u.launch (.recallAnswer (tagClerk t))
    | .recallHalt c => u.decideRecall (u.rowsWith 9 fun k _ => k / 4 == c) none
    | .recallDie d => u.endOfDie d s.msgs
    | .recallDrain d => u.decideRecall (if d = 7 then u.rowsWith 8 fun _ _ => true else u.rowsOfDie d 8) none
    | _ => u

/-- What the epochs did at engines after their recall was decided is undone with the rest: drafts pushed since are removed, sheets
popped since go back (R177, R179, R190). -/
def State.sweepRecalled (s : State) (tags : List Word) : State :=
  let s1 := s.dropMsgs (isDraftOf tags)
  (s1.enginesOf tags).foldl (fun t d => t.mbeRecall d tags) s1

/-! ## Registration (R172, R182) -/

/-- Order number of the next epoch of clerk `c` (R164). -/
def State.nextSeq (s : State) (c : Nat) : Nat :=
  (List.range 4).foldl (fun m i => max m ((s.epRow c i).seq + 1)) 0

/-- Has the clerk an epoch whose recall is decided and not carried out yet, or has the clerk itself dropped the epoch the
registration names (a recall met it on its way)? -/
def State.recallPasses (s : State) (t : Word) : Bool :=
  let c := tagClerk t
  ((List.range 4).any fun i => (s.epRow c i).state == .ending && !(s.epRow c i).lastSettled) ||
    ((s.clerk c).slotOfTag c t).isNone

/-- Enters a row as OPEN. -/
def State.registerRow (s : State) (t : Word) (lineage : Bool) (parent : Word) (axis : Nat) (mark : Pos) (met : Bool) : State :=
  let c := tagClerk t
  let r := s.tagRow t
  s.setEpRow c (tagSlot t)
    { r with state := .isOpen, gen := tagGen t, seq := s.nextSeq c, lineage := lineage, parent := parent, axis := axis,
             mark := mark, met := met }

/-- The row of a registration that a recall of the clerk's older epochs has overtaken: the epoch is recalled with them (NEST,
R164). -/
def State.registerPassed (s : State) (t : Word) : State :=
  let r := s.tagRow t
  let held := ((s.clerk (tagClerk t)).slotOfTag (tagClerk t) t).isSome
  ((if held then s else s.sweepRecalled [t]).setEpRow (tagClerk t) (tagSlot t)
    { r with state := if held then .ending else .free, gen := tagGen t, lastGen := tagGen t, lastSettled := false }).bumpBy
      Reg.EPOCH_RECALLS 1

/-- Recalls an epoch at its registration and counts it (R172, R182). -/
def State.recallAtRegistration (s : State) (t : Word) (cause : Nat) : State :=
  (s.bump Reg.EPOCH_REGREC).recallTag t cause

/-- Has the axis raised a deviation since its last edge (R172)? A copy's edges are its source's; a copy of AX15 has one a
microsecond. -/
def State.axDeviated (s : State) (n : Nat) : Bool :=
  let a := s.axis n
  a.devSince && (s.axSrc n != 3 || s.axSel n != 15 || decide (a.devAt / 200 = s.refUs))

/-- Is 16-bit serial number `a` newer than `b`? -/
def newer (a b : Word) : Bool := decide (a ≠ b) && decide ((a - b).toNat < 0x8000)

/-- A registration reaches the table (R172). -/
def State.register (s : State) (t : Word) (mark : Pos) (axis : Nat) (seq : Word) : State :=
  if s.recallPasses t then s.registerPassed t
  else if newer (s.reg (Reg.AX_DEVSEQ axis)) seq || s.axDeviated axis then
    (s.registerRow t false 0 axis mark false).recallAtRegistration t 2
  else s.registerRow t false 0 axis mark (due (s.axPos axis) mark false)

/-- A lineage registration reaches the table (R182, R538). -/
def State.registerLineage (s : State) (t parent : Word) : State :=
  if s.recallPasses t then s.registerPassed t
  else match s.judgeTag parent with
    | .committed => s.registerRow t true parent 0 0 true
    | .live => s.registerRow t true parent 0 0 false
    | _ => (s.registerRow t true parent 0 0 false).recallAtRegistration t 5

/-- Is it a registration of clerk `c`? -/
def isRegistration (c : Nat) : Msg → Bool
  | .registration t _ _ _ => tagClerk t == c
  | _ => false

/-- EPOCH_REGISTRATION: the clerk's oldest registration is checked (R172). -/
def State.epochRegistration (s : State) (c : Nat) : State :=
  s.take (isRegistration c) fun m u =>
    match m with
    | .registration t mark axis seq => u.register t mark axis seq
    | _ => u

/-- Is the registration of `t` itself still on its way? -/
def registrationAhead (t : Word) : Msg → Bool
  | .registration u _ _ _ => u == t
  | .lineage u _ => u == t
  | _ => false
/-- Is it a lineage registration of clerk `c` whose parent's own registration is not still on its way? An unknown parent
arises only from a slot that ended two epochs (R538), so a parent on its way is waited for. -/
def isLineage (ms : List Msg) (c : Nat) : Msg → Bool
  | .lineage t p => tagClerk t == c && !(ms.any (registrationAhead p))
  | _ => false

/-- LINEAGE_REGISTRATION: the clerk's oldest lineage registration is checked (R182). -/
def State.lineageRegistration (s : State) (c : Nat) : State :=
  s.take (isLineage s.msgs c) fun m u =>
    match m with
    | .lineage t p => u.registerLineage t p
    | _ => u

/-! ## Settle (R183 to R185) -/

/-- Has the epoch of a row met its own settle condition (R183)? -/
def State.ownMet (s : State) (r : EpRow) : Bool :=
  r.met || (if r.lineage then s.judgeTag r.parent == .committed else due (s.axPos r.axis) r.mark false)
/-- Is an older epoch of the clerk still open? -/
def State.olderOpen (s : State) (c : Nat) (r : EpRow) : Bool :=
  (List.range 4).any fun i => (s.epRow c i).live && decide ((s.epRow c i).seq < r.seq)

/-- The decided settle of the epoch in slot `i` of clerk `c` (R184, R185). -/
def State.settleRow (s : State) (c i : Nat) (r : EpRow) : State :=
  let t := tagWord c i r.gen
  let s1 := (s.setEpRow c i (r.decided true)).commitEntries t
  let s2 := s1.mapMsgs (settleMsg t)
  (s2.launches ((s2.enginesOf [t]).map fun d => .settleMbe d t)).launch (.settleClerk t)

/-- EPOCH_SETTLE: an epoch whose condition is met settles, or is HELD behind an older one (R166, R183). -/
def State.epochSettle (s : State) (c i : Nat) : State :=
  let r := s.epRow c i
  if !r.live || !(s.ownMet r) then s
  else if s.olderOpen c r then s.setEpRow c i { r with met := true, state := .held }
  else s.settleRow c i r

/-! ## At the engines and the clerks -/

/-- SETTLE_PARCEL_MBE at die `d` (R185). -/
def State.settleParcelMbe (s : State) (d : Nat) : State :=
  s.take (fun m => match m with | .settleMbe e _ => e == d | _ => false) fun m u =>
    match m with | .settleMbe _ t => u.mbeSettle d t | _ => u
/-- RECALL_PARCEL_MBE at die `d` (R193). -/
def State.recallParcelMbe (s : State) (d : Nat) : State :=
  s.take (fun m => match m with | .recallMbe e _ => e == d | _ => false) fun m u =>
    match m with | .recallMbe _ ts => u.mbeRecall d ts | _ => u

/-- The table's rows of clerk `c` that stand ENDING with the verdict given and that the clerk no longer holds become FREE. -/
def State.freeRows (s : State) (c : Nat) : State :=
  { s with epochs := s.epochs.map fun e =>
      if e.1 / 4 = c ∧ e.2.state = .ending ∧ ((s.clerk c).slotOfTag c (rowTag e.1 e.2)).isNone then
        (e.1, { e.2 with state := .free })
      else e }

/-- The same for a settle: drafts pushed since the decision become ordinary, copies retained since are discarded (R177, R179). -/
def State.sweepSettled (s : State) (tag : Word) : State :=
  let s1 := s.mapMsgs (settleMsg tag)
  (s1.enginesOf [tag]).foldl (fun t d => t.mbeSettle d tag) s1
/-- The clerk restarts from the recall of `tag` (R189); what its recalled epochs left at engines goes, and their rows become FREE. -/
def State.restart (s : State) (c : Nat) (tag : Word) (cause : Nat) (defer : Bool) : State :=
  let tags := match (s.clerk c).slotOfTag c tag with
    | some i => (s.clerk c).recalledTags c i
    | none => []
  ((s.clerkRestart c tag cause defer).sweepRecalled tags).freeRows c
/-- A recall reaches the clerk: it acts at once, except that a halted clerk waits for its restart, one held by debug for
RESUME or STEP, and a suspended one for its RETI (R189, R191). -/
def State.recallReaches (s : State) (c : Nat) (tag : Word) (cause : Nat) : State :=
  let k := s.clerk c
  if k.halted || k.dbgHalt || k.susp then
    match k.deferred with
    | none => s.setClerk c { k with deferred := some { tag := tag, cause := cause } }
    | some d =>
      match k.slotOfTag c d.tag, k.slotOfTag c tag with
      | some i, some j =>
        if (k.slot j).seq < (k.slot i).seq then s.setClerk c { k with deferred := some { tag := tag, cause := cause } }
        else s
      | _, _ => s
  else s.restart c tag cause false

/-- CLERK_SETTLE (R185, step 4). -/
def State.clerkSettled (s : State) (c : Nat) : State :=
  s.take (fun m => match m with | .settleClerk t => tagClerk t == c | _ => false) fun m u =>
    match m with | .settleClerk t => ((u.clerkSettle t).sweepSettled t).freeRows c | _ => u

/-- A clerk that waits for DISPATCH's answer after RECALL continues behind it (R187). -/
def State.recallAnswered (s : State) (c : Nat) : State :=
  s.modClerk c fun k =>
    match k.waiting with
    | some w => if w.kind = .recall then { k with waiting := none } else k
    | none => k

/-- Does an engine in service still have to act on the recall of `tag`, before the clerk's parcel is sent (R193, steps 3 to 5)? -/
def State.enginesDue (s : State) (tag : Word) : Bool :=
  s.msgs.any fun m => match m with
    | .recallMbe d ts => s.inService d && ts.contains tag
    | _ => false
/-- CLERK_RECALL: a recall, or the answer to a RECALL that changed nothing, reaches the clerk; a recall not before the engines have
acknowledged it (R187, R189, R191, R193). -/
def State.clerkRecalled (s : State) (c : Nat) : State :=
  s.take (fun m => match m with
      | .recallClerk e t _ => e == c && !(s.enginesDue t)
      | .recallAnswer e => e == c
      | _ => false) fun m u =>
    match m with
    | .recallClerk _ t cause => (u.recallReaches c t cause).freeRows c
    | .recallAnswer _ => u.recallAnswered c
    | _ => u

/-! ## Registers (R195, R196) -/

/-- EPOCH_CTL.CLRCNT. -/
def State.epochClrcnt (s : State) : State :=
  s.zeroRegs [Reg.EPOCH_RECALLS, Reg.EPOCH_REGREC, Reg.EPOCH_REVOKED, Reg.EPOCH_LATEPOST]

/-- EP_STAT as it reads. -/
def Clerk.epStat (k : Clerk) : Word :=
  word (flag k.susp 15 + ((List.range 4).foldl (fun n i => n + flag (k.slotOpen i) (8 + i)) 0) +
    (k.young.getD 0) * 16 + (k.old.getD 0) * 4)

/-- State code of an epoch (R166). -/
def EpState.code : EpState → Nat
  | .free => 0 | .isOpen => 1 | .held => 2 | .ending => 3

/-- State that the mirror of slot `i` of clerk `c` shows: the table's, once the epoch is registered (R166). -/
def State.mirrorState (s : State) (c i : Nat) : EpState :=
  let e := (s.clerk c).slot i
  if e.state = .free then .free
  else if (s.epRow c i).gen = e.gen ∧ (s.epRow c i).state ≠ .free then (s.epRow c i).state else .isOpen

/-- EP_INFOn as it reads (R195). -/
def State.epInfo (s : State) (c i : Nat) : Word :=
  let e := (s.clerk c).slot i
  if e.state = .free then 0
  else word ((if e.lineage then 0 else markAxis e.mark.1 * 4096) + flag e.lineage 11 + e.depth * 256 + (s.mirrorState c i).code)

/-- EP_SETTLEn_Wk as it reads (R195). -/
def Clerk.epSettleWord (k : Clerk) (i j : Nat) : Word :=
  let e := k.slot i
  if e.state = .free ∨ e.lineage then 0
  else match j with
    | 0 => e.mark.1 | 1 => e.mark.2.1 | 2 => e.mark.2.2.1 | _ => e.mark.2.2.2

end Sys2Proof.Machine
end

