-- ==== Sys2Proof/Machine/Axis.lean ====
section
/-!
DEFINITION. The axis unit's events: edges, timeouts, deviations, the index, register effects and broadcasts (spec 02).
-/
namespace Sys2Proof.Machine

/-! ## Deviations (R34 to R37) -/

/-- Raises a deviation on one axis: the indivisible update of R36, its event, and its recall (R37). -/
def State.deviateOne (s : State) (n cause : Nat) : State :=
  let p := s.axPos n
  let s1 := s.setAxis n { s.axis n with devSince := true, devAt := s.now }
  let s2 := ((s1.bumpWrap (Reg.AX_DEVSEQ n) 1).bump (Reg.AX_DEVCNT n)).setReg (Reg.AX_DEVCAUSE n) (word cause)
  let s3 := ((s2.setReg (Reg.AX_DEVPOSF n) (wordOf p.toNat 0)).setReg (Reg.AX_DEVPOSL n) (wordOf p.toNat 1)).setReg
    (Reg.AX_DEVPOSH n) (wordOf p.toNat 2)
  (((s3.setBits (Reg.AX_STAT n) 0x8000).raiseGlobal n).recallDeviation n p)

/-- A deviation on axis `n`, then one with cause SOURCE on every copy that follows it and is not OFF, through every copy of a copy
(R31, R34). -/
def State.deviateFuel (s : State) : Nat → Nat → Nat → State
  | 0, _, _ => s
  | fuel + 1, n, cause =>
    (List.range 15).foldl (fun t k =>
        if t.axSrc k = 3 ∧ t.axSel k = n ∧ n ≠ 15 ∧ t.axState k ≠ .off then t.deviateFuel fuel k 9 else t)
      (s.deviateOne n cause)

/-- A deviation on axis `n`; AX15 never raises one (R32), and an OFF axis only RECONFIG (R34). -/
def State.deviate (s : State) (n cause : Nat) : State :=
  if n = 15 ∨ (s.axState n = .off ∧ cause ≠ 0xA) then s else s.deviateFuel 16 n cause

/-- Every copy takes up its source's increments so far. -/
def State.syncCopies (s : State) : State := (List.range 15).foldl (fun t n => t.syncCopy n) s

/-- The copies of an axis count its edges as theirs (R35, R172). -/
def State.clearSince (s : State) : Nat → Nat → State
  | 0, _ => s
  | fuel + 1, n =>
    (List.range 15).foldl (fun t k => if t.axSrc k = 3 ∧ t.axSel k = n then t.clearSince fuel k else t)
      (s.setAxis n { s.axis n with devSince := false })

/-- A PHASE channel enters SAFE when its axis enters LOST (R289). -/
def State.axisLost (s : State) (n : Nat) : State :=
  (List.range 64).foldl (fun t c => if t.chMode c = 2 ∧ t.chAxis c = n ∧ t.chEn c then t.enterSafe c causeMains else t) s

/-! ## Edges (R27 to R30, R33, R34, R535) -/

/-- 14.286 ms and 25.0 ms in 5 ns ticks (R30). -/
def mainsMin : Nat := 2857200
def mainsMax : Nat := 5000000
/-- Is a mains interval in range? -/
def mainsOk (t : Nat) : Bool := decide (mainsMin ≤ t) && decide (t ≤ mainsMax)

/-- Intervals that TPRED averages (R535). -/
def Axis.m (a : Axis) : Nat := a.edges.length - 1
/-- The edge ticks with a new one, over at most `sp` intervals, and TPRED as their mean (R535). -/
def Axis.pushEdge (a : Axis) (now sp : Nat) : Axis :=
  let es := (now :: a.edges).take (sp + 1)
  { a with edges := es,
           tpred := if es.length < 2 then a.tpred else min ((now - es.getLastD now) / (es.length - 1)) 0xFFFFFF }
/-- TPRED begun afresh with this edge (R535). -/
def Axis.freshRun (a : Axis) (now : Nat) : Axis := { a with edges := [now], same := 1 }

/-- Tick that edge n is compared with for EARLY and LATE: t(n − m), where the last edge was n − 1 (R34, R535). -/
def Axis.refEdge (a : Axis) : Nat := a.edges.getD (a.m - 1) 0
/-- Is an edge at `now` EARLY (R34)? -/
def Axis.early (a : Axis) (now : Nat) : Bool :=
  let tol := field a.live 8 8
  decide (tol ≠ 0) && decide (1 ≤ a.m) && decide (now * 256 < a.refEdge * 256 + a.m * a.tpred * (256 - tol))
/-- Has the awaited edge become LATE (R34)? -/
def Axis.lateNow (a : Axis) (now : Nat) : Bool :=
  let tol := field a.live 8 8
  decide (tol ≠ 0) && decide (1 ≤ a.m) && decide (a.refEdge * 256 + a.m * a.tpred * (256 + tol) ≤ now * 256)

/-- An edge counted on an axis that is not in TRACK: the run toward TRACK (R30, R33). -/
def Axis.acquireEdge (a : Axis) (mains back : Bool) (now sp : Nat) : Axis :=
  let fresh := a.state != .acquire || a.edges.isEmpty
  let gap := now - a.lastEdge
  let a1 := if fresh then a.freshRun now
    else if mains then (if mainsOk gap then { (a.pushEdge now sp) with same := a.same + 1 } else a.freshRun now)
    else if back = a.back then { (a.pushEdge now sp) with same := a.same + 1 }
    else { (a.pushEdge now sp) with same := 1 }
  { a1 with state := if (if mains then 3 else sp + 2) ≤ a1.same then .track else .acquire }

/-- The counted integer moves and the fraction goes to 0000h; interpolation restarts (R28, R38). -/
def Axis.count (a : Axis) (back : Bool) (now : Nat) (devcfg : Word) : Axis :=
  let i := if back then a.int - 1 else a.int + 1
  { a with int := i, base := 0, fromSet := false, pos := mkPos i.toNat 0, t0 := now, lastEdge := now, back := back,
           lateDone := false, live := devcfg }

/-- An edge on an encoder or mains axis: one count, the state's transition, and the checks of R34. -/
def State.axEdge (s : State) (n : Nat) (back : Bool) : State :=
  let a := s.axis n
  let mains := s.axSrc n == 2
  let sp := s.axSpan n
  let cfg := s.reg (Reg.AX_DEVCFG n)
  let place := fun (b : Axis) => (b.count back s.now cfg)
  let s0 := s.modReg (Reg.AX_STAT n) fun w => putField w 3 1 (flag back 0)
  let fin := fun (b : Axis) => ((s0.setAxis n b).clearSince 16 n).syncCopies
  if a.state = .track then
    if back ≠ a.back then (fin { (place (a.freshRun s.now)) with state := .acquire }).deviate n 4
    else
      let b := place (a.pushEdge s.now sp)
      let out := mains && !(mainsOk b.tpred)
      let s1 := fin { b with state := if out then .lost else .track }
      let s2 := if a.early s.now then s1.deviate n 1 else s1
      if out then (if (s2.axis n).devSince then s2.axisLost n else (s2.axisLost n).deviate n 8) else s2
  else fin (place (a.acquireEdge mains back s.now sp))

/-- Shortest pulse, in ticks, that an axis's filter lets through (R53). -/
def State.axFilter (s : State) (n : Nat) : Nat :=
  let f := field (s.reg (Reg.AX_CFG n)) 0 3
  if f = 0 then 0 else 4 ^ (f - 1)

/-- Place of a pair of levels in the forward sequence 00b, 10b, 11b, 01b (R27). -/
def quad (a b : Bool) : Nat :=
  match a, b with
  | false, false => 0 | true, false => 1 | true, true => 2 | false, true => 3

/-- An illegal quadrature transition (R27). -/
def State.axIllegal (s : State) (n : Nat) : State :=
  if s.axState n = .off then s
  else ((s.bump (Reg.AX_EDGEERR n)).setBits (Reg.AX_STAT n) 0x4000).deviate n 5

/-- Levels A and B as one axis sees them, held for `hold` ticks (R27). -/
def State.encoderLevels (s : State) (n : Nat) (a b : Bool) (hold : Nat) : State :=
  let x := s.axis n
  if hold < s.axFilter n then s
  else
    let s1 := s.setAxis n { x with va := a, vb := b }
    let d := (quad a b + 4 - quad x.va x.vb) % 4
    let inv := bit (s.reg (Reg.AX_CFG n)) 7
    match d with
    | 0 => s1
    | 1 => s1.axEdge n inv
    | 2 => s1.axIllegal n
    | _ => s1.axEdge n (!inv)

/-- The levels of an encoder's pads as the axes see them: a disabled pad reads 0 (R508). -/
def State.encoderPads (s : State) (e : Nat) (p : Bool × Bool) : Bool × Bool :=
  (p.1 && s.padEn (0x140 + 3 * e), p.2 && s.padEn (0x141 + 3 * e))

/-- Every axis that takes encoder `e` does `f`. -/
def State.onEncoder (s : State) (e : Nat) (f : State → Nat → State) : State :=
  (List.range 15).foldl (fun t n => if t.axSrc n = 1 ∧ t.axSel n = e then f t n else t) s

/-- A zero-cross on a mains input, counted by the axes that chose its edge (R30). -/
def State.zeroCross (s : State) (m : Nat) (falling : Bool) : State :=
  if !(s.padEn (0x164 + m)) then s
  else (List.range 15).foldl (fun t n =>
    if t.axSrc n = 2 ∧ t.axSel n = m ∧ bit (t.reg (Reg.AX_CFG n)) 6 = falling then t.axEdge n false else t) s

/-! ## Timeouts (R30, R33 to R35) -/

/-- The awaited edge is late (R34). -/
def State.lateTimeout (s : State) (n : Nat) : State :=
  let a := s.axis n
  if (s.axSrc n = 1 ∨ s.axSrc n = 2) ∧ a.state = .track ∧ !a.lateDone ∧ a.lateNow s.now then
    (s.setAxis n { a with lateDone := true }).deviate n 2
  else s

/-- An axis leaves TRACK by a timeout: its fraction freezes, and the deviation follows unless one has been raised since the
last edge (R28, R35). -/
def State.leaveTrack (s : State) (n : Nat) (st : AxState) (cause : Nat) : State :=
  let a := s.axis n
  let s1 := s.setAxis n { (a.freeze s.now) with state := st }
  let s2 := if st = .lost then s1.axisLost n else s1
  if a.devSince then s2 else s2.deviate n cause

/-- No encoder edge within min(TOUT_K × TPRED, 1.34 s) (R33). -/
def State.stopTimeout (s : State) (n : Nat) : State :=
  let a := s.axis n
  let k := max (field a.live 4 4) 2
  if s.axSrc n = 1 ∧ a.state = .track ∧ min (k * a.tpred) 268000000 ≤ s.now - a.lastEdge then s.leaveTrack n .stopped 3
  else s

/-- No zero-cross within 1.5 × TPRED (R30). -/
def State.mainsTimeout (s : State) (n : Nat) : State :=
  let a := s.axis n
  if s.axSrc n = 2 ∧ a.state = .track ∧ 3 * a.tpred ≤ 2 * (s.now - a.lastEdge) then s.leaveTrack n .lost 8 else s

/-! ## Index (R39, R40) -/

/-- The backward and the forward distance from `p` to the nearest position whose angle is ZPOS with fraction 0000h. The angles
start afresh where the integer wraps, so the distance across the wrap is measured on the positions (R39, R40). -/
def indexMove (p zpos modulus : Nat) : Nat × Nat :=
  let i := p / 65536
  let z := if modulus = 0 then zpos else zpos % modulus
  let at_ := fun (k : Nat) => z + k * modulus
  let back := if modulus = 0 then z else if z ≤ i then at_ ((i - z) / modulus) else at_ ((2 ^ 32 - 1 - z) / modulus)
  let next := if modulus = 0 ∨ i < z then z else at_ ((i - z) / modulus + 1)
  let fwd := if next < 2 ^ 32 then next else z
  ((p + 2 ^ 48 - back * 65536) % 2 ^ 48, (fwd * 65536 + 2 ^ 48 - p) % 2 ^ 48)
/-- How far `p` lies from the index position: backward distance and forward distance to it, modulo MOD counts. -/
def indexGap (p zpos modulus : Nat) : Nat × Nat :=
  let m := if modulus = 0 then 2 ^ 48 else modulus * 65536
  let d := (p % m + m - zpos * 65536 % m) % m
  (d, (m - d) % m)

/-- An index mismatch (R40). -/
def State.indexError (s : State) (n : Nat) : State := (s.setBits (Reg.AX_STAT n) 0x2000).deviate n 6

/-- A rising edge of the index input as one axis sees it (R40). -/
def State.indexOn (s : State) (n hold : Nat) : State :=
  let z := s.reg (Reg.AX_ZCFG n)
  let mode := field z 14 2
  let p := s.axPos n
  if hold < s.axFilter n ∨ mode = 0 then s
  else
    let s1 := ((((s.setReg (Reg.AX_ZLATF n) (wordOf p.toNat 0)).setReg (Reg.AX_ZLATL n) (wordOf p.toNat 1)).setReg
      (Reg.AX_ZLATH n) (wordOf p.toNat 2))).raiseGlobal (0x10 + n)
    let zpos := s.reg2 (Reg.AX_ZPOSL n) (Reg.AX_ZPOSH n)
    let modulus := s.reg2 (Reg.AX_MODL n) (Reg.AX_MODH n)
    let far := fun (g : Nat × Nat) => decide (field z 0 8 * 65536 < min g.1 g.2)
    match mode with
    | 2 => if far (indexGap (s.axAngle n).toNat zpos modulus) then s1.indexError n else s1
    | 3 =>
      let g := indexMove p.toNat zpos modulus
      if g.1 = 0 then s1
      else
        let s2 := (s1.movePos n (if g.1 ≤ g.2 then p - BitVec.ofNat 48 g.1 else p + BitVec.ofNat 48 g.2)).syncCopies
        if far g then s2.indexError n else s2
    | _ => s1

/-! ## Register effects (R31, R32, R38, R52 to R55) -/

/-- A refused configuration write (R54). -/
def State.axCfgErr (s : State) (n : Nat) : State := s.setBits (Reg.AX_STAT n) 0x1000

/-- AX_BEPOCH rises and is announced to HUB and every sorting die in service or past B3; broadcasts pause (R267). -/
def State.announceBepoch (s : State) : State :=
  let e := ((s.reg Reg.AX_BEPOCH).toNat + 1) % 256
  let to_ := [0, 3, 4, 5, 6].filter fun d => s.inService d || decide (3 ≤ (s.die d).phase)
  let s1 := to_.foldl (fun t d => (t.modDie d fun x => { x with bePend := true }).launch (.bepoch d e)) (s.setReg Reg.AX_BEPOCH (word e))
  if to_.isEmpty then s1 else { s1 with bePause := some s.now }

/-- May AXn_CFG take the value (R25, R31, R32, R54), with the pads it needs in use (R508)? -/
def State.axCfgOk (s : State) (n : Nat) (v : Word) : Bool :=
  let sel := field v 8 4
  n != 15 && (match field v 12 4 with
    | 0 => true
    | 1 => decide (sel < 12) && s.padEn (0x140 + 3 * sel) && s.padEn (0x141 + 3 * sel)
    | 2 => decide (sel < 6) && s.padEn (0x164 + sel) && decide (field v 3 3 ≤ 3)
    | 3 => decide (sel < n) || decide (sel = 15)
    | _ => false)

/-- Sets AXn_CFG with the master position as it stands, which an axis that was OFF has from the image's AXn_SET entries alone; the
axis starts in ACQUIRE or OFF, and an encoder axis from the levels its pins have (R27, R54). TPRED keeps its value (R535). -/
def State.axConfigure (s : State) (n : Nat) (v : Word) : State :=
  let p := if s.axSrc n = 0 then (s.axis n).pos else s.axPos n
  let a := s.axis n
  let src := field v 12 4
  let pins := s.encoderPads (field v 8 4) (s.encPins.getD (field v 8 4) (false, false))
  let s1 := (s.syncCopies).setReg (Reg.AX_CFG n) v
  let q := if src = 0 then 0 else if src = 2 then p - BitVec.ofInt 48 (signed (s.reg (Reg.AX_PHOFS n))) else p
  s1.setAxis n { a with
    state := if src = 0 then .off else .acquire, int := BitVec.ofNat 32 (posInt q), base := BitVec.ofNat 16 (posFrac q),
    pos := q, t0 := s.now, fromSet := false, edges := [], same := 0, rem := 0, lateDone := false,
    va := if src = 1 then pins.1 else a.va, vb := if src = 1 then pins.2 else a.vb, srcPos := s1.axPos (field v 8 4) }

/-- A write of AXn_CFG (R54). -/
def State.axCfgWrite (s : State) (n : Nat) (v : Word) : State :=
  if s.axCfgOk n v then ((s.axConfigure n v).deviate n 0xA).announceBepoch else s.axCfgErr n

/-- A write of AXn_SETH applies the position staged by its writer (R4, R38); AX15 refuses it (R32). -/
def State.axSetWrite (s : State) (who n : Nat) (seth : Word) : State :=
  let f := s.staged who (Reg.AX_SETF n) 0
  let l := s.staged who (Reg.AX_SETL n) 0
  let s1 := s.clearStage who (Reg.AX_SETF n) 3
  if n = 15 then s1.axCfgErr n
  else if s1.axState n = .off then s1
  else (((s1.syncCopies).movePos n (markPos f l seth)).syncCopies).deviate n 7

/-- AXn_CTRL.FORCE_DEV (R32, R34). -/
def State.forceDev (s : State) (n : Nat) : State := s.deviate n 0xB
/-- AXn_CTRL.CLRCNT. -/
def State.axClrcnt (s : State) (n : Nat) : State := s.zeroRegs [Reg.AX_DEVCNT n, Reg.AX_EDGEERR n]
/-- A run-time write of AX_BCAST_CFG or AX_BCAST_MASK (R55). -/
def State.bcastWrite (s : State) (mask : Bool) (v : Word) : State :=
  (if mask then s.setReg Reg.AX_BCAST_MASK v else s.setReg Reg.AX_BCAST_CFG (v &&& 0x803F)).announceBepoch
/-- A write of NUM or DEN of a copy: increments so far stand, the remainder is discarded (R31); a DEN of 0 is refused. -/
def State.axRatioWrite (s : State) (n : Nat) (den : Bool) (v : Word) : State :=
  if den ∧ v = 0 then s.axCfgErr n
  else
    let s1 := s.syncCopies
    (s1.setAxis n { s1.axis n with rem := 0 }).setReg (if den then Reg.AX_DEN n else Reg.AX_NUM n) v

/-! ## Broadcasts and replicas (R46 to R51, R55) -/

/-- BCAST_INT in microseconds. -/
def State.bcastInt (s : State) : Nat := field (s.reg Reg.AX_BCAST_CFG) 0 6 + 1
/-- The lanes of a broadcast parcel of axis `n` (R46). -/
def State.bcastLanes (s : State) (n : Nat) (seq : Word) : Sheet :=
  let p := (s.axPos n).toNat
  let t := s.axTpred n
  ⟨wordOf p 0, wordOf p 1, wordOf p 2, word ((s.reg Reg.AX_BEPOCH).toNat * 256 + (s.axState n).code),
    s.reg (Reg.AX_DEVSEQ n), wordOf t 0, wordOf t 1, seq⟩

/-- BROADCAST_SAMPLE: every axis of the mask is sampled and sent to HUB and each sorting die in service (R46). -/
def State.broadcastSample (s : State) : State :=
  let isDue : Bool := match s.bcLast with
    | none => true
    | some u => decide (u + s.bcastInt ≤ s.refUs)
  if !(bit (s.reg Reg.AX_BCAST_CFG) 15) || s.bePause.isSome || !isDue || !(s.inService 7) || s.paused then s
  else
    let s1 : State := { (s.bumpWrap Reg.AX_BSEQ 1) with bcLast := some s.refUs }
    let seq := s1.reg Reg.AX_BSEQ
    let mask := s1.reg Reg.AX_BCAST_MASK
    let dies := [0, 3, 4, 5, 6].filter fun d => s1.inService d
    dies.foldl (fun t d => (List.range 16).foldl (fun u n =>
      if bit mask n then
        u.launch (.bcast d n (s1.bcastLanes n seq))
      else u) t) s1

/-- Replica of axis `n` on die `d`. -/
def State.replica (s : State) (d n : Nat) : Replica := s.replicas.getD (16 * d + n) Replica.reset
/-- The state with a replica replaced. -/
def State.setReplica (s : State) (d n : Nat) (r : Replica) : State := { s with replicas := s.replicas.set (16 * d + n) r }

/-- A replica that applies a broadcast (R47, R50). -/
def Replica.apply (r : Replica) (x : Sheet) (us : Nat) : Replica :=
  let seq := x.l7.toNat
  let gap := (seq + 65536 - r.seq) % 65536
  let st := r.stale || (!r.fresh && decide (5 ≤ gap))
  let run := if r.stale && !r.fresh && decide (gap = 1) then r.run + 1 else 1
  { pos := markPos x.l0 x.l1 x.l2, state := field x.l3 0 3, devSeq := x.l4, tpred := x.l5.toNat + 65536 * field x.l6 0 8,
    seq := seq, fresh := false, stale := st && !(r.stale && decide (2 ≤ run)), run := run, lastUs := us }

/-- BROADCAST_APPLY: a parcel newer than the last applied and of the die's agreed epoch is applied; another is discarded and
counted (R47). -/
def State.broadcastApply (s : State) (d n : Nat) : State :=
  s.take (fun m => match m with | .bcast e a _ => e == d && a == n | _ => false) fun m u =>
    match m with
    | .bcast _ _ x =>
      let r := u.replica d n
      if (r.fresh || newer x.l7 (word r.seq)) && decide (field x.l3 8 8 = (u.die d).bepoch) then
        u.setReplica d n (r.apply x u.refUs)
      else u.bump (Reg.FD_BCDISC d)
    | _ => u

/-- REPLICA_STALE: 4 expected broadcasts in a row have been missed (R50). -/
def State.replicaStale (s : State) (d n : Nat) : State :=
  let r := s.replica d n
  if !r.stale ∧ 4 * s.bcastInt ≤ s.refUs - r.lastUs then s.setReplica d n { r with stale := true, run := 0 } else s

/-- RSTATE word of a replica (R48). -/
def Replica.rstate (r : Replica) : Word := word (flag r.stale 15 + r.state)
/-- Replica word `k` (0 to 7) as it reads now; an axis outside the mask reads 0 throughout (R48). -/
def State.replicaWord (s : State) (d n k : Nat) : Word :=
  let r := s.replica d n
  if !(bit (s.reg Reg.AX_BCAST_MASK) n) then 0
  else match k with
    | 0 => wordOf r.pos.toNat 0 | 1 => wordOf r.pos.toNat 1 | 2 => wordOf r.pos.toNat 2 | 3 => r.rstate | 4 => r.devSeq
    | 5 => wordOf r.tpred 0 | 6 => wordOf r.tpred 1
    | _ => if r.fresh then 0 else word (min (s.refUs - r.lastUs) 0xFFFF)

/-- BEPOCH_ANNOUNCEMENT: die `d` adopts the announced epoch and acknowledges; with every acknowledgement in, broadcast
resumes (R267). -/
def State.bepochAnnouncement (s : State) (d : Nat) : State :=
  s.take (fun m => match m with | .bepoch e _ => e == d | _ => false) fun m u =>
    match m with
    | .bepoch _ e =>
      let now := decide (e = (u.reg Reg.AX_BEPOCH).toNat)
      let u1 := (u.modDie d fun x => { x with bepoch := e, bePend := x.bePend && !now }).setReg (Reg.FD_BEPOCH d) (word e)
      if [0, 3, 4, 5, 6].any fun k => (u1.die k).bePend then u1 else { u1 with bePause := none }
    | _ => u

/-- AXn_STAT as it reads: its stored bits with the present STATE (R53). -/
def State.axStat (s : State) (n : Nat) : Word := putField (s.reg (Reg.AX_STAT n)) 0 3 (s.axState n).code

end Sys2Proof.Machine
end

