-- ==== Sys2Proof/Machine/Outbox.lean ====
section
/-!
DEFINITION. The outbox: arrival checks, the sorted lists, release at each tick, the spill, purge and push (spec 10, R275 to
R284, R297), and the passing of time.
-/
namespace Sys2Proof.Machine

/-! ## Time -/

/-- One 5 ns tick passes: the axis timebase counts while the device is awake, and the AON timer whenever VAON is present
(R26, R385). A wake returns AX15 at W4, or at J8 after SEALED, and until then the timebase stands (R370). -/
def State.advance (s : State) : State :=
  let aon := s.vaon && Config.aonTick s.ticks
  let s1 : State := { s with ticks := s.ticks + 1, aonTime := if aon then (s.aonTime + 1) % 2 ^ 48 else s.aonTime }
  let counts := match s.phase with
    | .off | .dormant | .isSealed => false
    | .waking k => decide (4 < k)
    | .starting k => s.wake.isNone || decide (8 < k)
    | _ => true
  if !counts then s1
  else
    if (s.now + 1) % 200 = 0 then ({ s1 with now := s.now + 1 }).syncCopies else { s1 with now := s.now + 1 }

/-! ## Arrival (R275, R276) -/

/-- Does the target word follow R275? -/
def targetOk (t : Word) : Bool :=
  match field t 14 2 with
  | 0 => decide (field t 6 8 = 0)
  | 1 => decide (field t 13 1 = 0) && decide (1 ≤ field t 4 6) && decide (field t 4 6 ≤ 62)
  | 2 => decide (field t 5 9 = 0)
  | _ => decide (field t 10 4 = 0)

/-- Are the action words' bits that R275 shows as zero all zero (R276)? -/
def actionOk (e : Sheet) : Bool :=
  match field e.l4 14 2 with
  | 0 => decide (field e.l6 3 13 = 0) && (field e.l6 0 3 != 0 || decide (field e.l5 1 15 = 0))
  | 1 => decide (field e.l6 3 13 = 0)
  | 2 => decide (field e.l5 1 15 = 0) && decide (e.l6 = 0)
  | _ => true

/-- Does an entry pass the checks of its arrival (R276, R312)? An OB_PUSH entry carries no tag (R297). -/
def State.entryOk (s : State) (push : Bool) (e : Sheet) : Bool :=
  decide (field e.l0 8 3 = 0) && s.axSrc (markAxis e.l0) != 0 && targetOk e.l4 && actionOk e && (!push || decide (e.l7 = 0)) &&
    (match field e.l4 14 2 with
      | 0 => s.chEn (field e.l4 0 6)
      | 1 => decide (s.zpAxis (field e.l4 10 3) = markAxis e.l0) && s.zpEn (field e.l4 10 3)
      | 2 => s.gpOb (field e.l4 0 5)
      | _ => true)

/-- Entries in the on-die store. -/
def Outbox.count (o : Outbox) : Nat := ((o.lists.map fun e => e.2.length)).sum
/-- Does the spill or its write buffer hold an entry (OB_STAT.SPILLING)? -/
def Outbox.spilling (o : Outbox) : Bool := !o.spill.isEmpty || !o.wbuf.isEmpty
/-- Entries in the spill and its write buffer. -/
def Outbox.spCount (o : Outbox) : Nat := (o.spill.map List.length).sum + o.wbuf.length
/-- Spill blocks of the ring. -/
def State.obSpLen (s : State) : Nat := min (s.reg Reg.OB_SPLEN).toNat 0x4000
/-- Is the spill on? -/
def State.obSpillOn (s : State) : Bool := bit (s.reg Reg.OB_CFG) 15 && decide (0 < s.obSpLen)
/-- Tags of the undecided epochs with spilled entries: those in the write buffer, and those in the ring that no verdict row
covers (R284). -/
def Outbox.spilledTags (o : Outbox) : List Word :=
  (((o.spill.flatten).map fun x => x.tag).filter fun t => t != 0 && decide (0 < o.spilledOf t)) ++
    ((o.wbuf.map fun x => x.tag).filter fun t => t != 0)

/-- Keeps the first of equal words. -/
def dedup : List Word → List Word
  | [] => []
  | t :: r => if r.contains t then dedup r else t :: dedup r

/-- May an entry with this tag be spilled (R284)? -/
def Outbox.maySpill (o : Outbox) (t : Word) : Bool :=
  t == 0 || o.spilledTags.contains t || decide ((dedup o.spilledTags).length + o.verdicts.length < 1024)

/-- Key of the list of an entry's axis and direction (R278). -/
def listKey (e : Sheet) : Nat := 2 * markAxis e.l0 + flag (markBack e.l0) 0
/-- The mark of an entry. -/
def entryMark (e : Sheet) : Pos := markPos e.l1 e.l2 e.l3

/-- Inserts by serial order from position `p`, behind entries with equal marks (R278). -/
def insertEntry (p : Pos) (x : ObEntry) : List ObEntry → List ObEntry
  | [] => [x]
  | y :: t =>
    let dx := serialDiff (entryMark x.e) p
    let dy := serialDiff (entryMark y.e) p
    if (if markBack x.e.l0 then dy < dx else dx < dy) then x :: y :: t else y :: insertEntry p x t

/-- An entry enters its list; it counts as late later if its L exceeds 2^16 now (R279). -/
def State.listEntry (s : State) (e : Sheet) (tag : Word) : State :=
  let p := s.axPos (markAxis e.l0)
  let l := lateness (s.entryPos e p) (entryMark e) (markBack e.l0)
  let x : ObEntry := { e := e, tag := tag, late := decide (l < 2 ^ 47) && decide (65536 < l) }
  let o := s.outbox
  let o1 : Outbox := { o with lists := o.lists.set (listKey e) (insertEntry p x (o.lists.getD (listKey e) [])) }
  let s1 : State := { s with outbox := o1 }
  if (s1.reg Reg.OB_HWMARK).toNat < o1.count then s1.setReg Reg.OB_HWMARK (word o1.count) else s1

/-- The words of a spill block; an empty position has target word FFFFh (R282). -/
def obBlockWords (es : List ObEntry) : List Word :=
  ((List.range 4).map fun k => match es[k]? with
    | some x => ({ x.e with l7 := x.tag } : Sheet).toList
    | none => [0, 0, 0, 0, 0xFFFF, 0, 0, 0]).flatten

/-- DDR5 word address of ring block `i` (R282). -/
def State.obBlockAddr (s : State) (i : Nat) : Nat :=
  2048 * ((s.reg Reg.OB_SPBASEL).toNat + 65536 * field (s.reg Reg.OB_SPBASEH) 0 11) + 32 * (i % max s.obSpLen 1)

/-- Takes a DDR stamp of the spill's route for one block, or notes the wait (R283). -/
def State.obStamp (s : State) (f : State → State) : State :=
  let rt := field (s.reg Reg.OB_CFG) 0 8
  if s.hasStamp 0 rt 1 then f (s.takeStamp 0 rt 1) else s.noteWait rt 1

/-- The write buffer goes to the next ring block, when the ring has room (R283). -/
def State.obWriteBlock (s : State) : State :=
  let o := s.outbox
  if o.wbuf.isEmpty || decide (s.obSpLen ≤ o.spill.length) then s
  else s.obStamp fun u =>
    let u1 := (u.passN 4 7 0).ddrWrite (u.obBlockAddr (o.firstBlock + o.spill.length)) (obBlockWords o.wbuf)
    { u1 with outbox := { o with spill := o.spill ++ [o.wbuf.map fun x => { tag := x.tag, axis := markAxis x.e.l0, purged := false }],
                                 wbuf := [] } }

/-- The on-die store takes no entry and the spill can take no more (R277, R283). -/
def State.obFull (s : State) : Bool :=
  !(decide (s.outbox.count < 4096) && !s.outbox.spilling) && !(s.obSpillOn && decide (s.outbox.wbuf.length < 4))
/-- Can the outbox take an entry with this tag now (R277, R283, R284)? -/
def State.obRoom (s : State) (tag : Word) : Bool :=
  (decide (s.outbox.count < 4096) && !s.outbox.spilling) || (!s.obFull && s.outbox.maySpill tag)
/-- OB_STAT.HOLD: the outbox withholds credits, while it is full or an arrival waits for room (R277, R284). -/
def State.obHolding (s : State) : Bool :=
  s.obFull || (match s.outbox.hold with
    | some t => !(s.obRoom t)
    | none => false)
/-- HOLDEV sets when the hold of R277 begins in a step from `s` to `t`. -/
def State.obNote (s t : State) : State := if t.obHolding && !s.obHolding then t.obEvent 11 else t

/-- Stores an entry that passed: in its list, or behind the spill (R276, R283). -/
def State.obStore (s : State) (e : Sheet) (tag : Word) : State :=
  let o := s.outbox
  if o.count < 4096 && !o.spilling then s.listEntry e tag
  else
    let o1 : Outbox := { o with wbuf := o.wbuf ++ [{ e := e, tag := tag, late := false }],
                                wbufAt := if o.wbuf.isEmpty then s.now else o.wbufAt }
    let s1 : State := { s with outbox := o1 }
    if o1.wbuf.length = 4 then s1.obWriteBlock else s1

/-- The tag by which an entry waits for room, if it has to: one that would be dropped or discarded waits for none (R277). -/
def State.obWaits (s : State) (push : Bool) (e : Sheet) : Option Word :=
  if !(s.entryOk push e) then none
  else match s.judgeTag e.l7 with
    | .committed => if s.obRoom 0 then none else some 0
    | .live => if s.obRoom e.l7 then none else some e.l7
    | _ => none

/-- An entry arrives: dropped, discarded or stored (R276, R193). -/
def State.obArrive (s : State) (push : Bool) (e : Sheet) : State :=
  if !(s.entryOk push e) then s.dropFormat e
  else match s.judgeTag e.l7 with
    | .committed => s.obNote (s.obStore e 0)
    | .live => s.obNote (s.obStore e e.l7)
    | _ => s.bump Reg.EPOCH_LATEPOST

/-- Is it an outbox entry on its way? -/
def isEntry : Msg → Bool
  | .entry _ _ => true
  | _ => false

/-- OUTBOX_ARRIVAL: the oldest entry on its way arrives, or waits behind the hold (R276, R277). -/
def State.outboxArrival (s : State) : State :=
  match s.nextIn isEntry with
  | (some (.entry who e), u) =>
    if u.obHolding then u
    else match u.obWaits (decide (128 ≤ who)) e with
      | some t => u.obNote { u with outbox := { u.outbox with hold := some t } }
      | none =>
        let s1 := u.takeOut (.entry who e)
        ({ s1 with outbox := { s1.outbox with hold := none } }).obArrive (decide (128 ≤ who)) e
  | (_, u) => u

/-- The pushes that waited for room are performed, in order, as far as there is room (R277). -/
def State.obDrain (s : State) : Nat → State
  | 0 => s
  | fuel + 1 =>
    match s.outbox.pushes with
    | [] => s
    | e :: rest =>
      if (s.obWaits true e).isSome then s
      else (({ s with outbox := { s.outbox with pushes := rest } }).obArrive true e).obDrain fuel
/-- Room frees in a step from `s` to `t`: pushes that waited for it are performed, and a hold that begins is noted (R277). -/
def State.obFree (s t : State) : State := s.obNote (t.obDrain t.outbox.pushes.length)

/-- A write of OB_PUSH7 pushes the staged entry (R4, R297); during the hold it waits for room (R277). -/
def State.obPush (s : State) (who : Nat) (v : Word) : State :=
  let at_ := fun k => s.staged who (Reg.OB_PUSH k) 0
  let e : Sheet := ⟨at_ 0, at_ 1, at_ 2, at_ 3, at_ 4, at_ 5, at_ 6, v⟩
  let s1 := s.clearStage who (Reg.OB_PUSH 0) 8
  if s1.obHolding || !s1.outbox.pushes.isEmpty || (s1.obWaits true e).isSome then
    { s1 with outbox := { s1.outbox with pushes := s1.outbox.pushes ++ [e] } }
  else s1.obArrive true e

/-! ## Release (R278 to R280, R42) -/

/-- The event sheet of a kind 11b entry (R280). -/
def State.eventSheet (s : State) (e : Sheet) : Sheet :=
  let p := (s.axPos (markAxis e.l0)).toNat
  ⟨e.l0, wordOf p 0, wordOf p 1, wordOf p 2, e.l4, e.l5, e.l6, wordOf (posInt s.ax15) 0⟩

/-- An entry is released to its target (R275, R279, R280). A channel in SAFE and a safe node suppress it themselves (R286,
R320, R495). -/
def State.releaseEntry (s : State) (x : ObEntry) : State :=
  let e := x.e
  let s1 := s.bump2 Reg.OB_RELL Reg.OB_RELH 1
  let s2 := if x.late then (s1.bump Reg.OB_LATE).obEvent 12 else s1
  match field e.l4 14 2 with
  | 0 => s2.fireEntry (field e.l4 0 6) e
  | 1 => s2.zegenEntry e
  | 2 => s2.gpioEntry (field e.l4 0 5) e
  | _ => s2.pushFrom 7 (field e.l4 0 10) (ordinary (s2.eventSheet e))

/-- An entry that is due and stale is dropped (R279). -/
def State.dropStale (s : State) (e : Sheet) : State :=
  ((s.bump Reg.OB_STALE).obEvent 15).deadLetter 0xC 7 (entryWords e)

/-- Releases or drops the heads of list `k` until its head is not due (R278). -/
def State.releaseList (s : State) (k : Nat) : Nat → State
  | 0 => s
  | fuel + 1 =>
    match s.outbox.lists.getD k [] with
    | [] => s
    | x :: rest =>
      let p := s.entryPos x.e (s.axPos (k / 2))
      let m := entryMark x.e
      let back := markBack x.e.l0
      if !(due p m back) then s
      else
        let s1 : State := { s with outbox := { s.outbox with lists := s.outbox.lists.set k rest } }
        let s2 := if stale p m back (markLate x.e.l0) then s1.dropStale x.e else s1.releaseEntry x
        s2.releaseList k fuel

/-- Does the outbox release: DISPATCH not declared out, and no pause of a sleep entry (R23, R371, D2)? -/
def State.obReleases (s : State) : Bool :=
  !s.dispatchIsOut && (match s.sleep with
    | some r => decide (r.step < 2)
    | none => true)

/-- Every list is tested once (R278). -/
def State.releaseAll (s : State) : State :=
  if s.obReleases then (List.range 32).foldl (fun t k => t.releaseList k (t.outbox.lists.getD k []).length) s else s

/-- OUTBOX_TICK: one tick passes; the channels follow their axes, and due heads are released or dropped (R278). -/
def State.outboxTick (s : State) : State :=
  let s1 := s.advance
  let s2 := s1.chans.foldl (fun t e => t.tickChan e.1) s1
  s2.obFree s2.releaseAll

/-! ## Spill return, purge and counters (R283, R284, R297) -/

/-- OB_SPILL_BUFFER_TIMEOUT: the buffer is written 1 µs after its first entry (R283). -/
def State.obBufferTimeout (s : State) : State :=
  if s.outbox.wbufAt + 200 ≤ s.now then s.obFree s.obWriteBlock else s

/-- The verdict that an entry of a tag returning from spill gets: the oldest row's, whose count falls (R284). -/
def takeVerdict (t : Word) : List Verdict → Option Bool × List Verdict
  | [] => (none, [])
  | v :: r =>
    if v.tag = t then (some v.settled, if v.count ≤ 1 then r else { v with count := v.count - 1 } :: r)
    else ((takeVerdict t r).1, v :: (takeVerdict t r).2)

/-- One entry of a returned block (R283, R284, R297). -/
def State.obReturn (s : State) (bad : Bool) (e : Sheet) (m : ObSpilled) : State :=
  let v := if m.tag = 0 then (none, s.outbox.verdicts) else takeVerdict m.tag s.outbox.verdicts
  let s1 : State := { s with outbox := { s.outbox with verdicts := v.2 } }
  if bad then (s1.bump Reg.OB_SPERR).deadLetter 0xD 7 (entryWords e)
  else if m.purged then s1.bump Reg.OB_PURGED
  else match v.1 with
    | some false => s1.bump Reg.EPOCH_REVOKED
    | some true => s1.listEntry e 0
    | none => s1.listEntry e (if s1.judgeTag m.tag = .live then m.tag else 0)

/-- OB_SPILL_READ: the oldest block returns once 512 on-die places are free; `bad` names an uncorrectable burst (R283). -/
def State.obSpillRead (s : State) (bad : Bool) : State :=
  match s.outbox.spill with
  | [] => s
  | blk :: rest =>
    if 4096 < s.outbox.count + 512 then s
    else s.obStamp fun u =>
      let ws := u.peeks (ddrKey (u.obBlockAddr u.outbox.firstBlock)) 32
      let o1 : Outbox := { u.outbox with spill := rest, firstBlock := (u.outbox.firstBlock + 1) % max u.obSpLen 1 }
      let u1 : State := { ((u.passRoute 7 0).ddrDemand (u.obBlockAddr u.outbox.firstBlock) 32 bad).passN 4 0 7 with outbox := o1 }
      let u2 := ((List.range blk.length).zip blk).foldl (fun t p =>
        let e := Sheet.ofList ((ws.drop (8 * p.1)).take 8)
        if e.l4 = 0xFFFF then t else t.obReturn (bad || u.ddrUe (u.obBlockAddr u.outbox.firstBlock) 32) e p.2) u1
      u.obFree (if u2.outbox.wbuf.length = 4 then u2.obWriteBlock else u2)

/-- OB_PURGE: every entry on the axis is removed, on die now and in spill on its return (R297). -/
def State.obPurge (s : State) (ax : Nat) : State :=
  let o := s.outbox
  let n := (o.lists.getD (2 * ax) []).length + (o.lists.getD (2 * ax + 1) []).length +
    (o.wbuf.filter fun x => markAxis x.e.l0 == ax).length
  let mark := fun (x : ObSpilled) => if x.axis = ax then { x with purged := true } else x
  let o1 : Outbox := { o with lists := (o.lists.set (2 * ax) []).set (2 * ax + 1) [],
                              wbuf := o.wbuf.filter (fun x => markAxis x.e.l0 != ax),
                              spill := o.spill.map fun b => b.map mark }
  s.obFree (({ s with outbox := o1 }).bumpBy Reg.OB_PURGED n)

/-- OB_CTL.CLRCNT (R297). -/
def State.obClrcnt (s : State) : State :=
  (s.zeroRegs [Reg.OB_LATE, Reg.OB_STALE, Reg.OB_FORMAT, Reg.OB_MODE, Reg.OB_SUPP, Reg.OB_PURGED, Reg.OB_SPERR]).setReg
    Reg.OB_HWMARK (word s.outbox.count)

/-- OB_STAT as it reads. -/
def State.obStat (s : State) : Word :=
  (s.reg Reg.OB_STAT &&& 0xF800) ||| word (flag s.obHolding 1 + flag s.outbox.spilling 0)

end Sys2Proof.Machine
end

