-- ==== Sys2Proof/Machine/Lifecycle.lean ====
section
/-!
DEFINITION. Device modes and die declarations: mode requests and their acknowledgements, a die declared out, and the
consequences of both (spec 01, R15 to R24; R261, R492).
-/
namespace Sys2Proof.Machine

/-- The MODE event (R329). -/
def State.modeEvent (s : State) : State := s.raiseGlobal 0x7A
/-- Sets DEVICE_MODE.MODE and TRANS (R21). -/
def State.setMode (s : State) (m : Nat) (trans : Bool) : State :=
  s.modReg Reg.DEVICE_MODE fun w => putField (putField w 0 4 m) 4 1 (flag trans 0)
/-- DEVICE_MODE.TRANS. -/
def State.trans (s : State) : Bool := bit (s.reg Reg.DEVICE_MODE) 4
/-- The mode that die `d` follows: HUB's is DEVICE_MODE itself (R15). -/
def State.dieMode (s : State) (d : Nat) : Nat := if d = 0 then s.mode else (s.die d).mode
/-- A refused request (R18). -/
def State.refuseMode (s : State) : State := s.setBits Reg.DEVICE_MODE 0x8000

/-- Dies other than HUB that follow a mode change: in service, or past B2 of their bring-up (R265). -/
def State.followers (s : State) : List Nat :=
  ((List.range 7).map (· + 1)).filter fun d => s.inService d || decide (2 ≤ (s.die d).phase)

/-- A transition ends: TRANS clears and MODE is raised (R19, R329). -/
def State.endTransition (s : State) : State :=
  ({ s.setMode s.mode false with modeAt := none }).modeEvent

/-- Entry to SERVICE: every channel gets the cause SERVICE, and Zegen headers carry SAFE (R291, R320, R495). -/
def State.enterService (s : State) : State := ((s.allSafe causeService).updHsafe)

/-- HUB changes mode: every die in service follows and must acknowledge; TRANS is 1 until the last has (R19). -/
def State.changeMode (s : State) (m : Nat) : State :=
  let fs := s.followers
  let s1 := fs.foldl (fun t d =>
    ((t.passRoute 0 d).modDie d fun x => { x with mode := m, ackPend := true }).launch (.modeAck d)) (s.setMode m true)
  let s2 : State := { s1 with modeAt := some s.now }
  let s3 := if m = 7 then s2.enterService else s2
  if fs.isEmpty then s3.endTransition else s3

/-- Is any acknowledgement still awaited from a die in service? -/
def State.awaiting (s : State) : Bool := (List.range 8).any fun d => (s.die d).ackPend && s.inService d

/-- A die's MODE acknowledge reaches HUB; the last one ends the transition (R19). -/
def State.modeAcknowledge (s : State) (d : Nat) : State :=
  s.take (fun m => match m with | .modeAck e => e == d | _ => false) fun _ u =>
    let u1 := u.modDie d fun x => { x with ackPend := false }
    if u1.modeAt.isSome && !u1.awaiting then u1.endTransition else u1

/-! ## The whole device -/

/-- The registers of the AON domain. -/
def aonReg (k : Nat) : Bool := decide (0x4200 ≤ k) && decide (k < 0x4300)
/-- What PORST_N leaves: the AON domain with its time, records, log, SRAM and hold cells, the non-volatile code stores, OTP
and flash, and what lies outside the device; everything else is at its reset value (R16, R385, R388, R473). -/
def State.powerReset (s : State) (p : Phase) : State :=
  let keep := fun (k : Nat) =>
    (decide (codeKey 0 0 ≤ k) && decide (k < ddrKey 0)) || (decide (aonKey 0 ≤ k) && decide (k < corrKey 0 0)) ||
      (decide (flashKey 0 ≤ k) && decide (k < loadKey 0)) || decide (hostKey 0 ≤ k)
  { State.reset with
    pending := s.pending, free := s.free, phase := p, vaon := s.vaon, ticks := s.ticks, aonTime := s.aonTime,
    regs := s.regs.filter (fun e => aonReg e.1), mem := s.mem.filter (fun e => keep e.1), faultLog := s.faultLog,
    logCount := s.logCount, digest := s.digest, otpArb := s.otpArb, strapBoot := s.strapBoot, strapSmb := s.strapSmb,
    savedAxes := s.savedAxes, savedAon := s.savedAon, savedLevels := s.savedLevels, bankSigs := s.bankSigs,
    cxSignal := s.cxSignal, encPins := s.encPins, encWake := s.encWake, gpioWake := s.gpioWake,
    pcie := { Pcie.reset with perst := s.pcie.perst }, tap := s.tap,
    fe := { FireEng.reset with aLow := s.fe.aLow, bLow := s.fe.bLow, gpioIn := s.fe.gpioIn },
    envelope := { Envelope.reset with draws := s.envelope.draws } }
/-- A fault that would put HUB out resets the device: the cause is recorded with `w1`, the word 1 of its own record, and start-up
begins at J1. PORST_N stays high, so sticky bits keep their values and AX15 keeps counting (R6, R7, R22, R32, R492; log 74). -/
def State.hubReset (s : State) (code w1 : Nat) : State :=
  let s1 := s.logFault (0x7000 + code) w1 0 0
  { s1.powerReset (.starting 1) with now := s1.now, regs := (s1.loseRegs fun k => !(aonReg k)).regs }

/-! ## Declared out (R17, R22, R23, R261, R492) -/

/-- What follows for firing and Zegen when DISPATCH is declared out (R23, R290, R291). -/
def State.dispatchOut (s : State) : State :=
  (({ s with fe := { s.fe with gate := true } }).allSafe causeDieOut).updHsafe

/-- HUB declares die `d` out for the reason of R492: its bits in DEVICE_DIES and FD_STAT, the fault record, the recall of its
epochs, its OUT list, and the mode that R16 and R17 give. HUB itself is not declared out: the device resets (R22). -/
def State.dieOut (s : State) (d reason : Nat) : State :=
  if d = 0 then s.hubReset (0x30 + reason) reason
  else
    let s1 := s.modReg Reg.DEVICE_DIES fun w => putField (putField w d 1 0) (8 + d) 1 1
    let s2 := (s1.modDie d fun x => { x with state := .out, ackPend := false, bePend := false }).setBits (Reg.FD_STAT d) 0x8000
    let s3 := s2.logFault (0x3000 + d) reason 0 0
    let s4 := s3.modeEvent
    let s5 := if isSort d then s4.send (.recallDie d) else if d = 7 then s4.dispatchOut else s4
    let s6 : State := { s5 with fbPend := s5.fbPend ++ [(d, true)] }
    if s6.mode = 4 then s6.changeMode 5
    else if s6.modeAt.isSome && !s6.awaiting then s6.endTransition else s6

/-- MODE_ACK_TIMEOUT: dies in service that did not acknowledge within 200 µs are declared out, and the transition completes
without them; one toward RUN ends in DEGRADED (R19). -/
def State.modeAckTimeout (s : State) : State :=
  match s.modeAt with
  | none => s
  | some t =>
    if s.now < t + 40000 then s
    else
      let late := ((List.range 7).map (· + 1)).filter fun d => (s.die d).ackPend && s.inService d
      let m := if s.mode = 4 ∧ !late.isEmpty then 5 else s.mode
      let s0 := if m = s.mode then s else s.followers.foldl (fun t d => t.modDie d fun x => { x with mode := m }) s
      let s1 : State := { s0.setMode m true with modeAt := none }
      (late.foldl (fun u d => u.dieOut d 2) s1).endTransition

/-- W1C of DEVICE_DIES.OUT_EVER. -/
def State.diesClear (s : State) (v : Word) : State := s.clrBits Reg.DEVICE_DIES (v &&& 0xFF00)

/-! ## Requests (R16, R18) -/

/-- May a mode request be judged at all: the device is awake and no transition is in progress? -/
def State.mayRequest (s : State) : Bool := s.phase == .awake && !s.trans && s.sleep.isNone

/-- Is a repair running (IMG_RPSTAT.RUNNING)? -/
def State.repairing (s : State) : Bool := bit (s.reg Reg.IMG_RPSTAT) 11

/-- A request for READY, from RUN, DEGRADED or SERVICE (R16). -/
def State.reqReady (s : State) : State :=
  if s.mayRequest && (s.mode == 4 || s.mode == 5 || s.mode == 7) then s.changeMode 3 else s.refuseMode
/-- A route start, from READY: RUN with all eight dies in service, else DEGRADED (R16, R483). -/
def State.reqRun (s : State) : State :=
  if s.mayRequest && s.mode == 3 then s.changeMode (if field (s.reg Reg.DEVICE_DIES) 0 8 = 0xFF then 4 else 5)
  else s.refuseMode
/-- A request for SERVICE, from READY, RUN or DEGRADED (R16). -/
def State.reqService (s : State) : State :=
  if s.mayRequest && (s.mode == 3 || s.mode == 4 || s.mode == 5) then s.changeMode 7 else s.refuseMode

end Sys2Proof.Machine
end

