-- ==== Sys2Proof/Machine/Fabric.lean ====
section
/-!
DEFINITION. The sorting fabric: link frames and retry, retrain, flush, bring-up exchange, undeliverable parcels, loss of
links, and crossings (spec 09).
-/
namespace Sys2Proof.Machine

/-! ## Flush (R260) -/

/-- Parcels lost at die `x`, one end of link `l`, when the link leaves UP: its replay buffer, what waits there to be sent over it, and
what stands in its receive buffers (R260). -/
def State.flushAt (s : State) (l x : Nat) : State :=
  let mine := fun (t : Transit) => t.via == some l || (t.via == none && t.path.head? == some l)
  let lost := ((s.outDir l x).sent.map (·.2) ++ (s.router x).filter mine).filter fun t => s.msgs.contains t.msg
  let s1 := (s.setRouter x ((s.router x).filter fun t => !(mine t))).modOut l x fun d =>
    { d with sent := [], expect := d.nextTx, acked := d.nextTx, nak := false, naks := 0, passed := [0, 0, 0, 0] }
  lost.foldl (fun t p => (t.bump (Reg.FL_FLUSHED l)).loseTransit 8 x p) s1
/-- Parcels at die `x` whose next link has gone: no route (R260, R262). -/
def State.strandAt (s : State) (l x : Nat) : State :=
  let lost := s.queued l x
  lost.foldl (fun t p => (t.leaveRouter x p).loseTransit 6 x p) s
/-- A link leaves UP for DOWN, FAULT or QUARANTINE: both ends flush, and FLUSHEV sets (R260, R274). -/
def State.flushLink (s : State) (l : Nat) : State :=
  let e := linkEnds.getD l (0, 0)
  let s1 := ((s.setBits (Reg.FL_STAT l) 0x1000).flushAt l e.1).flushAt l e.2
  ((s1.strandAt l e.1).strandAt l e.2).noteHold l

/-- The link takes a state, flushing where it leaves UP, be it through a retrain that failed (R260). -/
def State.setLinkState (s : State) (l : Nat) (st : LinkState) : State :=
  let was := s.linkUp l || ((s.link l).state == .train && (s.link l).retrain)
  let s1 := s.modLink l fun x => { x with state := st }
  if was && (st == .down || st == .fault || st == .quarantine) then s1.flushLink l else s1
/-- Both senders of a link that is UP send what waits. -/
def State.pumpLink (s : State) (l : Nat) : State :=
  let e := linkEnds.getD l (0, 0)
  (s.pump l e.1).pump l e.2

/-! ## Frames and retry (R257 to R259) -/

/-- A retrain begins: it keeps the replay buffers and sequence numbers, and counts an event in the link's window (R259). -/
def State.retrainLink (s : State) (l : Nat) : State :=
  (((s.modLink l fun x => { x with state := .train, retrain := true }).bump (Reg.FL_RETRAIN l)).setBits (Reg.FL_STAT l)
    0x4000).faultEvent 3 l

/-- A receiver gets a frame with sequence number `q`: it accepts the next in order, NAKs a bad one or one after a gap, and
discards a duplicate (R258). A number that no frame has had yet is a control frame's, which brings no parcel (R257; log 63). -/
def State.linkFrame (s : State) (l : Nat) (ab : Bool) (q : Nat) (crcOk : Bool) : State :=
  let e := linkEnds.getD l (0, 0)
  let x := if ab then e.1 else e.2
  let d := s.outDir l x
  let sent := if q = d.nextTx then (d.nextTx + 1) % 256 else d.nextTx
  if (s.link l).state ≠ .up then s
  else if !crcOk then
    (((s.modOut l x fun y => { y with nextTx := sent, nak := true }).bump (Reg.FL_CRCERR l)).setBits
      (Reg.FL_STAT l) 0x8000).faultEvent 3 l
  else if q = d.expect then
    if (d.sent.head?.map (·.1)) = some q then s.acceptFrame l x
    else
      let e := (q + 1) % 256
      s.modOut l x fun y => { y with nextTx := sent, expect := e, acked := e, naks := 0, ackAt := s.now }
  else if (d.expect + 256 - q) % 256 ≤ 64 then s.bump (Reg.FL_DUP l)
  else s.modOut l x fun y => { y with nextTx := sent, nak := true }

/-- A NAK reaches the sender, which replays from the named frame; after 8 in a row for one frame the link retrains (R258,
R259). -/
def State.nakReplay (s : State) (l : Nat) (ab : Bool) : State :=
  let d := (s.link l).dir ab
  if !d.nak ∨ (s.link l).state ≠ .up then s
  else
    let s1 := (s.modLink l fun y => y.setDir ab { d with nak := false, naks := d.naks + 1, acked := d.expect }).bump
      (Reg.FL_RETRY l)
    if 8 ≤ d.naks + 1 then (s1.modLink l fun y => y.setDir ab { (y.dir ab) with naks := 0 }).retrainLink l else s1

/-- No acknowledgement has advanced for 2 µs while frames were outstanding (R259). -/
def State.ackTimeout (s : State) (l : Nat) (ab : Bool) : State :=
  let d := (s.link l).dir ab
  if (s.link l).state = .up ∧ d.nextTx ≠ d.acked ∧ d.ackAt + 400 ≤ s.now then s.retrainLink l else s

/-- FL_CTL.RETRAIN: ignored in QUARANTINE and FAULT (R274). A link that has not passed its exchange, or is DOWN, trains toward it. -/
def State.flRetrain (s : State) (l : Nat) : State :=
  let x := s.link l
  let bring := x.state == .down || x.state == .exchange || (x.state == .train && !x.retrain)
  match x.state with
  | .quarantine => s
  | .fault => s
  | _ => (s.retrainLink l).modLink l fun y => { y with retrain := !bring, retryAt := none, tries := 0 }
/-- FL_CTL.UNFAULT: FAULT to TRAIN, which ends LASTING (R259, R274, R488). -/
def State.flUnfault (s : State) (l : Nat) : State :=
  if (s.link l).state = .fault then (s.endLasting 3 l).retrainLink l else s
/-- FL_CTL.CLRCNT. -/
def State.flClrcnt (s : State) (l : Nat) : State :=
  (s.zeroRegs [Reg.FL_CRCERR l, Reg.FL_RETRY l, Reg.FL_DUP l, Reg.FL_RETRAIN l, Reg.FL_REFUSED l, Reg.FL_FLUSHED l,
    Reg.FL_PARAL l, Reg.FL_PARAH l, Reg.FL_PARBL l, Reg.FL_PARBH l, Reg.FL_HOLD l]).modLink l fun x =>
    { x with holdFrom := x.holdFrom.map fun _ => s.refUs + 1, holdNext := s.refUs + 1 }

/-- State code of a link (R274). -/
def LinkState.code : LinkState → Nat
  | .down => 0 | .train => 1 | .exchange => 2 | .up => 3 | .quarantine => 4 | .fault => 5
/-- State code of a die (R274). -/
def DieState.code : DieState → Nat
  | .reset => 0 | .train => 1 | .exchange => 2 | .inService => 3 | .out => 4

/-! ## Bring-up exchange (R264 to R266) -/

/-- Is it an intake die? -/
def isIntake (d : Nat) : Bool := d == 1 || d == 2
/-- Has a die come so far in its bring-up that its links to peers other than HUB and DISPATCH are exchanged: past B2, and past B3 where
a DISPATCH link of its own has still to come up (R265)? -/
def State.pastB3 (s : State) (d : Nat) : Bool :=
  let waits := match directLink d 7 with
    | some l => !(isIntake d) && ((s.link l).state == .train || (s.link l).state == .exchange)
    | none => false
  decide (3 ≤ (s.die d).phase) || (decide (2 ≤ (s.die d).phase) && !waits)
/-- Is a die out of reset and not declared out? -/
def State.dieUp (s : State) (d : Nat) : Bool := (s.die d).state != .reset && (s.die d).state != .out
/-- May a link be exchanged now, by the order B2, B3, B4 (R265)? -/
def State.mayExchange (s : State) (l : Nat) : Bool :=
  let e := linkEnds.getD l (0, 0)
  if !(s.dieUp e.1) || !(s.dieUp e.2) then false
  else if e.1 = 0 then true
  else if e.2 = 7 then decide (2 ≤ (s.die e.1).phase) && decide (2 ≤ (s.die 7).phase)
  else s.pastB3 e.1 && s.pastB3 e.2

/-- FL_QCAUSE bits of the fixed fields that fail between ends `a` and `b` (R264, R274). -/
def fixedFails (a b : Die) : Nat :=
  flag (a.imgId != b.imgId) 0 + flag (decide (a.ver < b.cmin)) 1 + flag (decide (b.ver < a.cmin)) 2 +
    flag (a.stepping != b.stepping) 3
/-- Those of the transient fields; BEPOCH is compared once both ends have adopted one, and never with an intake end. -/
def transientFails (da db : Nat) (a b : Die) (modeA modeB : Nat) : Nat :=
  flag (!(isIntake da) && !(isIntake db) && decide (3 ≤ a.phase) && decide (3 ≤ b.phase) && a.bepoch != b.bepoch) 4 +
    flag (modeA != modeB) 5

/-- A die's values as reported at its exchange, written to its die page (R274). -/
def State.reportDie (s : State) (d : Nat) : State :=
  let x := s.die d
  let vers := fun (n : Nat) => (word (n / 256), word (n % 256))
  ((((((((s.setReg (Reg.FD_IMGL d) (wordOf x.imgId 0)).setReg (Reg.FD_IMGH d) (wordOf x.imgId 1)).setReg
    (Reg.FD_VER0 d) (vers x.ver).1).setReg (Reg.FD_VER1 d) (vers x.ver).2).setReg (Reg.FD_CMIN0 d) (vers x.cmin).1).setReg
    (Reg.FD_CMIN1 d) (vers x.cmin).2).setReg (Reg.FD_STEP d) x.stepping).setReg (Reg.FD_BEPOCH d) (word x.bepoch)).setReg
    (Reg.FD_MODE d) (word (s.dieMode d))

/-- What the joining end takes over before the fields are judged: HUB's mode on its HUB link (B2), DISPATCH's BEPOCH on its
DISPATCH link (B3); when DISPATCH joins, its peers take its BEPOCH (R265). -/
def State.adopt (s : State) (a b : Nat) : State :=
  let joins := fun d => (s.die d).phase < 5
  let s1 := if a = 0 ∧ joins b then
      s.modDie b fun x => { x with mode := s.mode, phase := max x.phase 2, state := .exchange }
    else s
  if b = 7 ∧ !(isIntake a) then
    if joins 7 ∧ !(joins a) then s1.modDie a fun x => { x with bepoch := (s.die 7).bepoch }
    else s1.modDie a fun x => { x with bepoch := (s.die 7).bepoch, phase := max x.phase 3 }
  else s1

/-- The links of die `d` (R10). -/
def linksOf (d : Nat) : List Nat :=
  (List.range 19).filter fun l => (linkEnds.getD l (0, 0)).1 == d || (linkEnds.getD l (0, 0)).2 == d

/-- B5: a die none of whose links still trains or exchanges, and whose HUB link is up, reports agreement and comes into
service (R265). -/
def State.admitDie (s : State) (d : Nat) : State :=
  let x := s.die d
  if x.state == .exchange && (linksOf d).all (fun l => (s.link l).state != .train && (s.link l).state != .exchange &&
        !((s.link l).again && s.dieUp (farEnd l d))) &&
      s.linkUp (d - 1) then
    let s1 := (s.modDie d fun y => { y with state := .inService, phase := 5, refSkew := 0 }).modReg Reg.DEVICE_DIES fun w =>
      putField w d 1 1
    if d = 7 then { s1 with fe := { s1.fe with gate := false } } else s1
  else s

/-- The die that a quarantine declares out: the one that joined; where both join, the end whose fixed fields differ from
HUB's, else the higher number (R266). -/
def State.quarantined (s : State) (a b : Nat) : Nat :=
  let joins := fun d => decide ((s.die d).phase < 5)
  if joins a && !(joins b) then a
  else if joins b && !(joins a) then b
  else if a ≠ 0 ∧ fixedFails (s.die a) (s.die 0) ≠ 0 ∧ fixedFails (s.die b) (s.die 0) = 0 then a else b

/-- A link enters QUARANTINE (R266). -/
def State.quarantineLink (s : State) (l q : Nat) : State :=
  let e := linkEnds.getD l (0, 0)
  (((((((s.setLinkState l .quarantine).modLink l fun x => { x with tries := 0, retryAt := none, again := false }).setReg (Reg.FL_QCAUSE l) (word q)).setBits (Reg.FL_STAT l) 0x2000).dieOut
    (s.quarantined e.1 e.2) 3).admitDie e.1).admitDie e.2)

/-- The exchange on a link is judged (R264 to R266). -/
def State.judgeExchange (s : State) (l : Nat) : State :=
  let e := linkEnds.getD l (0, 0)
  let s1 := ((s.adopt e.1 e.2).reportDie e.1).reportDie e.2
  let a := s1.die e.1
  let b := s1.die e.2
  let fx := fixedFails a b
  let tr := transientFails e.1 e.2 a b (s1.dieMode e.1) (s1.dieMode e.2)
  if fx ≠ 0 then s1.quarantineLink l (fx + tr)
  else if tr ≠ 0 then
    if 3 ≤ (s1.link l).tries then s1.quarantineLink l tr
    else s1.modLink l fun x => { x with tries := x.tries + 1, retryAt := some (s.now + 2000) }
  else ((s1.modLink l fun x => { x with ab := LinkDir.reset, ba := LinkDir.reset, state := .up, tries := 0,
                                        retryAt := none, fails := 0, retrain := false, again := false }).admitDie e.1).admitDie e.2

/-- A retrain ends. The link returns to UP, or retrains again; after three that failed in a row it goes DOWN (R259). A
bring-up training goes on to EXCHANGE (R265). -/
def State.retrainComplete (s : State) (l : Nat) (ok : Bool) : State :=
  let x := s.link l
  if x.state ≠ .train then s
  else if !x.retrain then
    (let e := linkEnds.getD l (0, 0)
     if ok then s.setLinkState l .exchange else ((s.setLinkState l .down).admitDie e.1).admitDie e.2)
  else if ok then
    (s.modLink l fun y => { y with state := .up, retrain := false, fails := 0, ab := { y.ab with ackAt := s.now },
                                   ba := { y.ba with ackAt := s.now } }).pumpLink l
  else if 3 ≤ x.fails + 1 then (s.setLinkState l .down).modLink l fun y => { y with fails := 0, retrain := false }
  else (s.modLink l fun y => { y with fails := x.fails + 1 }).retrainLink l

/-- BRING_UP_EXCHANGE: LINK parcels (unit 1Fh, never routed) are exchanged on a link in EXCHANGE whose turn it is, or on one in QUARANTINE
after an end's reset (R264 to R266). -/
def State.bringUpExchange (s : State) (l : Nat) : State :=
  let x := s.link l
  if (x.state = .exchange ∨ (x.state = .quarantine ∧ x.again)) ∧ x.retryAt = none ∧ s.mayExchange l then s.judgeExchange l else s

/-- EXCHANGE_RETRY: a transient mismatch is exchanged again after 10 µs (R266). -/
def State.exchangeRetry (s : State) (l : Nat) : State :=
  match (s.link l).retryAt with
  | none => s
  | some t =>
    if ((s.link l).state = .exchange ∨ (s.link l).again) ∧ t ≤ s.now then (s.modLink l fun x => { x with retryAt := none }).judgeExchange l else s

/-- LINK_DOWN_DECLARATION: HUB declares a die out that has lost a link it requires (R261). -/
def State.linkDown (s : State) (d : Nat) : State :=
  let hubLost := d ≠ 0 && !(s.linkUp (d - 1))
  let dispLost := isSort d && !((directLink d 7).any s.linkUp)
  if s.inService d && d != 0 && (hubLost || (dispLost && s.inService 7)) then s.dieOut d 1 else s

/-! ## Undeliverable parcels (R262, R263) -/

/-- Does die `d` have unit `u` (R248)? -/
def hasUnit (d u : Nat) : Bool :=
  match u with
  | 0 | 3 | 6 | 7 | 9 | 0xB | 0xC | 0xD => true
  | 1 | 2 | 0xA => d == 0 || isSort d
  | 4 | 5 => d == 7
  | 8 => d == 0
  | _ => false

/-- The die on which a global port lies (R250). -/
def portDie (p : Nat) : Nat :=
  if p < 0x4800 then 0 else if p < 0x6000 then 7 else if p < 0x6400 then 1 else if p < 0x6800 then 2
  else if p < 0x7800 then 0 else if p < 0x8000 then (p - 0x7800) / 0x100 else (p - 0x8000) / 0x1000

/-- Is a port number global (R105)? -/
def isGlobalPort (p : Nat) : Bool := decide (0x4000 ≤ p) && decide (p < 0x10000)

/-- Why a parcel found by a router of die `at_` cannot go on (R262); none if it can. -/
def State.parcelFault (s : State) (at_ : Nat) (post lane0 ctl : Word) : Option Nat :=
  let d := field post 13 3
  let u := field post 8 5
  let port := if u = 6 then lane0.toNat else field post 0 8 * 256 + field ctl 0 5 * 8
  if !(hasUnit d u) || ((u == 6 || u == 7) && !(isGlobalPort port && portDie port == d)) then some 5
  else s.undeliverable at_ d

/-- Requester that an origin word names (R249). -/
def originRequester (o : Word) : Nat :=
  if bit o 12 then (if field o 7 5 = 0x11 then debugId else hostId)
  else clerkOf (field o 13 3) (field o 7 5)

/-- UNDELIVERABLE_PARCEL: the router drops it as a dead letter, and a read gets a reply with ERR (R262, R263). -/
def State.undeliverableParcel (s : State) (at_ : Nat) (post ctl : Word) (x : Sheet) : State :=
  match s.parcelFault at_ post x.l0 ctl with
  | none => s
  | some cause =>
    let s1 := (match (if cause = 5 then none else s.refuser at_ (field post 13 3)) with
      | some l => s.bump (Reg.FL_REFUSED l)
      | none => s).routerDrop cause at_ (parcelWords post ctl x)
    let u := field post 8 5
    if (u = 6 ∨ u = 7) ∧ !(bit ctl 6) ∧ originRequester ctl < 131 then s1.launch (.portReply (originRequester ctl) at_ [] true) else s1

/-! ## Crossings (R268 to R273) -/

/-- Number of crossings of a die (R273). -/
def crossingCount (d : Nat) : Nat := if d = 0 then 9 else if isIntake d then 21 else if isSort d then 1 else 10
/-- Key of register `r` (0 XSTAT, 1 XSKIP, 2 XDROP, 3 XOVR) of a crossing, behind FD_XSEL. -/
def crossKey (d i r : Nat) : Nat := 0x500000 + (32 * d + i) * 8 + r
/-- The crossing. -/
def State.crossing (s : State) (d i : Nat) : Crossing := s.crossings.getD (32 * d + i) Crossing.reset
/-- The state with a crossing replaced. -/
def State.setCrossing (s : State) (d i : Nat) (x : Crossing) : State := { s with crossings := s.crossings.set (32 * d + i) x }

/-- The source places a value in the hold register and toggles REQ (R269, step 1). -/
def CrossChan.place (c : CrossChan) (v : Word) : CrossChan := { c with hold := some v, req := !c.req }
/-- The destination captures the held value and toggles ACK; the source then frees the hold register and moves in the pending value or
the head of the queue (R269, steps 2 and 3). -/
def CrossChan.handshake (c : CrossChan) : CrossChan :=
  match c.hold, c.queue with
  | none, _ => c
  | some v, [] => { c with hold := none, seen := some v, ack := c.req }
  | some v, x :: t => ({ c with hold := none, seen := some v, ack := c.req, queue := t }).place x
/-- The value that a channel's source offers (R268, R269): it crosses at once where the hold register is free; else it replaces a pending
STATUS value, or joins the queue of EVENT values, whose end beyond the queue's depth is what a clockless source still holds
waiting. -/
def CrossChan.offer (c : CrossChan) (queued : Bool) (v : Word) : CrossChan :=
  let d := { c with source := some v }
  if c.hold.isNone then d.place v else if queued then { d with queue := c.queue ++ [v] } else { d with queue := [v] }

/-- The switched domain that a side of a crossing lies in, if it is one: a DDR pair, PCIe, a half's connections, a sorting die's reference
tick, the Zegen ports (R273, R349). -/
def crossDomain (d i : Nat) : Option Nat :=
  if d = 0 then (if i < 2 then some 51 else if i < 4 then some 52 else if i = 4 then some 50 else none)
  else if isIntake d then (if i < 10 then some (41 + 3 * d) else if i < 20 then some (42 + 3 * d) else none)
  else if isSort d then some (11 * (d - 3) + 10)
  else if 1 ≤ i ∧ i ≤ 8 then some 55 else none
/-- Is a side of the crossing in reset: the die, or the domain that the side lies in (R272, R356)? -/
def State.crossHeld (s : State) (d i : Nat) : Bool :=
  (s.die d).state == .reset || (match crossDomain d i with
    | some n => !(s.domOn n)
    | none => false)
/-- A value is offered to a channel (R268 to R270); while a side is in reset the other side offers nothing (R272). -/
def State.crossOffer (s : State) (d i : Nat) (k : CrossKind) (v : Word) : State :=
  let x := s.crossing d i
  if s.crossHeld d i then s
  else match k with
    | .status =>
      let s1 := s.setCrossing d i { x with status := x.status.offer false v }
      if x.status.queue.isEmpty then s1 else s1.bump (crossKey d i 1)
    | .event => s.setCrossing d i { x with event := x.event.offer true v }
    | .pulse =>
      if !x.toggle then s.setCrossing d i { x with toggle := true, count := 1 }
      else if x.acc < 15 then s.setCrossing d i { x with acc := x.acc + 1 }
      else (s.bump (crossKey d i 3)).setBits (crossKey d i 0) 0x8000

/-- The handshake of a channel completes; a pulse's brings its count to the far side, and the accumulator goes with the next toggle
(R269, R270). -/
def State.crossAck (s : State) (d i : Nat) (k : CrossKind) : State :=
  let x := s.crossing d i
  match k with
  | .status => s.setCrossing d i { x with status := x.status.handshake }
  | .event => s.setCrossing d i { x with event := x.event.handshake }
  | .pulse =>
    if !x.toggle then s
    else s.setCrossing d i { x with toggle := decide (0 < x.acc), count := x.acc, acc := 0, pulses := x.pulses + x.count }

/-- CROSSING_TRANSFER: a value is offered, or the handshake of the held one completes (R269). -/
def State.crossingTransfer (s : State) (d i : Nat) (k : CrossKind) (offer : Option Word) : State :=
  if crossingCount d ≤ i then s
  else match offer with
    | some v => s.crossOffer d i k v
    | none => s.crossAck d i k

/-- Values that a channel holds, in order. -/
def CrossChan.values (c : CrossChan) : List Word := c.hold.toList ++ c.queue
/-- Reset flags cross (C1, C2): what is held, pending, queued or accumulated is discarded and counted, and both sides return to zero
phase; an EVENT value that is discarded is a dead letter of cause FABRIC_FLUSH (R262, R272; log 63). -/
def State.crossingReset (s : State) (d i : Nat) : State :=
  if crossingCount d ≤ i then s
  else
    let x := s.crossing d i
    let n := x.status.values.length + x.event.values.length + flag x.toggle 0 + flag (decide (0 < x.acc)) 0
    let s1 := s.setCrossing d i { Crossing.reset with status := { CrossChan.reset with source := x.status.source } }
    let s2 := x.event.values.foldl (fun t v => t.routerDrop 8 d [0, 0, v, 0, 0, 0]) s1
    (s2.bumpBy (crossKey d i 2) n).setBits (crossKey d i 0) 0x4000
/-- Traffic resumes with a fresh copy of the STATUS value (C4, R272). -/
def State.crossingResume (s : State) (d i : Nat) : State :=
  let x := s.crossing d i
  match x.status.source, x.status.hold with
  | some v, none => s.setCrossing d i { x with status := x.status.place v }
  | _, _ => s
/-- CROSSING_RESET: a side is reset and comes back; where a side is held in reset the crossing resumes when that reset ends (R272). -/
def State.crossingCycle (s : State) (d i : Nat) : State :=
  let t := s.crossingReset d i
  if s.crossHeld d i || decide (crossingCount d ≤ i) then t else t.crossingResume d i
/-- The crossings of a switched domain signal its reset as it drops, and resynchronise as it returns (R356: F3, U4). -/
def State.domCrossings (s : State) (n : Nat) (f : State → Nat → Nat → State) : State :=
  (List.range 8).foldl (fun t d => (List.range (crossingCount d)).foldl (fun u i => if crossDomain d i = some n then f u d i else u) t) s

/-- FD_CTL.CLRCNT (R274). -/
def State.fdClrcnt (s : State) (d : Nat) : State :=
  s.zeroRegs (((List.range 4).map fun k => Reg.FD_DL d k) ++ [Reg.FD_BCDISC d] ++
    ((List.range (crossingCount d)).map fun i => [crossKey d i 1, crossKey d i 2, crossKey d i 3]).flatten)

/-- BEPOCH_ACK_TIMEOUT: broadcast resumes 200 µs after the announcement, and dies that did not acknowledge are declared out
(R267). -/
def State.bepochAckTimeout (s : State) : State :=
  match s.bePause with
  | none => s
  | some t =>
    if s.now < t + 40000 then s
    else
      if (s.die 0).bePend then s.dieOut 0 4
      else
        let late := ((List.range 7).map (· + 1)).filter fun d => (s.die d).bePend
        late.foldl (fun u d => u.dieOut d 4) { s with bePause := none }

end Sys2Proof.Machine
end

