-- ==== Sys2Proof/Machine/Frank.lean ====
section
/-!
DEFINITION. The franking pipeline: defect substitution, dark and gain correction, binning, band selection, lane conversion
and packing (spec 08, R232 to R240).
-/
namespace Sys2Proof.Machine

/-- Bits of a sample in a pixel format, and its components (R222, R232). -/
def pixelBits (pf : Nat) : Nat :=
  match pf with
  | 1 | 9 => 10 | 2 | 0xA => 12 | 3 => 14 | 4 => 16 | _ => 8
/-- Colour components of a pixel format. -/
def pixelComps (pf : Nat) : Nat := if 8 ≤ pf then 3 else 1
/-- Is the pixel format one the device supports? -/
def pixelOk (pf : Nat) : Bool := decide (pf ≤ 4) || (decide (8 ≤ pf) && decide (pf ≤ 10))

/-- A camera's settings as the pipeline uses them. -/
structure FrankCfg where
  die : Nat
  pf : Nat
  hsi : Bool
  xs : Nat
  ys : Nat
  frank : Word
  first : Nat
  step : Nat
  count : Nat
  dark : Nat
  gain : Nat
  defBase : Nat
  defCnt : Nat
  shr : Nat
  shl : Nat

/-- The settings of camera `k` of intake die `i` (R246). -/
def State.frankCfg (s : State) (i k : Nat) : FrankCfg :=
  { die := i + 1, pf := field (s.reg (Reg.CAM_FMT i k)) 12 4, hsi := field (s.reg (Reg.CAM_CFG i k)) 12 3 == 2,
    xs := (s.reg (Reg.CAM_XSIZE i k)).toNat, ys := (s.reg (Reg.CAM_YSIZE i k)).toNat, frank := s.reg (Reg.CAM_FRANK i k),
    first := (s.reg (Reg.CAM_BAND0 i k)).toNat, step := field (s.reg (Reg.CAM_BAND1 i k)) 8 8,
    count := field (s.reg (Reg.CAM_BAND1 i k)) 0 8 + 1, dark := 64 * (s.reg (Reg.CAM_DARK i k)).toNat,
    gain := 64 * (s.reg (Reg.CAM_GAIN i k)).toNat, defBase := 64 * (s.reg (Reg.CAM_DEFBASE i k)).toNat,
    defCnt := (s.reg (Reg.CAM_DEFCNT i k)).toNat, shr := field (s.reg (Reg.CAM_CONV i k)) 4 4,
    shl := field (s.reg (Reg.CAM_CONV i k)) 0 4 }

/-- Components, horizontal and vertical bins, and output pixels of a line (R235). -/
def FrankCfg.m (f : FrankCfg) : Nat := pixelComps f.pf
def FrankCfg.bh (f : FrankCfg) : Nat := 2 ^ field f.frank 10 2
def FrankCfg.bv (f : FrankCfg) : Nat := 2 ^ field f.frank 8 2
def FrankCfg.nx (f : FrankCfg) : Nat := f.xs / f.bh
/-- Sensor rows of one output line (R232). -/
def FrankCfg.lineRows (f : FrankCfg) : Nat := if f.hsi then max f.ys 1 else f.bv
/-- Bands before selection. -/
def FrankCfg.bands (f : FrankCfg) : Nat := if f.hsi then f.ys / f.bv else f.m
/-- Stream bytes of one output line (R243). -/
def FrankCfg.rawBytes (f : FrankCfg) : Nat := (f.lineRows * f.xs * f.m * pixelBits f.pf + 7) / 8

/-- Index of a table entry (R233). -/
def FrankCfg.index (f : FrankCfg) (r c comp : Nat) : Nat :=
  (if bit f.frank 12 then r * f.xs + c else c) * f.m + comp

/-- The defect list as (column, row) pairs in rising order of row, then column; an entry out of order is skipped, and the
second result says whether there was one (R234). -/
def sortedDefects : List (Nat × Nat) → Option (Nat × Nat) → List (Nat × Nat) × Bool
  | [], _ => ([], false)
  | e :: t, last =>
    let okOrder := match last with
      | none => true
      | some l => decide (l.2 < e.2) || (decide (l.2 = e.2) && decide (l.1 < e.1))
    if okOrder then ((e :: (sortedDefects t (some e)).1), (sortedDefects t (some e)).2)
    else ((sortedDefects t last).1, true)

/-- The camera's defect list in the correction store. -/
def State.defects (s : State) (f : FrankCfg) : List (Nat × Nat) × Bool :=
  sortedDefects ((List.range f.defCnt).map fun e =>
    ((s.peek (corrKey f.die (f.defBase + 2 * e))).toNat, (s.peek (corrKey f.die (f.defBase + 2 * e + 1))).toNat)) none

/-- Is the sample a defect: listed, or one of its table words is uncorrectable (R233, R234)? -/
def FrankCfg.defect (f : FrankCfg) (defs : List (Nat × Nat)) (bad : List Nat) (r c comp : Nat) : Bool :=
  (bit f.frank 15 && defs.contains (c, r)) ||
    (bit f.frank 14 && bad.contains (f.dark + f.index r c comp)) || (bit f.frank 13 && bad.contains (f.gain + f.index r c comp))

/-- The rounded mean of the nearest good samples on each side, up to 4 columns away (R234). -/
def substitute (good : Nat → Option Nat) (c xs : Nat) : Nat :=
  let left := (List.range 4).findSome? fun j => if j + 1 ≤ c then good (c - (j + 1)) else none
  let right := (List.range 4).findSome? fun j => if c + j + 1 < xs then good (c + j + 1) else none
  match left, right with
  | some a, some b => (a + b + 1) / 2
  | some a, none => a
  | none, some b => b
  | none, none => 0

/-- A sample after stages 3 and 4; `row` is the sensor row as received (R234, R235). -/
def State.corrected (s : State) (f : FrankCfg) (defs : List (Nat × Nat)) (bad : List Nat) (row : List Word) (r c comp : Nat) : Nat :=
  let at_ := fun col => (row.getD (col * f.m + comp) 0).toNat % 2 ^ pixelBits f.pf
  let x0 := if f.defect defs bad r c comp then
      substitute (fun col => if f.defect defs bad r col comp then none else some (at_ col)) c f.xs
    else at_ c
  let x1 := if bit f.frank 14 then x0 - (s.peek (corrKey f.die (f.dark + f.index r c comp))).toNat else x0
  if bit f.frank 13 then (x1 * (s.peek (corrKey f.die (f.gain + f.index r c comp))).toNat + 2 ^ 13) / 2 ^ 14 else x1

/-- Stages 5 and 7 for a bin cell whose samples sum to `y` (R235). -/
def FrankCfg.cell (f : FrankCfg) (y : Nat) : Word :=
  let n := f.bh * f.bv
  let y1 := if bit f.frank 7 then (y + n / 2) / n else y
  word (min (y1 * 2 ^ f.shl / 2 ^ f.shr) 0xFFFF)

/-- One band of an output line: NX pixels (R235). `rows` pairs each sensor row with its number. -/
def State.frankBand (s : State) (f : FrankCfg) (defs : List (Nat × Nat)) (bad : List Nat) (rows : List (Nat × List Word))
    (b : Nat) : List Word :=
  let mine := if f.hsi then (rows.drop (b * f.bv)).take f.bv else rows
  let comp := if f.hsi then 0 else b
  (List.range f.nx).map fun j =>
    f.cell ((mine.map fun row => ((List.range f.bh).map fun q =>
      s.corrected f defs bad row.2 row.1 (j * f.bh + q) comp).sum).sum)

/-- The selected bands of an output line (R235). -/
def State.frankLine (s : State) (f : FrankCfg) (bad : List Nat) (l : CamLine) : List (List Word) :=
  let defs := (s.defects f).1
  let rows := ((List.range l.rows.length).map (· + l.row0)).zip l.rows
  (List.range f.count).map fun i => s.frankBand f defs bad rows (f.first + i * f.step)

/-- A list cut into sheets of 8 lanes. -/
def cutSheets : Nat → List Word → List Sheet
  | 0, _ => []
  | n + 1, l => if l.isEmpty then [] else Sheet.ofList (l.take 8) :: cutSheets n (l.drop 8)

/-- The data sheets of a region: `w` pixels from `x0` in packing `pack` (R240). -/
def packRegion (pack x0 w : Nat) (bands : List (List Word)) : List Sheet :=
  let px := fun (b : List Word) => (List.range w).map fun j => b.getD (x0 + j) 0
  match pack with
  | 0 => (bands.map fun b => cutSheets w (px b)).flatten
  | 1 => ((List.range w).map fun j => cutSheets bands.length (bands.map fun b => b.getD (x0 + j) 0)).flatten
  | _ => (List.range ((w + 1) / 2)).map fun i =>
      let at_ := fun b j => if j < w then (bands.getD b []).getD (x0 + j) 0 else 0
      ⟨at_ 0 (2 * i), at_ 1 (2 * i), at_ 2 (2 * i), 0, at_ 0 (2 * i + 1), at_ 1 (2 * i + 1), at_ 2 (2 * i + 1), 0⟩

/-- Data sheets per line of a region (R240). -/
def packCount (pack w nb : Nat) : Nat :=
  match pack with
  | 0 => nb * ((w + 7) / 8) | 1 => w * ((nb + 7) / 8) | _ => (w + 1) / 2

end Sys2Proof.Machine
end

