-- ==== Sys2Proof/Machine/Intake.lean ====
section
/-!
DEFINITION. Camera intake: discovery, losses, the control channel, events, stream packets, lines, regions and the frame
store (spec 08). Intake die index `i` is 0 for INT0 (die 1) and 1 for INT1 (die 2).
-/
namespace Sys2Proof.Machine

/-- Camera slot `k` of intake die `i`. -/
def State.cam (s : State) (i k : Nat) : Cam := s.cams.getD (16 * i + k) Cam.reset
/-- The state with a camera replaced. -/
def State.setCam (s : State) (i k : Nat) (c : Cam) : State := { s with cams := s.cams.set (16 * i + k) c }
/-- The state with a camera changed by `f`. -/
def State.modCam (s : State) (i k : Nat) (f : Cam → Cam) : State := s.setCam i k (f (s.cam i k))
/-- CAM_CFG.EN. -/
def State.camEn (s : State) (i k : Nat) : Bool := bit (s.reg (Reg.CAM_CFG i k)) 15
/-- CAM_CFG.MASTER. -/
def State.camMaster (s : State) (i k : Nat) : Nat := field (s.reg (Reg.CAM_CFG i k)) 4 5
/-- Connections of a camera. -/
def State.camConns (s : State) (i k : Nat) : Nat := field (s.reg (Reg.CAM_CFG i k)) 9 3 + 1
/-- Does a connection belong to an enabled camera slot? -/
def State.camOwns (s : State) (i k cx : Nat) : Bool :=
  s.camEn i k && decide (s.camMaster i k ≤ cx) && decide (cx < s.camMaster i k + s.camConns i k)
/-- The enabled camera that owns a connection. -/
def State.camOf (s : State) (i cx : Nat) : Option Nat := (List.range 16).find? fun k => s.camOwns i k cx
/-- Is a connection's half domain on: without it the connection reads OFF and cannot lock (R228)? -/
def State.cxOn (s : State) (i cx : Nat) : Bool :=
  let n := 44 + 3 * i + cx / 10
  bit (s.reg (Reg.PWR_ON (n / 16))) (n % 16)
/-- Does a connection carry signal, as its powered receiver sees it? -/
def State.signal (s : State) (i cx : Nat) : Bool := s.cxOn i cx && s.cxSignal.getD (20 * i + cx) false
/-- The code of a camera state (R246). -/
def CamState.code : CamState → Nat
  | .off => 0 | .absent => 1 | .discover => 2 | .ready => 3 | .miswired => 5 | .lost => 6 | .fault => 7

/-- CX_STAT.STATE of a connection. -/
def State.cxState (s : State) (i cx : Nat) : Nat := field (s.reg (Reg.CX_STAT i cx)) 0 3
/-- The state with CX_STAT.STATE set. -/
def State.setCx (s : State) (i cx st : Nat) : State := s.modReg (Reg.CX_STAT i cx) fun w => putField w 0 3 st
/-- INT_CONN: is a connection UP? -/
def State.cxUp (s : State) (i cx : Nat) : Bool := s.cxOn i cx && s.cxState i cx == 3
/-- Has the connection's fault window marked it LASTING (R227)? -/
def State.cxLasting (s : State) (i cx : Nat) : Bool :=
  (s.faultWins.getD (65536 * 4 + 20 * i + cx) FaultWin.reset).lasting
/-- Connections of a camera. -/
def State.camCxs (s : State) (i k : Nat) : List Nat := (List.range (s.camConns i k)).map (s.camMaster i k + ·)
/-- Sets every connection of a camera; one that is LASTING stays in FAULT (R227). -/
def State.setConns (s : State) (i k st : Nat) : State :=
  (s.camCxs i k).foldl (fun t cx => t.setCx i cx (if s.cxLasting i cx then 4 else st)) s
/-- CAM_LINK: the lock bits of a camera's connections. -/
def State.setLocks (s : State) (i k locked : Nat) : State := s.modReg (Reg.CAM_LINK i k) fun w => putField w 0 8 locked
/-- The die's REF stamp: AX15, but for what the die's own count is off it before its bring-up aligns it (R236). -/
def State.camStamp (s : State) (i : Nat) : Pos := s.ax15 + (s.die (i + 1)).refSkew

/-- A bit of INT_STAT sets: event INTi_STAT (R329). -/
def State.intEvent (s : State) (i b : Nat) : State := s.setAndRaise (Reg.INT_STAT i) (word (2 ^ b)) (0x44 + i)

/-! ## Sheets (R239, R241) -/

/-- Region route and frame route of a camera (CAM_ROUTE). -/
def State.camRoute (s : State) (i k : Nat) : Nat := field (s.reg (Reg.CAM_ROUTE i k)) 0 8
/-- Frame route of a camera. -/
def State.camFrameRoute (s : State) (i k : Nat) : Nat := field (s.reg (Reg.CAM_ROUTE i k)) 8 8
/-- Mailbag number in a register of DIE and LOCAL fields. -/
def boxOf (w : Word) : Nat := 128 * field w 10 3 + field w 0 7
/-- Enabled regions of a camera. -/
def State.camRegions (s : State) (i k : Nat) : List Nat :=
  (List.range 64).filter fun g => bit (s.reg (Reg.RG_CFG i g)) 15 && field (s.reg (Reg.RG_CFG i g)) 8 4 == k

/-- A header sheet (R241). -/
def headerSheet (kind g slot : Nat) (gap abort : Bool) (frame lane3 : Nat) (stamp : Pos) (lane7 : Nat) : Sheet :=
  ⟨word (0xA500 + kind * 64 + g), word (slot * 4096 + flag gap 11 + flag abort 10), word frame, word lane3,
    wordOf stamp.toNat 0, wordOf stamp.toNat 1, wordOf stamp.toNat 2, word lane7⟩

/-- A burst of the frame store goes to HUB as DDR parcels and is written, or routers drop it (R243, R249, R262). -/
def State.frameBurst (s : State) (i addr : Nat) (ws : List Word) : State :=
  s.parcel (i + 1) 0 (parcelWords (postcode 0 8 0) (word ((i + 1) * 8192 + 0x1040)) (Sheet.ofList (ws.take 8)))
    (fun u => (u.passN (ddrParcels addr ws.length - 1) (i + 1) 0).ddrWrite addr ws) (fun u => u)

/-- Sends an item if its route has a stamp left; the second result says whether it went (R239, R243, R445). -/
def State.sendItem (s : State) (i : Nat) : CamItem → State × Bool
  | .sheet rt box x =>
    if s.hasStamp (i + 1) rt 0 then ((s.takeStamp (i + 1) rt 0).pushOn rt (i + 1) box (ordinary x), true)
    else (s.noteWait rt 0, false)
  | .burst rt addr ws =>
    if s.hasStamp 0 rt 1 then ((s.takeStamp 0 rt 1).frameBurst i addr ws, true) else (s.noteWait rt 1, false)
  | .taken => (s, true)

/-- Sends a camera's waiting items in order until one must wait. -/
def State.drainCam (s : State) (i k : Nat) : List CamItem → State
  | [] => s.modCam i k fun c => { c with out := [] }
  | x :: t =>
    match s.sendItem i x with
    | (s1, true) => s1.drainCam i k t
    | (s1, false) => s1.modCam i k fun c => { c with out := x :: t }

/-- Queues items of a camera and sends what its routes allow. -/
def State.camSend (s : State) (i k : Nat) (xs : List CamItem) : State := s.drainCam i k ((s.cam i k).out ++ xs)

/-- Sheets for every enabled region of a camera. -/
def State.regionSheets (s : State) (i k : Nat) (f : Nat → Sheet) : List CamItem :=
  (s.camRegions i k).map fun g => .sheet (s.camRoute i k) (boxOf (s.reg (Reg.RG_MB i g))) (f g)

/-! ## State changes (R225, R226, R329) -/

/-- A job joins a camera's work in line order, with the mark of a line dropped before it (R226, R237, R238). -/
def Cam.addJob (c : Cam) (j : CamJob) : Cam := { c with jobs := c.jobs ++ [(c.gap, j)], gap := false }
/-- A camera changes state: the event, INT_CAMS, LOSTEV on entering LOST, and the CAMSTATE sheet, which joins the camera's
work in order (R225, R226, R241). A camera already in the state does not change. -/
def State.camEnter (s : State) (i k : Nat) (st : CamState) : State :=
  let c := s.cam i k
  if c.state = st then s
  else
    let s1 := (s.setCam i k ({ c with state := st }.addJob (.camState st.code c.frame (s.camStamp i)))).raiseGlobal
      (0x20 + 16 * i + k)
    let s2 := s1.modReg (Reg.INT_CAMS i) fun w => putField w k 1 (flag (st == .ready) 0)
    if st = .lost then s2.setBits (Reg.CAM_STAT i k) 0x4000 else s2

/-- A line is dropped: the counters, the dead letter, and GAP for what follows it (R238). -/
def State.dropLine (s : State) (i k : Nat) : State :=
  let c := s.cam i k
  (((((s.bump (Reg.CAM_LINEDROP i k)).bump (Reg.INT_DEADLINES i)).deadLetter 3 (i + 1)
    [word k, 0, word 0xA500, word (k * 4096), word c.frame, word c.line]).setBits (Reg.CAM_STAT i k) 0x2000).modCam i k)
    fun d => { d with gap := true }

/-- A frame opens where none is in progress (R241, R244). -/
def Cam.openFrame (c : Cam) (fmt : Word) : Cam := if c.active then c else { c with active := true, first := none, fmt := fmt }
/-- The frame in progress ends: its FEND joins the work in order, and the next frame's number follows (R226, R241). -/
def State.endFrame (s : State) (i k : Nat) (abort : Bool) : State :=
  let c := s.cam i k
  let first := c.first.getD (s.camStamp i)
  let info : FrameInfo := { no := c.frame, delivered := c.delivered, dropped := c.dropped, first := first,
                            lastLine := if c.first.isSome then c.stamp else first, last := if c.first.isSome then c.last else first,
                            abort := abort, fmt := c.fmt }
  s.setCam i k { c.addJob (.frameEnd info) with
    frame := (c.frame + 1) % 65536, line := 0, delivered := 0, dropped := 0, active := false }

/-- Output lines of an image (R232, R235). -/
def FrankCfg.imageLines (f : FrankCfg) : Nat := if f.hsi then 1 else f.ys / f.bv
/-- Samples of an output line. -/
def FrankCfg.lineLen (f : FrankCfg) : Nat := max (f.xs * f.m * f.lineRows) 1
/-- Output lines of the image that lie wholly before its sample `p`. -/
def FrankCfg.linesTo (f : FrankCfg) (p : Nat) : Nat := min (p / f.lineLen) f.imageLines
/-- Does sample `p` of the image stand within an output line, some of it taken already? -/
def FrankCfg.midLine (f : FrankCfg) (p : Nat) : Bool := p % f.lineLen != 0 && decide (p / f.lineLen < f.imageLines)

/-- The frame in progress is aborted: an incomplete line is dropped, complete ones stay, FEND carries ABORT (R226, R238). -/
def State.abortFrame (s : State) (i k : Nat) : State :=
  let c := s.cam i k
  let begun := match c.image with
    | .inside p => (s.frankCfg i k).midLine p || !c.ahead.isEmpty
    | _ => false
  let s1 := if begun then s.dropLine i k else s
  let c1 := s1.cam i k
  let s2 := s1.setCam i k { c1 with ahead := [], image := .none, got := [], raw := [], bad := false,
                                    dropped := if begun then c1.dropped + 1 else c1.dropped }
  if c.active then s2.endFrame i k true else s2

/-- Discovery begins at step 1 where the master carries signal; else the camera is ABSENT (R225, R246). A LASTING connection
keeps its camera in FAULT (R227). -/
def State.discover (s : State) (i k : Nat) : State :=
  let st := if (s.camCxs i k).any (s.cxLasting i) then CamState.fault
    else if s.signal i (s.camMaster i k) then .discover else .absent
  (((s.modCam i k fun c => { c with step := 1, timer := none }).setConns i k (if st = .discover then 2 else 1)).setLocks i k
    0).camEnter i k st

/-- A camera loses its link: LOST, the frame aborted, CAMSTATE, and rediscovery after RDLY (R226). -/
def State.camLost (s : State) (i k : Nat) : State :=
  let s1 := (s.abortFrame i k).camEnter i k .lost
  let rdly := field (s.reg (Reg.CAM_FMT i k)) 8 4
  if rdly = 0 then s1.discover i k
  else s1.modCam i k fun c => { c with timer := some (s.now + rdly * 20000000) }

/-- A connection in DISCOVER or UP loses its link: DOWN, its counters and fault window, and its camera LOST (R226, R227). -/
def State.connectionDown (s : State) (i cx : Nat) : State :=
  if s.cxState i cx ≠ 2 ∧ s.cxState i cx ≠ 3 then s
  else
    let s1 := (((s.setCx i cx 1).bump (Reg.CX_LOSS i cx)).setAndRaise (Reg.CX_STAT i cx) 0x8000 (0x40 + i)).faultEvent 4
      (20 * i + cx)
    match s.camOf i cx with
    | none => s1
    | some k =>
      let s2 := s1.modReg (Reg.CAM_LINK i k) fun w => putField w (cx - s.camMaster i k) 1 0
      if (s.cam i k).state = .ready ∨ (s.cam i k).state = .discover then s2.camLost i k else s2

/-- CONNECTION_LOSS (R226, R227). -/
def State.connectionLoss (s : State) (i cx : Nat) : State :=
  { s with cxSignal := s.cxSignal.set (20 * i + cx) false }.connectionDown i cx

/-- CONNECTION_REGAINS_SIGNAL: discovery from ABSENT, or a link reset of a camera in READY (R225, R226). -/
def State.connectionSignal (s : State) (i cx : Nat) : State :=
  let s0 : State := { s with cxSignal := s.cxSignal.set (20 * i + cx) true }
  match s.camOf i cx with
  | none => s0
  | some k =>
    match (s.cam i k).state with
    | .absent => if cx = s.camMaster i k ∧ s.cxOn i cx then s0.discover i k else s0
    | .ready => s0.camLost i k
    | _ => s0

/-! ## Discovery (R225) -/

/-- A discovery that fails a step repeats from step 1 every 100 ms. -/
def State.discoverAgain (s : State) (i k : Nat) : State :=
  s.modCam i k fun c => { c with step := 1, timer := some (s.now + 20000000) }

/-- READY: the connections are UP, and the CAMSTATE sheet goes out. -/
def State.camReady (s : State) (i k : Nat) : State :=
  ((s.setConns i k 3).modCam i k fun c =>
    { c with tag := 0, ahead := [], image := .none, step := 0, got := [], raw := [] }).camEnter i k .ready

/-- DISCOVERY_STEP: the step in progress completes; `locked` are the connections locked, `ids` their DeviceConnectionIDs,
`speed` the highest at which every one locked, `ok` whether the step's other checks passed. No step runs while a repeat waits
for its 100 ms, and a connection whose half domain is off does not lock (R228). -/
def State.discoveryStep (s : State) (i k : Nat) (locked : Nat) (ids : List Nat) (speed : Nat) (ok : Bool) : State :=
  let c := s.cam i k
  let n := s.camConns i k
  let m := s.camMaster i k
  let lock := fun (j : Nat) => locked.testBit j && s.cxOn i (m + j)
  let all := (List.range n).all lock
  let locks := ((List.range n).map fun j => flag (lock j) j).sum
  let put := fun (t : State) (lo w : Nat) (v : Nat → Nat) =>
    (List.range n).foldl (fun u j => u.modReg (Reg.CX_STAT i (m + j)) fun x => putField x lo w (v j)) t
  if c.state ≠ .discover ∨ c.timer.isSome then s
  else match c.step with
    | 1 =>
      let s1 := put (s.setLocks i k locks) 4 4 fun j => ids.getD j 0
      if all && ok then s1.modCam i k fun d => { d with step := 2 } else s1.discoverAgain i k
    | 2 =>
      if (List.range n).all fun j => field (s.reg (Reg.CX_STAT i (m + j))) 4 4 == j then
        s.modCam i k fun d => { d with step := 3 }
      else s.camEnter i k .miswired
    | 3 =>
      let sp := min speed (field (s.reg (Reg.CAM_CFG i k)) 0 4)
      if ok then (((put s 8 3 fun _ => sp).modReg (Reg.CAM_LINK i k) fun w => putField w 8 3 sp).modCam i k fun d =>
        { d with step := 4 })
      else s.discoverAgain i k
    | 4 =>
      let s1 := s.setLocks i k locks
      if all && ok then s1.modCam i k fun d => { d with step := 5 } else s1.discoverAgain i k
    | _ => s.camReady i k

/-- DISCOVERY_RETRY: the 100 ms have passed. -/
def State.discoveryRetry (s : State) (i k : Nat) : State :=
  match (s.cam i k).timer with
  | some t => if (s.cam i k).state = .discover ∧ t ≤ s.now then s.discover i k else s
  | none => s
/-- REDISCOVERY_DELAY: RDLY × 100 ms have passed since the loss. -/
def State.rediscovery (s : State) (i k : Nat) : State :=
  match (s.cam i k).timer with
  | some t => if (s.cam i k).state = .lost ∧ t ≤ s.now then s.discover i k else s
  | none => s

/-- CAM_CTL.RETRY: MISWIRED or FAULT to DISCOVER, ending LASTING on the camera's connections (R225, R227, R488). -/
def State.camRetry (s : State) (i k : Nat) : State :=
  match (s.cam i k).state with
  | .miswired => s.discover i k
  | .fault => ((s.camCxs i k).foldl (fun t cx => t.endLasting 4 (20 * i + cx)) s).discover i k
  | _ => s

/-- A connection's window marks it LASTING: it and its camera enter FAULT (R227). -/
def State.connectionFault (s : State) (i cx : Nat) : State :=
  let s1 := s.setCx i cx 4
  match s.camOf i cx with
  | none => s1
  | some k => (s1.abortFrame i k).camEnter i k .fault

/-! ## Configuration (R224, R237, R246) -/

/-- A refused camera write. -/
def State.camCfgErr (s : State) (i k : Nat) : State := s.setBits (Reg.CAM_STAT i k) 0x8000

/-- Does a band selection fit (R235)? -/
def bandsOk (f : FrankCfg) : Bool :=
  if f.hsi then decide (1 ≤ f.step) && decide (f.first + (f.count - 1) * f.step < f.bands)
  else decide (f.first = 0) && decide (f.step = 1) && decide (f.count = f.m)

/-- Does a camera's frame store ring lie wholly in one FRAME region (R394)? -/
def State.frameRingOk (s : State) (i k : Nat) : Bool :=
  s.inRegion 1 (s.reg2 (Reg.CAM_FSBASEL i k) (Reg.CAM_FSBASEH i k) * 2048)
    ((s.reg (Reg.CAM_FSSLOT i k)).toNat * (s.reg (Reg.CAM_FSNSLOT i k)).toNat * 2048)

/-- May CAM_CFG take the value (R224, R237, R246, R394)? The wiring is judged on every write, the rest on one that sets EN. -/
def State.camCfgOk (s : State) (i k : Nat) (v : Word) : Bool :=
  let old := s.reg (Reg.CAM_CFG i k)
  let m := field v 4 5
  let n := field v 9 3 + 1
  let others := (List.range 16).filter fun j => j != k && s.camEn i j
  let apart := others.all fun j => decide (s.camMaster i j + s.camConns i j ≤ m) || decide (m + n ≤ s.camMaster i j)
  let f : FrankCfg := { s.frankCfg i k with hsi := field v 12 3 == 2 }
  let share := (s.reg (Reg.CAM_LBUF i k)).toNat
  let shares := (others.map fun j => (s.reg (Reg.CAM_LBUF i j)).toNat).sum + share
  let onlyEn := decide (v &&& 0x7FFF = old &&& 0x7FFF)
  decide (field v 12 3 ≤ 2) && decide (field v 0 4 ≤ 6) && decide (m + n ≤ 20) && apart && (!(bit old 15) || onlyEn) &&
    (!(bit v 15) || (decide (1 ≤ f.xs) && decide (1 ≤ f.ys) && (!f.hsi || decide (f.ys ≤ 1024)) && decide (shares ≤ 512) && decide (2 * f.rawBytes ≤ share * 4096) && bandsOk f &&
      (!(bit (s.reg (Reg.CAM_FSCFG i k)) 15) || s.frameRingOk i k)))

/-- LS of a camera's frame store (R243). -/
def State.lineStride (s : State) (i k : Nat) : Nat :=
  let f := s.frankCfg i k
  let n := if bit (s.reg (Reg.CAM_FSCFG i k)) 14 then (f.rawBytes + 1) / 2 else f.nx * f.count
  32 * ((n + 31) / 32)

/-- Free 4 KiB units of a line buffer (INT_LBFREE). -/
def State.lbFree (s : State) (i : Nat) : Nat :=
  512 - (((List.range 16).filter fun k => s.camEn i k).map fun k => (s.reg (Reg.CAM_LBUF i k)).toNat).sum

/-- A camera slot at an enable: lines and sheets that still wait stay in order (R14, R237). -/
def Cam.enabled (c : Cam) (ls : Nat) : Cam :=
  { Cam.reset with ls := ls, frame := c.frame, gap := c.gap, jobs := c.jobs, out := c.out, written := c.written }
/-- CAM_CFG_WRITE: a refused write changes nothing; EN starts discovery, and clearing it aborts the frame (R224, R246). -/
def State.camCfgWrite (s : State) (i k : Nat) (v : Word) : State :=
  if !(s.camCfgOk i k v) then s.camCfgErr i k
  else
    let was := s.camEn i k
    if bit v 15 then
      let s1 := s.setReg (Reg.CAM_CFG i k) v
      if was then s1 else (s1.modCam i k fun c => c.enabled (s1.lineStride i k)).discover i k
    else if was then
      let s1 := (((s.abortFrame i k).setConns i k 0).setLocks i k 0).setReg (Reg.CAM_CFG i k) v
      (s1.modCam i k fun c => { c with timer := none, step := 0 }).camEnter i k .off
    else s.setReg (Reg.CAM_CFG i k) v

/-- CAM_CTL.CLRCNT. -/
def State.camClrcnt (s : State) (i k : Nat) : State :=
  s.zeroRegs [Reg.CAM_FRAMEL i k, Reg.CAM_FRAMEH i k, Reg.CAM_LINEDROP i k, Reg.CAM_FRAMEDROP i k, Reg.CAM_FSOVER i k]

/-- May a camera register other than CAM_CFG take the value (R246)? -/
def State.camRegOk (s : State) (i k off : Nat) (v : Word) : Bool :=
  !(s.camEn i k) && (match off with
    | 1 => pixelOk (field v 12 4)
    | 2 => decide (1 ≤ v.toNat) && decide (v.toNat ≤ 16384)
    | 3 => decide (1 ≤ v.toNat)
    | 6 => decide (1 ≤ field v 8 8)
    | 0x10 => decide (1 ≤ v.toNat)
    | 0x11 => decide (1 ≤ v.toNat) && decide (v.toNat ≤ 4096)
    | 0x1C => decide (1 ≤ v.toNat)
    | 4 => field v 10 2 != 3 && field v 8 2 != 3
    | 0xB => decide (field v 4 4 ≤ 4) && decide (field v 0 4 ≤ 8)
    | 0x12 => !(bit v 15) || s.frameRingOk i k
    | _ => true)

/-! ## Control channel (R229, R230) -/

/-- The channel of intake die `i`. -/
def State.ccChan (s : State) (i : Nat) : CcChan := s.ccChans.getD i CcChan.reset
/-- The command ends: BUSY clears, DONE and the result set, event INTi_CC (R329). -/
def State.ccEnd (s : State) (i result : Nat) : State :=
  (s.modReg (Reg.CC_STAT i) fun w => putField ((w &&& 0x7FFF) ||| 0x4000) 0 4 result).raiseGlobal (0x42 + i)
/-- CC_STAT.BUSY. -/
def State.ccBusy (s : State) (i : Nat) : Bool := bit (s.reg (Reg.CC_STAT i)) 15

/-- A write of CC_CMD: with GO it sends one tagged command, or ends at once where the camera is not in READY. -/
def State.ccGo (s : State) (i : Nat) (v : Word) : State :=
  if !(bit v 15) then (if s.ccBusy i then s else s.setReg (Reg.CC_CMD i) (v &&& 0x470F))
  else if s.ccBusy i then s.setBits (Reg.CC_STAT i) 0x2000
  else
    let s1 := s.setReg (Reg.CC_CMD i) (v &&& 0x470F)
    if (s.cam i (field v 0 4)).state ≠ .ready then s1.ccEnd i 3
    else
      let c := s.ccChan i
      { (s1.setBits (Reg.CC_STAT i) 0x8000) with
        ccChans := s1.ccChans.set i { tag := (c.tag + 1) % 256, wr := bit v 14, start := s.now } }

/-- CC_REPLY: a reply with the command's tag ends it, restarts its timeout, or fails it; another is discarded (R229, R230). -/
def State.ccReply (s : State) (i tag : Nat) (r : CcReplyKind) : State :=
  let c := s.ccChan i
  if !(s.ccBusy i) || c.tag != tag then s.bump (Reg.CC_LATE i)
  else match r with
    | .wait => { s with ccChans := s.ccChans.set i { c with start := s.now } }
    | .badCrc => s.ccEnd i 4
    | .ack code data =>
      let s1 := s.setReg (Reg.CC_ACK i) (word code)
      let n := field (s.reg (Reg.CC_CMD i)) 8 3 + 1
      let s2 := if c.wr ∨ code.val ≠ 0 then s1
        else ((List.range n).zip data).foldl (fun t p =>
          (t.setReg (Reg.CC_DATA i (2 * p.1)) (wordOf p.2.toNat 0)).setReg (Reg.CC_DATA i (2 * p.1 + 1)) (wordOf p.2.toNat 1)) s1
      s2.ccEnd i (if code.val = 0 then 0 else 2)

/-- CC_TIMEOUT: CC_TOUT milliseconds have passed without the reply. -/
def State.ccTimeout (s : State) (i : Nat) : State :=
  if s.ccBusy i ∧ (s.ccChan i).start + max (s.reg (Reg.CC_TOUT i)).toNat 1 * 200000 ≤ s.now then s.ccEnd i 1 else s

/-! ## Events (R231) -/

/-- EVENT_PACKET: an event of a camera in READY becomes a sheet of the event mailbag, or is dropped. -/
def State.eventPacket (s : State) (i k : Nat) (crcOk : Bool) (id : Word) (data : List (BitVec 8)) : State :=
  let mb := s.reg (Reg.INT_EVMB i)
  if (s.cam i k).state ≠ .ready ∨ !(bit mb 15) then s
  else if !crcOk then
    ((s.bump (Reg.INT_EVDROP i)).intEvent i 13).deadLetter 4 (i + 1) [word k, 0, word (0xE700 + k), id, 0, 0]
  else
    let b := fun j => (data.getD j 0).toNat
    let w := fun j => word (b (2 * j) + 256 * b (2 * j + 1))
    let us := posInt (s.camStamp i)
    let x : Sheet := ⟨word (0xE700 + k), id, wordOf us 0, wordOf us 1, w 0, w 1, w 2, w 3⟩
    let s1 := if 8 < data.length then s.bump (Reg.INT_EVTRUNC i) else s
    (s1.bump (Reg.INT_EVCNT i)).camSend i k [.sheet (s.camRoute i k) (boxOf mb) x]

/-! ## Stream packets (R232, R237, R238) -/

/-- A packet error on a connection: its counter, ERREV and its window (R227, R238). -/
def State.packetError (s : State) (i cx counter : Nat) : State :=
  ((s.bump counter).setBits (Reg.CX_STAT i cx) 0x4000).faultEvent 4 (20 * i + cx)

/-- Output lines of a frame (R243). -/
def State.frameLines (s : State) (i k : Nat) : Nat :=
  if field (s.reg (Reg.CAM_CFG i k)) 12 3 = 0 then (s.frankCfg i k).imageLines else (s.reg (Reg.CAM_FLINES i k)).toNat

/-- Lines in a camera's share: those that wait to be franked, and those whose last item has not gone (R237). -/
def Cam.linesHeld (c : Cam) : Nat :=
  (c.jobs.filter fun j => match j.2 with | .line _ => true | _ => false).length + (c.out.filter (· == .taken)).length
/-- Has the share room for another line (R237, R238)? -/
def State.shareRoom (s : State) (i k : Nat) : Bool :=
  decide (((s.cam i k).linesHeld + 1) * (s.frankCfg i k).rawBytes ≤ (s.reg (Reg.CAM_LBUF i k)).toNat * 4096)

/-- The franking domain drops with lines of a disabled camera still waiting: each is a line dropped (R14, R355). -/
def State.camDiscard (s : State) (i k : Nat) : State :=
  ((List.range (s.cam i k).linesHeld).foldl (fun t _ => t.dropLine i k) s).modCam i k fun c => { c with jobs := [], out := [] }

/-- The frame gets its last line: CAM_FRAME counts, and the frame ends (R241, R246). -/
def State.lastLine (s : State) (i k : Nat) : State :=
  if s.frameLines i k ≤ (s.cam i k).line then (s.bump2 (Reg.CAM_FRAMEL i k) (Reg.CAM_FRAMEH i k) 1).endFrame i k false else s

/-- The line in assembly, or the next one, is lost: it counts in its frame as dropped (R238). -/
def State.loseLine (s : State) (i k : Nat) : State :=
  let s1 := (s.modCam i k (·.openFrame (s.reg (Reg.CAM_FMT i k)))).dropLine i k
  (s1.modCam i k fun c =>
    { c with got := [], raw := [], bad := false, line := c.line + 1, dropped := c.dropped + 1 }).lastLine i k
/-- The next `n` lines are lost. -/
def State.loseLines (s : State) (i k n : Nat) : State := (List.range n).foldl (fun t _ => t.loseLine i k) s

/-- The first sample of a line: its stamp, and whether the share has room for it (R232, R238). -/
def State.startLine (s : State) (i k : Nat) : State :=
  let full := !(s.shareRoom i k)
  let s1 := if full then s.intEvent i 15 else s
  s1.modCam i k fun c =>
    let d := c.openFrame (s.reg (Reg.CAM_FMT i k))
    { d with got := [], raw := [], bad := full, stamp := s.camStamp i, first := some (d.first.getD (s.camStamp i)) }

/-- The stream goes from sample `p` of the image to a later sample `q` with what lies between lost: every line with a lost
sample is dropped (R238). -/
def State.loseTo (s : State) (i k p q : Nat) : State :=
  let f := s.frankCfg i k
  let s1 := s.loseLines i k (f.linesTo q - f.linesTo p)
  let s2 := if f.midLine q ∧ (f.linesTo p < f.linesTo q ∨ !(f.midLine p)) then s1.startLine i k else s1
  s2.modCam i k fun c => { c with image := .inside q, bad := c.bad || (f.midLine q && decide (p < q)) }

/-- A new image begins, or the stream stops making sense: the lines that the image in progress still lacks are lost (R238). -/
def State.closeImage (s : State) (i k : Nat) : State :=
  match (s.cam i k).image with
  | .inside p => (s.loseLines i k ((s.frankCfg i k).imageLines - (s.frankCfg i k).linesTo p)).modCam i k fun c =>
      { c with image := .none }
  | _ => s

/-- An image whose header is lost or fails its check is dropped whole; its stream is at sample `p` (R238). -/
def State.dropImage (s : State) (i k p : Nat) : State :=
  let s1 := ((s.bump (Reg.CAM_FRAMEDROP i k)).setBits (Reg.CAM_STAT i k) 0x1000).loseLines i k (s.frankCfg i k).imageLines
  s1.modCam i k fun c => { c with image := .dropped p }

/-- An image header: it opens a frame where none is in progress, and is checked against the camera's registers (R232). -/
def State.imageHeader (s : State) (i k : Nat) (good : Bool) : State :=
  let s1 := s.closeImage i k
  if good then s1.modCam i k fun c => { c.openFrame (s.reg (Reg.CAM_FMT i k)) with image := .inside 0, got := [], raw := [] }
  else s1.dropImage i k 0

/-- A list cut into `n` pieces of `w`. -/
def cutRows (w : Nat) : Nat → List Word → List (List Word)
  | 0, _ => []
  | n + 1, l => l.take w :: cutRows w n (l.drop w)

/-- An output line is complete, the image standing at sample `p`: it joins the work in order, or is dropped whole (R237,
R238). -/
def State.lineComplete (s : State) (i k p : Nat) : State :=
  let c := s.cam i k
  let f := s.frankCfg i k
  if c.bad then s.loseLine i k
  else
    let l : CamLine := { frame := c.frame, no := c.line, row0 := (p / f.lineLen - 1) * f.lineRows,
                         rows := cutRows (f.xs * f.m) f.lineRows c.got, raw := c.raw, stamp := c.stamp }
    (s.setCam i k { c.addJob (.line l) with got := [], raw := [], line := c.line + 1, delivered := c.delivered + 1 }).lastLine
      i k

/-- Stream bytes that carry the first `n` samples of a line (R243). -/
def FrankCfg.bytesTo (f : FrankCfg) (n : Nat) : Nat := (n * pixelBits f.pf + 7) / 8

/-- Samples from sample `p` of the image on join the line in assembly, with the stream bytes of that line; each complete line
goes on, and rows left over at the image's end are discarded (R232, R235, R243). `ok` is false for a packet with a CRC error,
which spoils every line it carries part of (R238). -/
def State.takeSamples (s : State) (i k : Nat) (ok : Bool) : Nat → Nat → List (BitVec 8) → List Word → State
  | 0, _, _, _ => s
  | n + 1, p, raw, xs =>
    let f := s.frankCfg i k
    if xs.isEmpty then s
    else if f.imageLines ≤ p / f.lineLen then s.modCam i k fun c => { c with image := .inside (p + xs.length) }
    else
      let o := p % f.lineLen
      let got := xs.take (f.lineLen - o)
      let bytes := f.bytesTo (o + got.length) - f.bytesTo o
      let q := p + got.length
      let s1 := if o = 0 then s.startLine i k else s
      let s2 := s1.modCam i k fun c => { c with got := c.got ++ got, raw := c.raw ++ raw.take bytes, bad := c.bad || !ok,
                                                image := .inside q, last := s.camStamp i }
      let s3 := if q % f.lineLen = 0 then s2.lineComplete i k q else s2
      s3.takeSamples i k ok n q (raw.drop bytes) (xs.drop got.length)

/-- Samples that begin at sample `place` of their image. Ahead of where the stream stands, what lies between was lost; behind
it, a new image has begun whose header was lost (R238). -/
def State.samplesAt (s : State) (i k : Nat) (ok : Bool) (place : Nat) (raw : List (BitVec 8)) (xs : List Word) : State :=
  let past := fun (t : State) => t.modCam i k fun c => { c with image := .dropped (place + xs.length) }
  match (s.cam i k).image with
  | .inside p =>
    if place < p then (s.closeImage i k).dropImage i k (place + xs.length)
    else (s.loseTo i k p place).takeSamples i k ok (xs.length + 1) place raw xs
  | .dropped p => if place < p then s.dropImage i k (place + xs.length) else past s
  | .none => s.dropImage i k (place + xs.length)

/-- A packet is taken in tag order (R232). -/
def State.takePacket (s : State) (i k : Nat) (h : StreamPacket) : State :=
  let s1 := s.modCam i k fun c => { c with tag := (h.tag + 1) % 256, ahead := c.ahead.erase h }
  match h.part with
  | .header pf xs ys =>
    s1.imageHeader i k (h.crcOk && decide (pf.val = field (s.reg (Reg.CAM_FMT i k)) 12 4) &&
      decide (xs = s.reg (Reg.CAM_XSIZE i k)) && decide (ys = s.reg (Reg.CAM_YSIZE i k)))
  | .samples place xs raw => s1.samplesAt i k h.crcOk place raw xs

/-- How far a packet's tag is ahead of the one expected. -/
def Cam.aheadBy (c : Cam) (h : StreamPacket) : Nat := (h.tag + 256 - c.tag) % 256
/-- The packet to take next: the one whose tag is expected; or, where every connection of the camera has brought a packet of
a later tag, so that the expected one is missing, the earliest of those. -/
def State.nextPacket (s : State) (i k : Nat) : Option StreamPacket :=
  let c := s.cam i k
  match c.ahead.find? fun h => h.tag == c.tag with
  | some h => some h
  | none =>
    if (s.camCxs i k).all fun cx => c.ahead.any fun h => h.cx == cx then
      c.ahead.foldl (fun best h => match best with
        | some b => if c.aheadBy h < c.aheadBy b then some h else some b
        | none => some h) none
    else none
/-- Packets join in tag order; a missing tag is a sequence error (R232, R238). -/
def State.joinPackets (s : State) (i k : Nat) : Nat → State
  | 0 => s
  | n + 1 =>
    match s.nextPacket i k with
    | none => s
    | some h =>
      let s1 := if h.tag = (s.cam i k).tag then s else s.packetError i h.cx (Reg.CX_SEQERR i h.cx)
      (s1.takePacket i k h).joinPackets i k n

/-- STREAM_PACKET (R227, R232, R238). -/
def State.streamPacket (s : State) (i cx : Nat) (crcOk : Bool) (tag sid : Nat) (p : StreamPart) : State :=
  match s.camOf i cx with
  | none => s
  | some k =>
    if (s.cam i k).state ≠ .ready then s
    else if sid ≠ field (s.reg (Reg.CAM_FMT i k)) 0 8 then s.setBits (Reg.CAM_STAT i k) 0x1000
    else
      let s1 := if crcOk then s else s.packetError i cx (Reg.CX_CRCERR i cx)
      let s2 := s1.modCam i k fun c => { c with ahead := c.ahead ++ [{ cx := cx, tag := tag, crcOk := crcOk, part := p }] }
      s2.joinPackets i k (s2.cam i k).ahead.length

/-! ## Lines to regions and frame store (R239 to R244) -/

/-- Bursts that write `ws` from DDR word `a`, cut at burst boundaries, charged to a route (R243). -/
def burstItems (rt a : Nat) : Nat → List Word → List CamItem
  | 0, _ => []
  | n + 1, ws =>
    if ws.isEmpty then []
    else
      let k := 32 - a % 32
      .burst rt a (ws.take k) :: burstItems rt (a + k) n (ws.drop k)

/-- First DDR word of the frame store slot of a frame (R243). -/
def State.slotBase (s : State) (i k frame : Nat) : Nat :=
  let base := 2048 * ((s.reg (Reg.CAM_FSBASEL i k)).toNat + 65536 * field (s.reg (Reg.CAM_FSBASEH i k)) 0 11)
  base + frame % max (s.reg (Reg.CAM_FSNSLOT i k)).toNat 1 * ((s.reg (Reg.CAM_FSSLOT i k)).toNat * 2048)

/-- Stream bytes as words, low byte at the lower byte address (R243). -/
def rawWords : Nat → List (BitVec 8) → List Word
  | 0, _ => []
  | n + 1, b => word ((b.getD 0 0).toNat + 256 * (b.getD 1 0).toNat) :: rawWords n (b.drop 2)

/-- The frame store's part of a line: its bursts, or a count where it does not fit (R243). -/
def State.storeLine (s : State) (i k : Nat) (l : CamLine) (bands : List (List Word)) : State × List CamItem :=
  let cfg := s.reg (Reg.CAM_FSCFG i k)
  let c := s.cam i k
  if !(bit cfg 15) || l.no % (field cfg 0 8 + 1) != 0 then (s, [])
  else
    let ws := if bit cfg 14 then rawWords (((s.frankCfg i k).rawBytes + 1) / 2) l.raw else bands.flatten
    if (s.reg (Reg.CAM_FSSLOT i k)).toNat * 2048 < 32 + l.no * c.ls + ws.length then (s.bump (Reg.CAM_FSOVER i k), [])
    else
      (s.modCam i k fun d => { d with written := d.written + 1 },
        burstItems (s.camFrameRoute i k) (s.slotBase i k l.frame + 32 + l.no * c.ls) (ws.length + 1) ws)

/-- A line was dropped before this job: the camera's regions have a gap behind them (R238, R241). -/
def State.markGaps (s : State) (i k : Nat) (gap : Bool) : State :=
  if gap then (s.camRegions i k).foldl (fun t g => { t with rgGap := t.rgGap.set (64 * i + g) true }) s else s
/-- Has a region a gap behind it? -/
def State.gapOf (s : State) (i g : Nat) : Bool := s.rgGap.getD (64 * i + g) false

/-- The sheets of a line for one region (R239, R241). -/
def State.regionLine (s : State) (i k g : Nat) (l : CamLine) (bands : List (List Word)) : List CamItem :=
  let cfg := s.reg (Reg.RG_CFG i g)
  let w := (s.reg (Reg.RG_W i g)).toNat
  if w = 0 ∨ l.no % (field cfg 0 8 + 1) ≠ 0 then []
  else
    let data := packRegion (field cfg 13 2) (s.reg (Reg.RG_X0 i g)).toNat w bands
    let hd := headerSheet 0 g k (s.gapOf i g) false l.frame l.no l.stamp data.length
    (hd :: data).map fun x => .sheet (s.camRoute i k) (boxOf (s.reg (Reg.RG_MB i g))) x

/-- The regions that get a LINE sheet no longer have a gap behind them. -/
def State.clearGaps (s : State) (i k : Nat) (l : CamLine) : State :=
  (s.camRegions i k).foldl (fun t g =>
    if (t.reg (Reg.RG_W i g)).toNat = 0 ∨ l.no % (field (t.reg (Reg.RG_CFG i g)) 0 8 + 1) ≠ 0 then t
    else { t with rgGap := t.rgGap.set (64 * i + g) false }) s

/-- A line is franked and cut: its frame store bursts and region sheets (R232 to R243). `bad` names correction-store words
found uncorrectable (R233). -/
def State.frankJob (s : State) (i k : Nat) (bad : List Nat) (l : CamLine) : State :=
  let f := s.frankCfg i k
  let s0 := if bad.isEmpty then s else (s.bumpBy (Reg.INT_CSERR i) bad.length).intEvent i 14
  let s1 := if (s.defects f).2 ∧ bit f.frank 15 then s0.camCfgErr i k else s0
  let bands := s.frankLine f bad l
  let items := ((s1.camRegions i k).map fun g => s1.regionLine i k g l bands).flatten
  let st := (s1.clearGaps i k l).storeLine i k l bands
  st.1.camSend i k (st.2 ++ items ++ [.taken])

/-- LINE_FRANKED: what waits for postage goes first; then the next line or state sheet of the camera (R237, R241). -/
def State.lineFranked (s : State) (i k : Nat) (bad : List Nat) : State :=
  let s0 := s.camSend i k []
  let c := s0.cam i k
  if !c.out.isEmpty then s0
  else match c.jobs with
    | (gap, .line l) :: t => ((s0.setCam i k { c with jobs := t }).markGaps i k gap).frankJob i k bad l
    | (gap, .camState st fr stamp) :: t =>
      let s1 := (s0.setCam i k { c with jobs := t }).markGaps i k gap
      s1.camSend i k (s1.regionSheets i k fun g => headerSheet 2 g k (s1.gapOf i g) false fr st stamp 0)
    | _ => s0

/-- The descriptor words of a frame (R244). -/
def State.descriptor (s : State) (i k : Nat) (fr : FrameInfo) : List Word :=
  let c := s.cam i k
  let f := s.frankCfg i k
  let raw := bit (s.reg (Reg.CAM_FSCFG i k)) 14
  [word fr.no, word (k * 4096 + flag (decide (0 < fr.dropped)) 11 + flag fr.abort 10 + flag raw 9), word c.written,
    word fr.dropped, wordOf fr.first.toNat 0, wordOf fr.first.toNat 1, wordOf fr.first.toNat 2, wordOf fr.lastLine.toNat 0,
    wordOf fr.lastLine.toNat 1, wordOf fr.lastLine.toNat 2, wordOf c.ls 0, wordOf c.ls 1, word f.nx, word f.count, fr.fmt] ++
    List.replicate 17 0

/-- FRAME_END: the descriptor is written, then FEND goes to each enabled region and FSDONE to the frame event mailbag (R241,
R244). -/
def State.frameEndJob (s : State) (i k : Nat) : State :=
  let s0 := s.camSend i k []
  let c := s0.cam i k
  if !c.out.isEmpty then s0
  else match c.jobs with
    | (gap, .frameEnd fr) :: t =>
      let s1 := (s0.setCam i k { c with jobs := t, written := 0 }).markGaps i k gap
      let fs := bit (s.reg (Reg.CAM_FSCFG i k)) 15
      let desc := if fs then burstItems (s.camFrameRoute i k) (s.slotBase i k fr.no) 2 (s0.descriptor i k fr) else []
      let fend := s1.regionSheets i k fun g => headerSheet 1 g k (s1.gapOf i g) fr.abort fr.no fr.delivered fr.last fr.dropped
      let ev := s.reg (Reg.CAM_EVMB i k)
      let slot := fr.no % max (s.reg (Reg.CAM_FSNSLOT i k)).toNat 1
      let done := if fs && bit ev 15 then
          [CamItem.sheet (s.camRoute i k) (boxOf ev) (headerSheet 3 0 k false false fr.no slot fr.last 0)]
        else []
      s1.camSend i k (desc ++ fend ++ done)
    | _ => s0

/-! ## Registers (R233, R242, R246) -/

/-- Correction-store word address in INT_CSADDR. -/
def State.csAddr (s : State) (i : Nat) : Nat := s.reg2 (Reg.INT_CSADDRL i) (Reg.INT_CSADDRH i) % 2 ^ 21
/-- INT_CSDATA: writes the addressed word where a value is given, and increments the address (R233). -/
def State.csAccess (s : State) (i : Nat) (wr : Option Word) : State :=
  let a := s.csAddr i
  let s1 := match wr with
    | some v => s.poke (corrKey (i + 1) a) v
    | none => s
  s1.setReg2 (Reg.INT_CSADDRL i) (Reg.INT_CSADDRH i) ((a + 1) % 2 ^ 21)
/-- INT_CTL.CLRCNT. -/
def State.intClrcnt (s : State) (i : Nat) : State :=
  s.zeroRegs [Reg.INT_DEADLINES i, Reg.INT_EVCNT i, Reg.INT_EVDROP i, Reg.INT_EVTRUNC i, Reg.INT_CSERR i]
/-- CX_CTL.CLRCNT. -/
def State.cxClrcnt (s : State) (i cx : Nat) : State :=
  s.zeroRegs [Reg.CX_CRCERR i cx, Reg.CX_SEQERR i cx, Reg.CX_LOSS i cx]

/-- A write of RG_W applies RG_X0 and RG_W from the next line cut (R240, R242); a width that would take more than 65,535
sheets is refused. -/
def State.rgWrite (s : State) (who i g : Nat) (w : Word) : State :=
  let x0 := s.staged who (Reg.RG_X0 i g) (s.reg (Reg.RG_X0 i g))
  let s1 := s.clearStage who (Reg.RG_X0 i g) 2
  let cfg := s.reg (Reg.RG_CFG i g)
  let k := field cfg 8 4
  if 65535 < packCount (field cfg 13 2) w.toNat (s.frankCfg i k).count then s1.camCfgErr i k
  else (s1.setReg (Reg.RG_X0 i g) x0).setReg (Reg.RG_W i g) w

end Sys2Proof.Machine
end

