-- ==== Sys2Proof/Machine/Host.lean ====
section
/-!
DEFINITION. The host interface: the endpoint, MSI-X, the transfer engine and the pigeonholes (spec 16).
-/
namespace Sys2Proof.Machine

/-- Word `w` of BAR2, two bytes each: pigeonhole pages, or the load window (R418, R456). -/
def bar2Key (w : Nat) : Nat := 0x70000000000 + w
/-- The pigeonhole. -/
def State.hole (s : State) (p : Nat) : Hole := s.holes.getD p Hole.reset
/-- The state with a pigeonhole replaced. -/
def State.setHole (s : State) (p : Nat) (h : Hole) : State := { s with holes := s.holes.set p h }
/-- Is the PCIE domain on? -/
def State.pcieOn (s : State) : Bool := bit (s.reg (Reg.PWR_ON 3)) 2
/-- HOST_LINK.UP: the endpoint is enabled, PERST_N is high, the domain serves and the link is trained (R410). -/
def State.linkTrained (s : State) : Bool := bit (s.reg Reg.HOST_CFG) 15 && s.pcieOn && s.pcie.perst && !s.pcie.lost
/-- Are the BARs reached: not in D3hot (R409)? -/
def State.barOpen (s : State) : Bool := s.linkTrained && !s.pcie.d3
/-- Traffic on the link brings it from L1 to L0. -/
def State.inL0 (s : State) : State := { s with pcie := { s.pcie with l1 := false } }
/-- HOST_LINK as it reads (R427). -/
def State.hostLink (s : State) : Word :=
  if s.linkTrained then
    word (0x8000 + flag s.pcie.bme 14 + flag s.pcie.msixEn 13 + flag s.pcie.l1 12 + s.pcie.speed % 4 * 16 + s.pcie.width % 16)
  else 0
/-- HOST_CFG.ROUTE. -/
def State.hostRoute (s : State) : Nat := field (s.reg Reg.HOST_CFG) 0 8

/-- An access is dropped: HOST_BADACC rises (R411, R414, R418). -/
def State.badAccess (s : State) : State := (s.bump Reg.HOST_BADACC).setBits Reg.HOST_STAT 0x2000
/-- A read completes poisoned (R414). -/
def State.hostUe (s : State) : State := (s.bump Reg.HOST_UE).setBits Reg.HOST_STAT 0x1000

/-! ## MSI-X (R415) -/

/-- A source requests a vector; while the link is down it requests no message (R425). -/
def State.requestVec (s : State) (v : Nat) : State :=
  if s.linkTrained && !(s.pcie.pend.contains v) then { s with pcie := { s.pcie with pend := s.pcie.pend ++ [v] } } else s
/-- A DWORD of the MSI-X table; a vector never written is masked. -/
def Pcie.tabWord (p : Pcie) (i : Nat) : BitVec 32 := p.tab.getD i (if i % 4 = 3 then 1 else 0)
/-- MSIX_MESSAGE: a pending vector that is unmasked sends one message (R415). -/
def State.msixMessage (s : State) (v : Nat) : State :=
  let p := s.pcie
  if s.linkTrained && p.msixEn && !p.fmask && p.pend.contains v && !((p.tabWord (4 * v + 3)).getLsbD 0) then
    { s with pcie := { p with pend := p.pend.filter (· != v), sent := some v, l1 := false } }
  else s
/-- A global event is seen on HUB: HOST_GEPEND latches it, and HOST_GEMAP may map it to a vector (R415). -/
def State.hostGlobal (s : State) (g : Nat) : State :=
  let s1 := s.setBits (Reg.HOST_GEPEND (g / 16)) (word (2 ^ (g % 16)))
  let m := s.reg (Reg.HOST_GEMAP g)
  if bit m 15 then s1.requestVec (field m 0 6) else s1
/-- HOST_DOORBELL: stores the value and raises event HOST (R427). -/
def State.hostDoorbell (s : State) (v : Word) : State := (s.setReg Reg.HOST_DOORBELL v).raiseGlobal 0x7F
/-- HOST_CTL.CLRCNT (R427). -/
def State.hostClrcnt (s : State) : State :=
  s.zeroRegs [Reg.HOST_BADACC, Reg.HOST_UE, Reg.HOST_PORTERR, Reg.HOST_PHDUP, Reg.HOST_PHREFUSED, Reg.HOST_PHTOUTCNT,
    Reg.HOST_PHSDROP]

/-! ## Transfer engine (R416, R417) -/

/-- XF_STAT.STATE: 0 IDLE, 1 RUN, 2 DONE, 3 ERROR. -/
def State.xfState (s : State) (c : Nat) : Nat := field (s.reg (Reg.XF_STAT c)) 0 2
/-- A channel ends in a state with its event bit and cause, and requests its vector. -/
def State.xfEnd (s : State) (c st ev err : Nat) : State :=
  let s1 := s.modReg (Reg.XF_STAT c) fun w => putField (putField w 0 2 st) 8 3 err ||| word (2 ^ ev)
  let cfg := s.reg (Reg.XF_CFG c)
  if bit cfg 15 then s1.requestVec (field cfg 8 6) else s1
/-- A channel stops in ERROR (R417). -/
def State.xfError (s : State) (c err : Nat) : State := s.xfEnd c 3 14 err
/-- A channel enters DONE (R416). -/
def State.xfDone (s : State) (c : Nat) : State := (s.xfEnd c 2 15 0).bumpWrap (Reg.XF_COUNT c) 1
/-- XF_SRC. -/
def State.xfSrc (s : State) (c : Nat) : Nat :=
  s.reg2 (Reg.XF_SRCL c) (Reg.XF_SRCM c) + 2 ^ 32 * field (s.reg (Reg.XF_SRCH c)) 0 6
/-- XF_DST. -/
def State.xfDst (s : State) (c : Nat) : Nat :=
  s.reg2 (Reg.XF_DST c 0) (Reg.XF_DST c 1) + 2 ^ 32 * s.reg2 (Reg.XF_DST c 2) (Reg.XF_DST c 3)
/-- XF_LEN. -/
def State.xfLen (s : State) (c : Nat) : Nat := (s.reg (Reg.XF_LENL c)).toNat + 65536 * field (s.reg (Reg.XF_LENH c)) 0 8
/-- XF_DONE. -/
def State.xfCount (s : State) (c : Nat) : Nat := s.reg2 (Reg.XF_DONEL c) (Reg.XF_DONEH c)

/-- XF_CTL.GO (R416, R417). -/
def State.xfGo (s : State) (c : Nat) : State :=
  if s.xfState c = 1 then s.setBits (Reg.XF_STAT c) 0x2000
  else
    let s1 := (s.setReg2 (Reg.XF_DONEL c) (Reg.XF_DONEH c) 0).modReg (Reg.XF_STAT c) fun w => putField w 8 3 0
    if s.xfLen c = 0 then s1.xfDone c
    else if s.xfSrc c % 32 ≠ 0 ∨ s.ddrCap < s.xfSrc c + 32 * s.xfLen c then s1.xfError c 1
    else if s.xfDst c % 64 ≠ 0 then s1.xfError c 2
    else if !s.pcie.bme then s1.xfError c 4
    else s1.modReg (Reg.XF_STAT c) fun w => putField w 0 2 1
/-- XF_CTL.ABORT (R417). -/
def State.xfAbort (s : State) (c : Nat) : State := if s.xfState c = 1 then s.xfError c 6 else s
/-- Every running channel stops with a cause (R417, R425). -/
def State.xfStopAll (s : State) (err : Nat) : State :=
  (List.range 32).foldl (fun t c => if t.xfState c = 1 then t.xfError c err else t) s

/-- One burst of a TLP: charged, read and written to host memory; the second result is 0 to go on, 1 where the channel has
stopped or must wait (R416, R417). -/
def State.xfBurst (s : State) (c : Nat) : State × Bool :=
  let rt := field (s.reg (Reg.XF_CFG c)) 0 8
  let n := s.xfCount c
  let a := s.xfSrc c + 32 * n
  if !(s.hasStamp 0 rt 1) then (s.noteWait rt 1, false)
  else
    let s1 := (s.takeStamp 0 rt 1).ddrDemand a 32 false
    if s1.ddrUe a 32 then (s1.xfError c 3, false)
    else
      let ws := s1.peeks (ddrKey a) 32
      ((s1.pokes (hostKey ((s.xfDst c + 64 * n) / 2)) ws).setReg2 (Reg.XF_DONEL c) (Reg.XF_DONEH c) (n + 1), true)
/-- Bursts of one TLP, until one must wait. -/
def State.xfBursts (s : State) (c : Nat) : Nat → State
  | 0 => s
  | n + 1 =>
    match s.xfBurst c with
    | (s1, true) => s1.xfBursts c n
    | (s1, false) => s1
/-- Bursts of a channel's next TLP: at most Max_Payload_Size, and none across a 4 KiB boundary (R416). -/
def State.xfTlpLen (s : State) (c : Nat) : Nat :=
  let at_ := s.xfDst c + 64 * s.xfCount c
  min (min (s.xfLen c - s.xfCount c) (if s.pcie.mps256 then 4 else 2)) ((4096 - at_ % 4096) / 64)
/-- XF_TLP_SENT: the next running channel, round-robin, writes its next TLP; DONE follows the last (R416). -/
def State.xfTlpSent (s : State) : State :=
  match ((List.range 32).map fun i => (s.pcie.xfLast + 1 + i) % 32).find? fun c => s.xfState c == 1 with
  | none => s
  | some c =>
    if !s.linkTrained then s
    else
      let s1 := ({ s with pcie := { s.pcie with xfLast := c, l1 := false } } : State).xfBursts c (s.xfTlpLen c)
      if s1.xfState c = 1 ∧ s1.xfCount c = s1.xfLen c then s1.xfDone c else s1

/-! ## Pigeonholes (R418 to R424) -/

/-- Requests a pigeonhole's vector (R423). -/
def State.holeVec (s : State) (p : Nat) : State :=
  let cfg := s.reg (Reg.PH_CFG p)
  if bit cfg 14 then s.requestVec (field cfg 8 6) else s
/-- STATUS of a completion area (R418, R419). -/
def Hole.status (h : Hole) : Word :=
  let done := fun (coll : Bool) => word (0x8000 + flag coll 14 + flag h.dup 12 + h.result)
  match h.state with
  | .free => 0
  | .idle => if h.ltValid then done true else 0
  | .busy => 0x2000
  | .done => done false
  | .releasing => 0x2000
/-- Does the completion area show its words? -/
def Hole.shows (h : Hole) : Bool :=
  match h.state with
  | .idle => h.ltValid
  | .done => true
  | _ => false
/-- Word `w` of a pigeonhole's page as the host reads it (R418, R419). -/
def State.holeWord (s : State) (p w : Nat) : Word :=
  let h := s.hole p
  if w < 1016 then s.peek (bar2Key (2048 * p + w))
  else if w < 1024 then 0
  else if w = 1024 then h.status
  else if h.shows then (if w = 1025 then h.lastTag else s.peek (bar2Key (2048 * p + w)))
  else 0
/-- A word of the page as the server reads it: its own completion words as written (R424). -/
def State.holeServerWord (s : State) (p w : Nat) : Word :=
  let st := (s.hole p).state
  if 1026 ≤ w ∧ (st = .busy ∨ st = .releasing) then s.peek (bar2Key (2048 * p + w)) else s.holeWord p w

/-- BAR2_WRITE: words from word `w` of BAR2. Words of a request area are written while its pigeonhole is not BUSY; a write
that also reaches elsewhere than the request area is dropped there and counted (R418). -/
def State.bar2Write (s : State) (w : Nat) (ws : List Word) : State :=
  let ps := (List.range ws.length).zip ws
  let takes := fun (i : Nat) => decide ((w + i) % 2048 < 1016) && (s.hole ((w + i) / 2048)).state != .busy
  let bad := ps.any fun e => !(takes e.1) && !(decide (1016 ≤ (w + e.1) % 2048) && decide ((w + e.1) % 2048 < 1024))
  let s1 := ps.foldl (fun t e => if takes e.1 then t.poke (bar2Key (w + e.1)) e.2 else t) s
  if bad then s1.badAccess else s1

/-- A submission is refused (R421). -/
def State.phRefuse (s : State) (p : Nat) : State := (s.bump Reg.HOST_PHREFUSED).setBits (Reg.PH_STAT p) 0x8000
/-- The notice sheet of an accepted command (R422). -/
def State.noticeSheet (s : State) (p : Nat) : Sheet :=
  let q := fun i => s.peek (bar2Key (2048 * p + i))
  ⟨word (0xC300 + p), q 0, q 1, q 2, q 4, q 5, q 6, q 7⟩
/-- A command is accepted: the completion words clear, the timeout starts, the notice is queued (R422). -/
def State.phAccept (s : State) (p : Nat) (tag : Word) : State :=
  let s1 : State := { s with mem := s.mem.drop fun k => decide (bar2Key (2048 * p + 1024) ≤ k) && decide (k < bar2Key (2048 * p + 2048)) }
  let s2 := s1.setHole p { s.hole p with state := .busy, tag := tag, start := s.now, dup := false }
  let mb := s.reg (Reg.PH_MB p)
  { s2 with hostQ := s2.hostQ ++ [.notice (boxOf mb) (s.noticeSheet p)] }
/-- PH_SUBMIT: judged against the tag in request word 0, by the first matching row of R421. -/
def State.phSubmit (s : State) (p : Nat) : State :=
  let h := s.hole p
  let tag := s.peek (bar2Key (2048 * p))
  match h.state with
  | .free => s.phRefuse p
  | .releasing => s.phRefuse p
  | .busy => if tag = h.tag then s.bump Reg.HOST_PHDUP else s.phRefuse p
  | .idle | .done =>
    if h.ltValid ∧ tag = h.lastTag then
      (((s.setHole p { h with state := .done, dup := true }).bump Reg.HOST_PHDUP).setBits (Reg.PH_STAT p) 0x4000).holeVec p
    else if h.state = .done then s.phRefuse p
    else s.phAccept p tag
/-- PH_COLLECT: DONE to IDLE (R424). -/
def State.phCollect (s : State) (p : Nat) : State :=
  let h := s.hole p
  if h.state = .done then s.setHole p { h with state := .idle } else s
/-- A pigeonhole is released (R420). -/
def State.phRelease (s : State) (p : Nat) : State :=
  let h := s.hole p
  match h.state with
  | .idle | .done => s.setHole p Hole.reset
  | .busy => s.setHole p { h with state := .releasing }
  | _ => s
/-- PH_OWNER_WRITE: claims a FREE pigeonhole that is enabled, or releases it by its KEY (R420). -/
def State.phOwner (s : State) (p : Nat) (v : Word) : State :=
  let h := s.hole p
  let key := field v 0 15
  if bit v 15 then (if h.key = key ∧ h.state ≠ .free then s.phRelease p else s)
  else if key ≠ 0 ∧ h.state = .free ∧ bit (s.reg (Reg.PH_CFG p)) 15 then
    s.setHole p { Hole.reset with state := .idle, key := key }
  else s
/-- The command of a pigeonhole ends with a result: DONE, or FREE where it was RELEASING (R420, R423). -/
def State.phEnd (s : State) (p result : Nat) : State :=
  let h := s.hole p
  if h.state = .releasing then s.setHole p Hole.reset
  else (s.setHole p { h with state := .done, lastTag := h.tag, ltValid := true, dup := false, result := result }).holeVec p
/-- A server's SDONE: TAG `l`, and RESULT and pigeonhole in `h` (R423). -/
def State.phSdone (s : State) (l h : Word) : State :=
  let p := field h 0 6
  let o := s.hole p
  if (o.state = .busy ∨ o.state = .releasing) ∧ o.tag = l ∧ field h 8 8 < 0xF0 then s.phEnd p (field h 8 8)
  else s.bump Reg.HOST_PHSDROP
/-- PH_TIMEOUT: PH_TOUT milliseconds pass and the device completes the command with RESULT F0h and LEN 0 (R423). -/
def State.phTimeout (s : State) (p : Nat) : State :=
  let h := s.hole p
  let t := (s.reg Reg.HOST_PHTOUT).toNat
  if (h.state = .busy ∨ h.state = .releasing) ∧ 0 < t ∧ h.start + t * 200000 ≤ s.now then
    (((s.poke (bar2Key (2048 * p + 1026)) 0).bump Reg.HOST_PHTOUTCNT).setBits (Reg.PH_STAT p) 0x2000).phEnd p 0xF0
  else s
/-- PH_STAT as it reads (R427). -/
def State.phStat (s : State) (p : Nat) : Word :=
  let h := s.hole p
  let code := match h.state with
    | .free => 0 | .idle => 1 | .busy => 2 | .done => 3 | .releasing => 4
  (s.reg (Reg.PH_STAT p) &&& 0xE000) ||| word (flag h.ltValid 7 + code)

/-- HOST_SSEL of a requester: its pigeonhole and sheet index. -/
def State.ssel (s : State) (who : Nat) : Word := s.sels.getD (ownKey who Reg.HOST_SSEL) 0
/-- A requester reads or writes word `k` of its selected sheet; an access that includes SDATA7 advances the index (R424,
R427). -/
def State.sdata (s : State) (who k : Nat) (wr : Option Word) : Word × State :=
  let sel := s.ssel who
  let p := field sel 8 6
  let w := 8 * field sel 0 8 + k
  let h := s.hole p
  let v := s.holeServerWord p w
  let s1 := match wr with
    | none => s
    | some x =>
      if (1026 ≤ w ∧ (h.state = .busy ∨ h.state = .releasing)) then s.poke (bar2Key (2048 * p + w)) x else s
  let s2 : State := { s1 with sels := s1.sels.set (ownKey who Reg.HOST_SSEL) (putField sel 0 8 (field sel 0 8 + 1)) }
  (v, if k = 7 then s2 else s1)

/-! ## Link reset and power (R355, R425, R426) -/

/-- Is it an access that the host no longer waits for once its link is down: a write already received? -/
def HostAcc.isWrite : HostAcc → Bool
  | .portWrite _ _ => true
  | .burstWrite _ _ => true
  | _ => false
/-- Host reads in progress are abandoned: nothing is gathered, and replies on their way find no reader (R425). -/
def State.dropReads (s : State) : State :=
  { s.dropMsgs (fun m => match m with
      | .portReply who _ _ _ => who == hostId
      | _ => false) with hostOut := [] }
/-- HOST_STAT.LINKEV, where the link was trained before and is no longer (R427). -/
def State.hostLinkDown (s : State) (before : Bool) : State :=
  if before && !s.linkTrained then s.setBits Reg.HOST_STAT 0x8000 else s
/-- What the PCIE domain loses: the link, pigeonholes FREE, channels IDLE, nothing requested; host writes already received are still
performed (R355, R425, R426). -/
def State.pcieLose (s : State) : State :=
  let up := bit (s.reg Reg.HOST_CFG) 15 && s.pcie.perst && !s.pcie.lost
  let s1 : State := { s.dropReads with holes := [], hostQ := s.hostQ.filter HostAcc.isWrite,
                                       pcie := { s.pcie with pend := [], lost := false, l1 := false } }
  let s2 := (List.range 32).foldl (fun t c => t.modReg (Reg.XF_STAT c) fun w => putField w 0 2 0) s1
  if up then s2.setBits Reg.HOST_STAT 0x8000 else s2

/-- Is it a read access, which a link that goes down abandons? -/
def HostAcc.isRead : HostAcc → Bool
  | .portRead _ => true
  | .boxRead _ => true
  | .burstRead _ _ => true
  | .complete => true
  | _ => false

/-- PERST_N falls: Q1 to Q3 (R425). Envelope and host load have their own part in it. -/
def State.perstDown (s : State) : State :=
  let s1 : State := { s.dropReads with hostQ := s.hostQ.filter fun a => !a.isRead }
  let s2 := s1.xfStopAll 5
  let s3 : State := { s2 with
    pcie := { Pcie.reset with xfLast := s2.pcie.xfLast, sent := s2.pcie.sent },
    snaps := s2.snaps.drop fun k => k / 2 ^ 32 == hostId }
  let s4 := s3.setBits Reg.HOST_STAT (if s.linkTrained then 0xC000 else 0x4000)
  if bit (s.reg Reg.HOST_CFG) 14 then (List.range 64).foldl (fun t p => t.phRelease p) s4 else s4
/-- PERST_N rises: the link trains once the domain serves, to the speed and width given (R425). -/
def State.perstUp (s : State) (speed width : Nat) : State :=
  { s with pcie := { s.pcie with perst := true, lost := false, speed := speed, width := width } }
/-- PCIE_CONFIG_WRITE: Bus Master Enable, the MSI-X controls, Max_Payload_Size and the power state; clearing Bus Master Enable stops
running channels with cause BME (R409, R417). -/
def State.pcieConfig (s : State) (bme en mask big d3 : Bool) : State :=
  if !s.linkTrained then s
  else
    let s1 : State := { s with pcie := { s.pcie with bme := bme, msixEn := en, fmask := mask, mps256 := big, d3 := d3, l1 := false } }
    if bme then s1 else s1.xfStopAll 4
/-- LINKEV, where the link was trained. -/
def State.hostLeft (s : State) (was : Bool) : State := if was then s.setBits Reg.HOST_STAT 0x8000 else s
/-- PCIE_LINK_LEFT_L0: into L1, which HOST_LINK shows; or LINKEV, and the link recovers or stays down; a link that stayed down may
recover later (R409, R427). -/
def State.linkLeft (s : State) (way : L0Exit) : State :=
  match way with
  | .l1 => if s.linkTrained then { s with pcie := { s.pcie with l1 := true } } else s
  | .recovery => { s with pcie := { s.pcie with lost := false, l1 := false } }.hostLeft s.linkTrained
  | .down => if s.linkTrained then (({ s with pcie := { s.pcie with lost := true, l1 := false } }).dropReads).hostLeft true else s

/-! ## TLPs as accesses (R411 to R414) -/

/-- The accesses of a BAR0 TLP: the DWORDs written, in address order. -/
def bar0Writes : Nat → List (BitVec 32 × BitVec 4) → List (Nat × BitVec 32 × BitVec 4)
  | _, [] => []
  | i, e :: t => (i, e.1, e.2) :: bar0Writes (i + 1) t
/-- One DWORD written below 1_0000h: the MSI-X table is written byte by byte; the rest ignores writes (R411). -/
def State.boxWrite (s : State) (i : Nat) (v : BitVec 32) (be : BitVec 4) : State :=
  if 256 ≤ i then s
  else
    let m := (List.range 4).foldl (fun n j => n + if be.getLsbD j then 255 * 2 ^ (8 * j) else 0) 0
    let mk := BitVec.ofNat 32 m
    let x := ((s.pcie.tabWord i) &&& ~~~mk) ||| (v &&& mk)
    { s with pcie := { s.pcie with tab := s.pcie.tab.set i x } }
/-- A DWORD below 1_0000h as it reads (R411). -/
def State.boxWord (s : State) (i : Nat) : BitVec 32 :=
  if i < 256 then s.pcie.tabWord i
  else if i = 0x200 ∨ i = 0x201 then
    BitVec.ofNat 32 ((s.pcie.pend.filter fun v => v / 32 == i - 0x200).foldl (fun n v => n + 2 ^ (v % 32)) 0)
  else 0
/-- A BAR0 TLP joins the host's accesses (R411). -/
def State.bar0Queue (s : State) (i : Nat) (op : Bar0Op) : State :=
  match op with
  | .write poisoned dws =>
    if poisoned then { s.badAccess with pcie := { s.badAccess.pcie with poisoned := true } }
    else (bar0Writes i dws).foldl (fun t e =>
      if e.1 < 0x4000 then t.boxWrite e.1 e.2.1 e.2.2
      else if e.2.2.getLsbD 0 && e.2.2.getLsbD 1 then
        { t with hostQ := t.hostQ ++ [.portWrite e.1 (BitVec.ofNat 16 e.2.1.toNat)] }
      else t.badAccess) s
  | .read n =>
    { s with hostQ := s.hostQ ++ ((List.range n).map fun j =>
        if i + j < 0x4000 then HostAcc.boxRead (i + j) else .portRead (i + j)) ++ [.complete] }

/-- The 64-byte bursts that `n` bytes from `b` reach, each as its first byte and its number of bytes. -/
def burstsOf (b n : Nat) : List (Nat × Nat) :=
  (List.range ((b % 64 + n + 63) / 64)).map fun i =>
    let lo := max b (64 * (b / 64 + i))
    (lo, min (b + n) (64 * (b / 64 + i) + 64) - lo)
/-- The M: byte that a BAR4 byte offset reaches (R413). -/
def State.bar4Byte (s : State) (h : Nat) : Nat :=
  ((s.reg Reg.HOST_W4BASEL).toNat + 65536 * field (s.reg Reg.HOST_W4BASEH) 0 3) * 2 ^ 20 + h
/-- May the host write M: word `a` (R395)? -/
def State.hostMayWrite (s : State) (a : Nat) : Bool := s.inRegion 4 a 1 || s.inRegion 5 a 1
/-- A BAR4 TLP joins the host's accesses, or is dropped, or completes as an Unsupported Request (R395, R413, R414). -/
def State.bar4Queue (s : State) (h : Nat) (op : Bar4Op) : State :=
  let b := s.bar4Byte h
  let n := match op with
    | .write bs => bs.length
    | .read n => n
  let ok := bit (s.reg Reg.HOST_W4CFG) 15 && decide ((b + n + 1) / 2 ≤ s.ddrCap)
  match op with
  | .write bs =>
    if !ok then s.badAccess
    else
      let es := (List.range n).zip bs
      let out := es.any fun e => e.2.2 && !(s.hostMayWrite ((b + e.1) / 2))
      let xs := es.map fun e => if e.2.2 && s.hostMayWrite ((b + e.1) / 2) then some e.2.1 else none
      let q := (burstsOf b n).map fun c => HostAcc.burstWrite c.1 ((xs.drop (c.1 - b)).take c.2)
      let s1 : State := { s with hostQ := s.hostQ ++ q }
      if out then (s1.bump Reg.DDR_PROTDROP).ddrEvent 0x8000 else s1
  | .read n =>
    if ok then
      { s with hostQ := s.hostQ ++ ((burstsOf b n).map fun c => HostAcc.burstRead c.1 c.2) ++ [.complete] }
    else { s.badAccess with hostCpl := some { ur := true, poisoned := false, bytes := [] } }

/-- Byte `b` of the M: space, the low byte of a word first (R107, R413). -/
def State.ddrByte (s : State) (b : Nat) : BitVec 8 :=
  BitVec.ofNat 8 ((s.peek (ddrKey (b / 2))).toNat / 2 ^ (8 * (b % 2)))
/-- A word with a byte of it replaced where one is given. -/
def byteInto (v : Word) (hi : Bool) : Option (BitVec 8) → Word
  | none => v
  | some x => putField v (if hi then 8 else 0) 8 x.toNat
/-- Writes bytes within one burst, from M: byte `b`: none leaves the byte (R400, R413). -/
def State.burstBytes (s : State) (b : Nat) (xs : List (Option (BitVec 8))) : State :=
  let w0 := b / 2
  let n := (b + xs.length + 1) / 2 - w0
  let at_ := fun (k : Nat) => if k < b then none else (xs.getD (k - b) none)
  let ws := (List.range n).map fun i =>
    byteInto (byteInto (s.peek (ddrKey (w0 + i))) false (at_ (2 * (w0 + i)))) true (at_ (2 * (w0 + i) + 1))
  let full := decide (xs.length = 64) && xs.all Option.isSome
  let u := s.ddrServe w0
  if xs.all Option.isNone then s
  else if full then u.burstWrite w0 ws
  else if u.ddrUe w0 n then
    let ch := (u.ddrLocal w0).1
    ((u.ddrDemand w0 n false).bump (Reg.DDR_RMWDROP ch)).ddrChEvent ch 0x0800
  else u.pokes (ddrKey w0) ws

end Sys2Proof.Machine
end

