-- ==== Sys2Proof/Machine/Power.lean ====
section
/-!
DEFINITION. Power domains, their votes and switching, performance levels and the PMBus host (spec 13).
-/
namespace Sys2Proof.Machine

/-! ## Domains (R349) -/

/-- The clerks of a group or of the PM domain. -/
def domClerks (n : Nat) : List Nat :=
  if n < 44 then (if n % 11 < 8 then (List.range 4).map fun i => 32 * (n / 11) + 4 * (n % 11) + i else [])
  else if n = 53 then [128, 129] else []
/-- The group domain of a clerk, or the PM domain. -/
def clerkDom (c : Nat) : Nat := if c < 128 then c / 32 * 11 + c % 32 / 4 else 53

/-! ## Votes (R351 to R353) -/

/-- Does a clerk hold its group vote: always, but for a clerk in WAIT that DV_WAITOFF releases (R353)? -/
def State.clerkVotes (s : State) (c : Nat) : Bool :=
  let k := s.clerk c
  k.dbgHalt || !(s.inWait c && bit (s.reg (Reg.DV_WAITOFF (clerkDie c))) (clerkLocal c) && k.codeQueue.isEmpty)
/-- A CLERK parcel (recall or settle) is on its way to the clerk (R352). -/
def State.clerkParcel (s : State) (c : Nat) : Bool :=
  s.msgs.any fun m => match m with
    | .settleClerk t => tagClerk t == c
    | .recallClerk d _ _ => d == c
    | .recallAnswer d => d == c
    | _ => false
/-- A mailbag with WAKE that holds a visible sheet votes for the group of its bound POP slot (R217). -/
def State.bagWakes (s : State) (c : Nat) : Bool :=
  (s.bagsOf (clerkDie c)).any fun e =>
    bit (s.reg (Reg.MB_CFG e.1)) 14 && decide (0 < e.2.visible) && (s.popSlot e.1).any fun p => clerkDom p.1 == clerkDom c
/-- Any vote for a clerk's group that is not the clerk's own or a manual one. -/
def State.groupCalled (s : State) (c : Nat) : Bool := !(s.pendingFor c).isEmpty || s.clerkParcel c || s.bagWakes c
/-- Is the die running at all: out of reset, with clerks that hold votes? -/
def State.dieRuns (s : State) (d : Nat) : Bool := (s.die d).state != .reset && (s.die d).state != .out
/-- The mailbag engine's vote on its die's FAB domain (R217). -/
def State.engineVotes (s : State) (d : Nat) : Bool :=
  ((s.bagsOf d).any fun e => decide (0 < e.2.held)) || !(s.arrivalsOf d).isEmpty ||
    ((List.range 32).any fun l => match (s.clerk (clerkOf d l)).waiting with
      | some w => w.kind == .pop || w.kind == .push
      | none => false)
/-- The ICU's vote on its die's FAB domain: a source with EN = 1 (R341). -/
def State.icuVotes (s : State) (d : Nat) : Bool := (List.range 256).any fun src => bit (s.scfg d src) 15
/-- Does an enabled camera hold a vote on an intake domain: half A, half B or the franking pipeline (R228)? -/
def State.camVotes (s : State) (i part : Nat) : Bool :=
  (List.range 16).any fun k => s.camEn i k && (match part with
    | 0 => decide (s.camMaster i k < 10)
    | 1 => decide (10 < s.camMaster i k + s.camConns i k)
    | _ => true)
/-- Do the `n` words from `a` reach into pair `p` (R393)? -/
def State.reachesPair (s : State) (p a n : Nat) : Bool :=
  let lo := p * (2 * s.chanWords)
  decide (0 < n) && decide (a < lo + 2 * s.chanWords) && decide (lo < a + n)
/-- M: word at which a DDR window of a clerk begins (R97). -/
def State.winBase (s : State) (c n : Nat) : Nat :=
  ((s.reg (Reg.CLK_WIN_BASEL c n)).toNat + 65536 * field (s.reg (Reg.CLK_WIN_BASEH c n)) 0 10) * 4096
/-- The votes of a DDR pair (R352). -/
def State.pairVotes (s : State) (p : Nat) : Bool :=
  (s.bags.any fun e => !e.2.spill.isEmpty && s.reachesPair p (s.spBase e.1) (32 * s.spLen e.1)) ||
  (!s.outbox.spill.isEmpty && s.reachesPair p (s.obBlockAddr 0) (32 * s.obSpLen)) ||
  ((List.range 32).any fun j =>
    let i := j / 16
    let k := j % 16
    s.camEn i k && bit (s.reg (Reg.CAM_FSCFG i k)) 15 &&
      s.reachesPair p (s.reg2 (Reg.CAM_FSBASEL i k) (Reg.CAM_FSBASEH i k) * 2048)
        ((s.reg (Reg.CAM_FSSLOT i k)).toNat * (s.reg (Reg.CAM_FSNSLOT i k)).toNat * 2048)) ||
  ((List.range 130).any fun c => s.domOn (clerkDom c) && (List.range 8).any fun n =>
    field (s.reg (Reg.CLK_WIN_CFG c n)) 14 2 == 2 && s.reachesPair p (s.winBase c n) 4096) ||
  (bit (s.reg Reg.HOST_W4CFG) 15 && s.reachesPair p (s.bar4Byte 0 / 2) (2 ^ 29))
/-- The manual votes: PWR_HVOTE, and DV_CVOTE of the die (R352, R366, R367). -/
def State.manualVote (s : State) (n : Nat) : Bool :=
  bit (s.reg (Reg.PWR_HVOTE (n / 16))) (n % 16) ||
    (if n < 44 then decide (n % 11 < 10) && bit (s.reg (Reg.DV_CVOTE (3 + n / 11))) (n % 11)
     else n == 53 && bit (s.reg (Reg.DV_CVOTE 0)) 0)

/-- The votes of R352 that holders cast without firmware. -/
def State.ownVote (s : State) (n : Nat) : Bool :=
  if n < 44 then
    let d := 3 + n / 11
    let groups := (List.range 8).any fun g => s.domOn (n / 11 * 11 + g)
    match n % 11 with
    | 8 => groups || (List.range 32).any fun l => !(s.clerk (clerkOf d l)).codeQueue.isEmpty
    | 9 => groups
    | 10 => (decide (1 ≤ (s.die d).phase) && (s.die d).state != .out) || s.engineVotes d || s.icuVotes d
    | _ => s.dieRuns d && (domClerks n).any fun c => s.clerkVotes c || s.groupCalled c
  else
    match n with
    | 44 => s.camVotes 0 0 | 45 => s.camVotes 0 1 | 46 => s.camVotes 0 2
    | 47 => s.camVotes 1 0 | 48 => s.camVotes 1 1 | 49 => s.camVotes 1 2
    | 50 => bit (s.reg Reg.HOST_CFG) 15 &&
        (s.pcie.perst || (!(bit (s.reg Reg.HOST_CFG) 14) && s.holes.any fun e => e.2.state != .free))
    | 51 => s.pairVotes 0
    | 52 => s.pairVotes 1
    | 53 => s.dieRuns 0 && [128, 129].any fun c => s.clerkVotes c || s.groupCalled c
    | 54 => (List.range 64).any fun c => bit (s.reg (Reg.CH_CFG c)) 15
    | 55 => (List.range 8).any fun p => bit (s.reg (Reg.ZP_CFG p)) 15
    | _ => false
/-- Does a domain hold at least one vote (PWR_VOTED)? -/
def State.voted (s : State) (n : Nat) : Bool := s.ownVote n || s.manualVote n
/-- Is a domain kept on: voted, or held by PWR_FORCE (R351)? -/
def State.kept (s : State) (n : Nat) : Bool := s.voted n || bit (s.reg (Reg.PWR_FORCE (n / 16))) (n % 16)

/-! ## Switching (R355 to R357) -/

/-- A clerk's hidden state after its group was off: the predictor cleared but for its keys (R355, R75). -/
def Clerk.regain (k : Clerk) : Clerk := { k with pred := k.pred.flush, parked := false }
/-- A domain drops: what R355 says it loses is lost. -/
def State.domDrop (s : State) (n : Nat) : State :=
  let s0 : State := { s with holdOff := s.holdOff.erase n }
  let s1 := (s0.domCrossings n State.crossingReset).setDom n false
  if n < 44 then
    let d := 3 + n / 11
    match n % 11 with
    | 8 => s1
    | 9 =>
      let keep := s.reg2 (Reg.SS_RETSEL d 0) (Reg.SS_RETSEL d 1)
      { s1 with mem := s1.mem.drop fun k =>
          decide (sharedKey d 0 ≤ k) && decide (k < sharedKey d 0x200000) && !(keep.testBit ((k - sharedKey d 0) / 65536)) }
    | 10 =>
      { s1.icuClrcnt d with
        bags := s1.bags.drop fun b => bagDie b == d, arrivals := s1.arrivals.erase d,
        icu := s1.icu.drop fun e => e / 256 == d, replicas := s1.replicas.drop fun e => e / 16 == d }
    | g => (domClerks n).foldl (fun t c => t.modClerk c fun k => { k with parked := true })
        { s1 with lineCaches := s1.lineCaches.erase (8 * d + g) }
  else if n = 53 then (domClerks n).foldl (fun t c => t.modClerk c fun k => { k with parked := true })
      { s1 with lineCaches := s1.lineCaches.erase 0 }
  else if n < 50 then
    let i := (n - 44) / 3
    match (n - 44) % 3 with
    | 0 => (List.range 10).foldl (fun t cx => t.connectionDown i cx) s1
    | 1 => (List.range 10).foldl (fun t cx => t.connectionDown i (10 + cx)) s1
    | _ => (List.range 16).foldl (fun t k => t.camDiscard i k) s1
  else if n = 50 then s1.pcieLose
  else if n = 51 ∨ n = 52 then s1.selfRefresh (n - 51)
  else if n = 54 then { s1 with chans := [] }
  else if n = 55 then { s1 with zports := [], znodes := [] }
  else s1
/-- A domain returns and serves (U2 to U4). -/
def State.domReturn (s : State) (n : Nat) : State :=
  let s1 := (domClerks n).foldl (fun t c => t.modClerk c Clerk.regain)
    ((s.setDom n true).domCrossings n fun t d i => if t.crossHeld d i then t else t.crossingResume d i)
  if 44 ≤ n ∧ n < 50 then
    let i := (n - 44) / 3
    (List.range 16).foldl (fun t k => if (t.cam i k).state = .absent ∧ t.signal i (t.camMaster i k) then t.discover i k else t) s1
  else s1
/-- VOTE_RAISE: a domain that is voted for turns on, or its drop is abandoned (R351, R357). -/
def State.voteRaise (s : State) (n : Nat) : State :=
  if !(s.kept n) then s
  else if s.domOn n then { s with holdOff := s.holdOff.erase n }
  else s.domReturn n
/-- VOTE_WITHDRAW: the hold-off of a domain that nobody keeps on begins (R351). -/
def State.voteWithdraw (s : State) (n : Nat) : State :=
  if s.domOn n ∧ !(s.kept n) ∧ (s.holdOff.find? n).isNone then { s with holdOff := s.holdOff.set n s.refUs } else s
/-- HOLDOFF_EXPIRY: PWR_HOLDOFF microseconds with no vote, and the domain drops (R351, R356). -/
def State.holdoffExpiry (s : State) (n : Nat) : State :=
  match s.holdOff.find? n with
  | none => s
  | some t =>
    if s.domOn n ∧ !(s.kept n) ∧ t + (s.reg Reg.PWR_HOLDOFF).toNat ≤ s.refUs then s.domDrop n else s

/-- DV_ON of a die (R367). -/
def State.dvOn (s : State) (d : Nat) : Word :=
  if d = 0 then word (flag (s.domOn 53) 0)
  else word ((List.range 11).foldl (fun n i => n + flag (s.domOn (11 * (d - 3) + i)) i) 0)
/-- Is the AON regulator in low-power mode: in SEALED, until step W2 of the wake (R364)? -/
def State.aonLow (s : State) : Bool :=
  match s.phase with
  | .isSealed => true
  | .waking k => (s.wake.any fun w => w.fromSealed && !w.lp) && decide (k ≤ 2)
  | _ => false
/-- PWR_VOTED as it reads. -/
def State.pwrVoted (s : State) (j : Nat) : Word :=
  word ((List.range 16).foldl (fun n i => n + flag (decide (16 * j + i < 56) && s.voted (16 * j + i)) i) 0)

/-! ## Performance levels (R358 to R361) -/

/-- Voltage of a level in millivolts (R358). -/
def levelMv (l : Nat) : Nat := [500, 550, 600, 650, 700, 800, 900, 1000].getD l 500
/-- A W1C bit of PWR_STAT sets: event POWER (R366). -/
def State.pwrEvent (s : State) (m : Word) : State := s.setAndRaise Reg.PWR_STAT m 0x7D
/-- The PMBus rail of sorting rail `n`, by its ROLE (R366). -/
def State.sortRail (s : State) (n : Nat) : Option Nat :=
  (List.range 8).find? fun k => field (s.reg (Reg.PMB_CFG k)) 0 4 == n + 1
/-- A voltage in Linear16 with the rail's exponent: round(V × 2^-EXP) (R362). -/
def linear16 (exp5 mv : Nat) : Word :=
  if 16 ≤ exp5 then word ((mv * 2 ^ (32 - exp5) + 500) / 1000) else word ((mv + 500 * 2 ^ exp5) / (1000 * 2 ^ exp5))
/-- The PMBus host writes a command to a rail (R362). -/
def State.pmbSend (s : State) (k code : Nat) (v : Word) : State := { s with pmbCmd := s.pmbCmd.set k (code, v) }
/-- The VOUT_COMMAND of a level on sorting rail `n`. -/
def State.setVout (s : State) (n level : Nat) : State :=
  match s.sortRail n with
  | none => s
  | some k => s.pmbSend k 0x21 (linear16 (field (s.reg (Reg.PMB_EXP k)) 0 5) (levelMv level))
/-- A transition begins: L1, L2 where it lowers, L3 (R359). -/
def State.plStart (s : State) (n target : Nat) : State :=
  let w := s.reg (Reg.PWR_PL n)
  let w1 := putField w 15 1 1
  let w2 := if target < field w 0 3 then putField w1 4 3 target else w1
  let s1 : State := { s.setReg (Reg.PWR_PL n) w2 with plRuns := s.plRuns.set n { target := target, start := s.now } }
  s1.setVout n target
/-- The wait of D1 for its clerks begins when the last transition has ended (R361, R371). -/
def State.plQuiet (s : State) : State :=
  match s.sleep with
  | some r => if r.step = 1 ∧ s.plRuns.isEmpty then { s with sleep := some { r with start := s.now } } else s
  | none => s
/-- A transition has ended: a held request starts (R361). -/
def State.plNext (s : State) (n : Nat) : State :=
  let w := s.reg (Reg.PWR_PL n)
  if bit w 11 then (s.setReg (Reg.PWR_PL n) (putField w 8 4 0)).plStart n (field w 8 3) else s.plQuiet
/-- L5 and L6: the new cap and level (R359). -/
def State.plFinish (s : State) (n target : Nat) : State :=
  let w := putField (putField (putField (s.reg (Reg.PWR_PL n)) 4 3 target) 0 3 target) 15 1 0
  let s1 : State := { s.setReg (Reg.PWR_PL n) w with plRuns := s.plRuns.erase n }
  s1.plNext n
/-- A request for a level: refused above PWR_PLMAX and during sleep entry, held during a transition (R360, R361). -/
def State.plRequest (s : State) (n target : Nat) : State :=
  if field (s.reg (Reg.PWR_PLMAX n)) 0 3 < target ∨ s.sleep.isSome then s.pwrEvent 0x1000
  else if bit (s.reg (Reg.PWR_PL n)) 15 then s.modReg (Reg.PWR_PL n) fun w => putField w 8 4 (8 + target)
  else s.plStart n target
/-- A write of PWR_PLREQ. -/
def State.plreqWrite (s : State) (n : Nat) (v : Word) : State :=
  let s1 := s.setReg (Reg.PWR_PLREQ n) (v &&& 7)
  if bit v 15 then s1.plRequest n (field v 0 3) else s1
/-- A countersigned PWR_PLMAX below the present level starts a transition down to it (R360). -/
def State.plmaxApplied (s : State) (n : Nat) : State :=
  let m := field (s.reg (Reg.PWR_PLMAX n)) 0 3
  let w := s.reg (Reg.PWR_PL n)
  if m < field w 0 3 then
    (if bit w 15 then s.setReg (Reg.PWR_PL n) (putField w 8 4 (8 + m)) else s.plStart n m)
  else s
/-- READ_VOUT in thousandths of a unit of PWR_VTOL: is it within tolerance of a level (R359)? -/
def State.inTolerance (s : State) (k level : Nat) (vout : Word) : Bool :=
  let e := field (s.reg (Reg.PMB_EXP k)) 0 5
  let tol := max 1 (field (s.reg Reg.PWR_VTOL) 0 8)
  if 16 ≤ e then
    let u := 2 ^ (32 - e)
    decide (vout.toNat * 1000 ≤ (levelMv level + tol) * u) && decide ((levelMv level - tol) * u ≤ vout.toNat * 1000)
  else
    decide (vout.toNat * 1000 * 2 ^ e ≤ levelMv level + tol) && decide (levelMv level - tol ≤ vout.toNat * 1000 * 2 ^ e)
/-- VOUT_IN_TOLERANCE: READ_VOUT has come within PWR_VTOL of the new voltage (L4 to L6). -/
def State.voutInTolerance (s : State) (n : Nat) (vout : Word) : State :=
  match s.plRuns.find? n, s.sortRail n with
  | some r, some k =>
    let s1 := s.setReg (Reg.PMB_VOUT k) vout
    if s1.inTolerance k r.target vout then s1.plFinish n r.target else s1
  | _, _ => s
/-- L4 runs out of time: raising, the old voltage is written back; lowering, the transition completes (R360). -/
def State.plExpire (s : State) (n : Nat) (r : PlRun) : State :=
  let old := field (s.reg (Reg.PWR_PL n)) 0 3
  let s1 := (s.bump Reg.PWR_PLFAIL).pwrEvent 0x2000
  if old < r.target then
    let s2 : State := { s1.modReg (Reg.PWR_PL n) fun w => putField w 15 1 0 with plRuns := s1.plRuns.erase n }
    (s2.setVout n old).plNext n
  else s1.plFinish n r.target
/-- A PMBus transaction that failed twice (R363). -/
def State.pmbError (s : State) (k : Nat) : State := (s.bump (Reg.PMB_ERR k)).pwrEvent 0x4000
/-- A transaction of rail `k` failed twice; the rail's transition, if one runs, is treated as L4 out of time (R363). -/
def State.pmbFailed (s : State) (k : Nat) : State :=
  let s1 := s.pmbError k
  match (List.range 4).find? fun n => s.sortRail n == some k && (s.plRuns.find? n).isSome with
  | some n =>
    (match s.plRuns.find? n with
      | some r => s1.plExpire n r
      | none => s1)
  | none => s1
/-- PLTOUT_EXPIRY: the time limit of L4 has passed, or a transaction of the transition has failed (R360, R363). -/
def State.pltoutExpiry (s : State) (n : Nat) (failed : Bool) : State :=
  match s.plRuns.find? n with
  | none => s
  | some r =>
    if failed then
      match s.sortRail n with
      | some k => s.pmbFailed k
      | none => s.plExpire n r
    else if r.start + max 100 (s.reg Reg.PWR_PLTOUT).toNat * 200 ≤ s.now then s.plExpire n r
    else s

/-! ## PMBus (R362, R363) -/

/-- What a poll reads is kept; a fault bit of STATUS_WORD sets RAILFLT (R363). -/
def State.pmbTake (s : State) (k : Nat) (r : PmbPoll) : State :=
  let s0 : State := { s with polled := s.polled.set k s.now }
  match r with
  | .failed => s0.pmbFailed k
  | .read st v i =>
    let s1 := ((s0.setReg (Reg.PMB_STATUS k) st).setReg (Reg.PMB_VOUT k) v).setReg (Reg.PMB_IOUT k) i
    if st &&& 0xFFFC = 0 then s1 else s1.pwrEvent 0x8000
/-- Is the rail configured? -/
def State.railUsed (s : State) (k : Nat) : Bool := field (s.reg (Reg.PMB_CFG k)) 0 4 != 0
/-- PMBUS_POLL: PWR_POLL milliseconds have passed since the rail's last poll (R363). -/
def State.pmbusPoll (s : State) (k : Nat) (r : PmbPoll) : State :=
  if s.railUsed k ∧ s.polled.getD k 0 + max 1 (field (s.reg Reg.PWR_POLL) 0 8) * 200000 ≤ s.now then s.pmbTake k r else s
/-- PMB_CTL.READ (R366). -/
def State.pmbRead (s : State) (k : Nat) (r : PmbPoll) : State := if s.railUsed k then s.pmbTake k r else s
/-- PMB_CTL.CLRF: CLEAR_FAULTS is sent (R362). -/
def State.pmbClrf (s : State) (k : Nat) (acked : Bool) : State :=
  if !(s.railUsed k) then s else if acked then s.pmbSend k 0x03 0 else s.pmbFailed k
/-- PWR_CTL.CLRCNT (R366). -/
def State.pwrClrcnt (s : State) : State := s.zeroRegs (Reg.PWR_PLFAIL :: (List.range 8).map Reg.PMB_ERR)

end Sys2Proof.Machine
end

