-- ==== Sys2Proof/Machine/Aon.lean ====
section
/-!
DEFINITION. The AON block and the shared-store banks: pad hold, AON SRAM, synchronisation, wake sources, poison (spec 14).
-/
namespace Sys2Proof.Machine

/-! ## AON registers (R381, R388, R536) -/

/-- AON_STAT as it reads: HELD and STEP (R388). -/
def State.aonStat (s : State) : Word :=
  let step := match s.sleep with
    | some r => r.step
    | none => 0
  (s.reg Reg.AON_STAT &&& 0xC000) ||| word (s.padHold % 8 * 1024 + step)
/-- AON_CTL.CLRCNT (R388). -/
def State.aonClrcnt (s : State) : State :=
  s.zeroRegs [Reg.AON_SLEEPCNT, Reg.AON_ABORTCNT, Reg.AON_REFUSECNT, Reg.AON_WAKECNT]
/-- Latches AON_TIME and the AX15 integer together (R536). -/
def State.aonSync (s : State) : State :=
  let a := s.refUs % 2 ^ 32
  (((((s.setReg Reg.AON_SYNCTL (wordOf s.aonTime 0)).setReg Reg.AON_SYNCTM (wordOf s.aonTime 1)).setReg Reg.AON_SYNCTH
    (wordOf s.aonTime 2)).setReg Reg.AON_SYNCAXL (wordOf a 0)).setReg Reg.AON_SYNCAXH (wordOf a 1))
/-- AON_PADHOLD_REL: releases the named banks that are held (R381, R388). -/
def State.padRelease (s : State) (v : Word) : State :=
  let gone := s.padHold &&& field v 0 3
  { s with padHold := s.padHold - gone, heldFire := if gone.testBit 1 then [] else s.heldFire,
           heldGpio := if gone.testBit 0 then [] else s.heldGpio }
/-- AON_SRDATA: reads or writes the addressed word of the AON SRAM, then advances the address (R388). -/
def State.srdata (s : State) (wr : Option Word) : Word × State :=
  let a := field (s.reg Reg.AON_SRADDR) 0 15
  let s1 := match wr with
    | none => s
    | some v => s.poke (aonKey a) v
  (s.peek (aonKey a), s1.setReg Reg.AON_SRADDR (word ((a + 1) % 0x8000)))

/-! ## Wake sources (R383, R384) -/

/-- Does the sequencer listen to wake sources: from D1 of an entry to W1, and on through the wake (R383, R384)? -/
def State.sleeping (s : State) : Bool := s.phase == .dormant || s.phase == .isSealed
/-- The code bit of a source in SEEN: WAKE_RECORD0 bits 11:7 (R388). -/
def seenBit (src : Nat) : Nat :=
  match src with
  | 1 => 16 | 2 => 8 | 3 => 4 | 4 => 2 | _ => 1
/-- W1: a wake starts from a sleep mode: the wake record, mode 3h in transition (R386). -/
def State.wakeStart (s : State) (src detail : Nat) (lp : Bool) : State :=
  let sealed := s.phase == .isSealed
  let w0 := word (src * 4096 + seenBit src * 128 + flag lp 6 + flag sealed 5 + detail)
  let s1 := ((((s.setReg (Reg.WAKE_RECORD 0) w0).setReg (Reg.WAKE_RECORD 1) (wordOf s.aonTime 0)).setReg
    (Reg.WAKE_RECORD 2) (wordOf s.aonTime 1)).setReg (Reg.WAKE_RECORD 3) (wordOf s.aonTime 2))
  let s2 := (List.range 8).foldl (fun t i => t.setReg (Reg.WAKE_RECORD (4 + i)) 0) s1
  { s2.setReg Reg.DEVICE_MODE 0x0013 with
    phase := .waking 1, wake := some { fromSealed := sealed, source := src, detail := detail, seen := seenBit src, lp := lp } }
/-- A wake source is detected: it aborts an entry before D7, starts a wake from sleep, and during a wake only sets its SEEN
bit; AON_WAKECNT counts it (R373, R375, R384, R387). A source after that is no wake. -/
def State.wakeSource (s : State) (src detail : Nat) : State :=
  match s.sleep with
  | some r =>
    let s1 := s.bump Reg.AON_WAKECNT
    { s1 with sleep := some { r with stop := r.stop.or (some (true, 9, src + 16 * detail)) } }
  | none =>
    if s.sleeping then (s.bump Reg.AON_WAKECNT).wakeStart src detail false
    else match s.wake with
      | none => s
      | some w =>
        ({ (s.bump Reg.AON_WAKECNT) with wake := some { w with seen := w.seen ||| seenBit src } }).setBits (Reg.WAKE_RECORD 0)
          (word (seenBit src * 128))
/-- WAKE_SMBUS: always enabled. -/
def State.wakeSmbus (s : State) : State := s.wakeSource 1 0
/-- WAKE_TIMER: enabled, and AON_TIME has reached AON_WTIME (R383). -/
def State.wakeTimer (s : State) : State :=
  let d := (s.aonTime % 2 ^ 32 + 2 ^ 32 - s.reg2 Reg.AON_WTIMEL Reg.AON_WTIMEH) % 2 ^ 32
  if bit (s.reg Reg.AON_WAKECFG) 14 && decide (d < 2 ^ 31) then s.wakeSource 2 0 else s
/-- WAKE_GPIO: an edge on an input pin in use, held 1 µs, enabled for the pin (R383, R508). -/
def State.wakeGpio (s : State) (i : Nat) : State :=
  let en := bit (s.reg (if i < 16 then Reg.AON_WAKEGPIOL else Reg.AON_WAKEGPIOH)) (i % 16)
  if bit (s.reg Reg.AON_WAKECFG) 13 && en && s.gpioWake.getLsbD i then s.wakeSource 3 i else s
/-- Counts a valid quadrature transition on an encoder from the start of D1 (R383). -/
def State.encoderSeen (s : State) (e : Nat) (a b : Bool) : State :=
  let old := s.encoderPads e (s.encPins.getD e (false, false))
  let new := s.encoderPads e (a, b)
  let s1 : State := { s with encPins := s.encPins.set e (a, b) }
  let valid := (old.1 != new.1) != (old.2 != new.2)
  if valid && (s.sleep.isSome || s.sleeping) then { s1 with encWake := s1.encWake.set e (s1.encWake.getD e 0 + 1) } else s1
/-- WAKE_ENCODER: enabled for the encoder, with ENCTHR transitions counted (R383). -/
def State.wakeEncoder (s : State) (e : Nat) : State :=
  let cfg := s.reg Reg.AON_WAKECFG
  if bit cfg 12 && bit (s.reg Reg.AON_WAKEENC) e && decide (max 1 (field cfg 0 8) ≤ s.encWake.getD e 0) then
    s.wakeSource 4 e
  else s

/-- Fields of the AON block that a brown-out reset returns to the reset column: all but the time, the records and the hold
cells (R365, R388). -/
def aonResets : List Nat :=
  [Reg.AON_STAT, Reg.AON_WAKECFG, Reg.AON_WAKEGPIOL, Reg.AON_WAKEGPIOH, Reg.AON_WAKEENC, Reg.AON_WTIMEL, Reg.AON_WTIMEH,
    Reg.AON_D1TOUT, Reg.AON_SLEEPCNT, Reg.AON_ABORTCNT, Reg.AON_REFUSECNT, Reg.AON_SRADDR, Reg.AON_WAKECNT, Reg.AON_SYNCTL,
    Reg.AON_SYNCTM, Reg.AON_SYNCTH, Reg.AON_SYNCAXL, Reg.AON_SYNCAXH]
/-- The AON block as when VAON was first applied, but for what its cells hold. -/
def State.aonReset (s : State) : State :=
  let inRam := fun k => decide (aonKey 0 ≤ k) && decide (k < aonKey 0x8000)
  { s with regs := s.regs.drop (fun k => aonResets.contains k), mem := s.mem.drop inRam }
/-- AON_BROWNOUT: in SEALED, a load above the low-power limit resets the AON domain and wakes the device (R365). -/
def State.brownout (s : State) : State :=
  if s.phase = .isSealed then ((s.aonReset).bump Reg.AON_WAKECNT).wakeStart 6 0 true else s

/-! ## Shared-store banks (R377 to R380) -/

/-- Is bank `b` of sorting die `d` poisoned? -/
def State.poisoned (s : State) (d b : Nat) : Bool := bit (s.reg (Reg.SS_POISON d (b / 16))) (b % 16)
/-- Poisons a bank (R379, R488). -/
def State.poisonBank (s : State) (d b : Nat) : State := s.setBits (Reg.SS_POISON d (b / 16)) (word (2 ^ (b % 16)))
/-- Lifts the poison of a bank: it is cleared to 0000h, and LASTING ends on it (R380, R488). -/
def State.liftPoison (s : State) (d b : Nat) : State :=
  if !(s.poisoned d b) then s
  else
    let m := word (2 ^ (b % 16))
    let inBank := fun k => decide (sharedKey d (65536 * b) ≤ k) && decide (k < sharedKey d (65536 * (b + 1)))
    let s1 : State := { s with mem := s.mem.drop inBank }
    ((s1.clrBits (Reg.SS_POISON d (b / 16)) m).clrBits (Reg.SS_RLRAISED d (b / 16)) m).endLasting 1 (32 * (d - 3) + b)
/-- A write of SS_POISONL or SS_POISONH (R380, R389). -/
def State.poisonClear (s : State) (d : Nat) (hi : Bool) (v : Word) : State :=
  (List.range 16).foldl (fun t i => if bit v i then t.liftPoison d (i + (if hi then 16 else 0)) else t) s

/-- CRC-32C over words, each low byte first (R378). -/
def crc32c (ws : List Word) : Nat :=
  let byte := fun (r x : Nat) => (List.range 8).foldl (fun q _ => if q % 2 = 1 then q / 2 ^^^ 0x82F63B78 else q / 2) (r ^^^ x)
  (ws.foldl (fun r w => byte (byte r (w.toNat % 256)) (w.toNat / 256)) 0xFFFFFFFF) ^^^ 0xFFFFFFFF
/-- The signature of a shared-store bank (R378). -/
def State.bankSig (s : State) (d b : Nat) : Nat := crc32c (s.peeks (sharedKey d (65536 * b)) 65536)

end Sys2Proof.Machine
end

