-- ==== Sys2Proof/Machine/Crypto.lean ====
section
/-!
DEFINITION. The two algorithms by which the loader judges an image (R454): SHA-256 and ECDSA P-256. The spec names them, FIPS 180-4 and
FIPS 186-5 define them (PRESUMED, log 73). Keys, signatures and digests stand most significant byte first (R449).
-/
namespace Sys2Proof.Machine

/-! ## Bytes -/

/-- The bytes of words, each word low byte first (R107). -/
def wordBytes (ws : List Word) : List (BitVec 8) := ws.flatMap fun w => [BitVec.ofNat 8 w.toNat, BitVec.ofNat 8 (w.toNat / 256)]
/-- The number that bytes spell, most significant byte first (R449). -/
def beNat (bs : List (BitVec 8)) : Nat := bs.foldl (fun n b => n * 256 + b.toNat) 0
/-- The number in 16 words. -/
def wordsNat (ws : List Word) : Nat := beNat (wordBytes ws)

/-! ## SHA-256 -/

/-- The round constants: the first 32 bits of the fractional parts of the cube roots of the first 64 primes. -/
def shaK : List (BitVec 32) :=
  [0x428A2F98, 0x71374491, 0xB5C0FBCF, 0xE9B5DBA5, 0x3956C25B, 0x59F111F1, 0x923F82A4, 0xAB1C5ED5,
   0xD807AA98, 0x12835B01, 0x243185BE, 0x550C7DC3, 0x72BE5D74, 0x80DEB1FE, 0x9BDC06A7, 0xC19BF174,
   0xE49B69C1, 0xEFBE4786, 0x0FC19DC6, 0x240CA1CC, 0x2DE92C6F, 0x4A7484AA, 0x5CB0A9DC, 0x76F988DA,
   0x983E5152, 0xA831C66D, 0xB00327C8, 0xBF597FC7, 0xC6E00BF3, 0xD5A79147, 0x06CA6351, 0x14292967] ++
  [0x27B70A85, 0x2E1B2138, 0x4D2C6DFC, 0x53380D13, 0x650A7354, 0x766A0ABB, 0x81C2C92E, 0x92722C85,
   0xA2BFE8A1, 0xA81A664B, 0xC24B8B70, 0xC76C51A3, 0xD192E819, 0xD6990624, 0xF40E3585, 0x106AA070,
   0x19A4C116, 0x1E376C08, 0x2748774C, 0x34B0BCB5, 0x391C0CB3, 0x4ED8AA4A, 0x5B9CCA4F, 0x682E6FF3,
   0x748F82EE, 0x78A5636F, 0x84C87814, 0x8CC70208, 0x90BEFFFA, 0xA4506CEB, 0xBEF9A3F7, 0xC67178F2]
/-- The hash state before the first block. -/
def shaInit : List (BitVec 32) :=
  [0x6A09E667, 0xBB67AE85, 0x3C6EF372, 0xA54FF53A, 0x510E527F, 0x9B05688C, 0x1F83D9AB, 0x5BE0CD19]
/-- A block's message schedule, extended by `n` words; the newest word stands first. -/
def shaExtend : Nat → List (BitVec 32) → List (BitVec 32)
  | 0, ws => ws
  | n + 1, ws =>
    let a := ws.getD 1 0
    let b := ws.getD 14 0
    let x := (a.rotateRight 17 ^^^ a.rotateRight 19 ^^^ (a >>> 10)) + ws.getD 6 0 +
      (b.rotateRight 7 ^^^ b.rotateRight 18 ^^^ (b >>> 3)) + ws.getD 15 0
    shaExtend n (x :: ws)
/-- One round, with its constant and schedule word. -/
def shaRound (h : List (BitVec 32)) (kw : BitVec 32 × BitVec 32) : List (BitVec 32) :=
  match h with
  | [a, b, c, d, e, f, g, p] =>
    let t1 := p + (e.rotateRight 6 ^^^ e.rotateRight 11 ^^^ e.rotateRight 25) + ((e &&& f) ^^^ (~~~e &&& g)) + kw.1 + kw.2
    let t2 := (a.rotateRight 2 ^^^ a.rotateRight 13 ^^^ a.rotateRight 22) + ((a &&& b) ^^^ (a &&& c) ^^^ (b &&& c))
    [t1 + t2, a, b, c, d + t1, e, f, g]
  | _ => h
/-- The hash state after a block of 64 bytes. -/
def shaBlock (h : List (BitVec 32)) (bs : List (BitVec 8)) : List (BitVec 32) :=
  let ws := (List.range 16).map fun i => BitVec.ofNat 32 (beNat ((bs.drop (4 * i)).take 4))
  List.zipWith (· + ·) h ((shaK.zip (shaExtend 48 ws.reverse).reverse).foldl shaRound h)
/-- The hash state after `n` blocks. -/
def shaBlocks : Nat → List (BitVec 32) → List (BitVec 8) → List (BitVec 32)
  | 0, h, _ => h
  | n + 1, h, bs => shaBlocks n (shaBlock h (bs.take 64)) (bs.drop 64)
/-- The padded message: a one bit, zeros, the length in bits in 64 bits. -/
def shaPad (bs : List (BitVec 8)) : List (BitVec 8) :=
  bs ++ [0x80] ++ List.replicate ((119 - bs.length % 64) % 64) 0 ++
    (List.range 8).map fun i => BitVec.ofNat 8 (8 * bs.length / 256 ^ (7 - i))
/-- SHA-256 of words' bytes, as the 16 words of a DIGEST field (R449, R450, R454). -/
def sha256 (ws : List Word) : List Word :=
  let p := shaPad (wordBytes ws)
  (shaBlocks (p.length / 64) shaInit p).flatMap fun x =>
    [BitVec.ofNat 16 (x.toNat / 65536 % 256 * 256 + x.toNat / 16777216), BitVec.ofNat 16 (x.toNat % 256 * 256 + x.toNat / 256 % 256)]

/-! ## ECDSA P-256 -/

/-- The field's prime. -/
def ecP : Nat := 0xFFFFFFFF00000001000000000000000000000000FFFFFFFFFFFFFFFFFFFFFFFF
/-- The order of the base point. -/
def ecN : Nat := 0xFFFFFFFF00000000FFFFFFFFFFFFFFFFBCE6FAADA7179E84F3B9CAC2FC632551
/-- The curve's b; its a is −3. -/
def ecB : Nat := 0x5AC635D8AA3A93E7B3EBBD55769886BC651D06B0CC53B0F63BCE3C3E27D2604B
/-- The base point. -/
def ecG : Nat × Nat := (0x6B17D1F2E12C4247F8BCE6E563A440F277037D812DEB33A0F4A13945D898C296,
  0x4FE342E2FE1A7F9B8EE7EB4A7C0F9E162BCE33576B315ECECBB6406837BF51F5)
/-- `x ^ e` modulo `m`, over the lowest `n` bits of `e`. -/
def powMod : Nat → Nat → Nat → Nat → Nat
  | 0, _, _, m => 1 % m
  | n + 1, x, e, m => (if e % 2 = 1 then x else 1) * powMod n (x * x % m) (e / 2) m % m
/-- The inverse modulo a prime of at most 256 bits. -/
def invMod (x m : Nat) : Nat := powMod 256 x (m - 2) m
/-- The sum of two points; none is the point at infinity. -/
def ecAdd : Option (Nat × Nat) → Option (Nat × Nat) → Option (Nat × Nat)
  | none, q => q
  | p, none => p
  | some (x1, y1), some (x2, y2) =>
    if x1 = x2 ∧ (y1 + y2) % ecP = 0 then none
    else
      let l := if x1 = x2 then 3 * (x1 * x1 + ecP - 1) * invMod (2 * y1 % ecP) ecP % ecP
        else (y2 + ecP - y1) * invMod ((x2 + ecP - x1) % ecP) ecP % ecP
      let x3 := (l * l + 2 * ecP - x1 - x2) % ecP
      some (x3, (l * (x1 + ecP - x3) + ecP - y1) % ecP)
/-- The multiple of a point by the lowest `n` bits of `k`. -/
def ecMul : Nat → Nat → Option (Nat × Nat) → Option (Nat × Nat)
  | 0, _, _ => none
  | n + 1, k, p => ecAdd (if k % 2 = 1 then p else none) (ecMul n (k / 2) (ecAdd p p))
/-- Is the point a public key: on the curve, its coordinates in the field? -/
def ecValid (x y : Nat) : Bool :=
  decide (x < ecP) && decide (y < ecP) && decide (y * y % ecP = (x * x * x + (ecP - 3) * x + ecB) % ecP)
/-- Is the signature, r then s, one by the key, X then Y, over the hash (R449, R454)? -/
def ecdsaOk (key sig hash : List Word) : Bool :=
  let x := wordsNat (key.take 16)
  let y := wordsNat (key.drop 16)
  let r := wordsNat (sig.take 16)
  let t := wordsNat (sig.drop 16)
  let w := invMod t ecN
  ecValid x y && decide (0 < r) && decide (r < ecN) && decide (0 < t) && decide (t < ecN) &&
    (match ecAdd (ecMul 256 (wordsNat hash * w % ecN) (some ecG)) (ecMul 256 (r * w % ecN) (some (x, y))) with
     | some (v, _) => decide (v % ecN = r)
     | none => false)

end Sys2Proof.Machine
end

