-- ==== Sys2Proof/Machine/ImageCore.lean ====
section
/-!
DEFINITION. The structure image as bytes: header, slice table, sections, authentication, the banks of the IMAGE region, and
the commands of the IMAGE block (spec 18, R449 to R458, R468, R470).
-/
namespace Sys2Proof.Machine

/-! ## Where images lie (R456, R457) -/

/-- IMG_STAT.BANK. -/
def State.bank (s : State) : Nat := field (s.reg Reg.IMG_STAT) 9 1
/-- Words of one bank: half the IMAGE region (R457). -/
def State.bankWords (s : State) : Nat :=
  match s.imageRegion with
  | some (_, n) => n / 2
  | none => 0
/-- Key of the first word of a bank. -/
def State.bankKey (s : State) (b : Nat) : Nat :=
  match s.imageRegion with
  | some (a, n) => ddrKey (a + b * (n / 2))
  | none => ddrKey 0
/-- Copies `n` words from one key to another; words not listed in the source become blank. -/
def State.copyWords (s : State) (src dst n : Nat) : State :=
  let es := s.mem.filter fun e => decide (src ≤ e.1) && decide (e.1 < src + n)
  let m0 := s.mem.drop fun k => decide (dst ≤ k) && decide (k < dst + n)
  { s with mem := es.foldl (fun m e => Mem.write m (e.1 - src + dst) e.2) m0 }

/-- IMG_CFG.ROUTE. -/
def State.loaderRoute (s : State) : Nat := field (s.reg Reg.IMG_CFG) 0 8
/-- The loader charges `n` bursts to its route, once start-up has reached READY. Of a run that takes longer than a round the round at
hand pays what its route has left; none where that is nothing, and the loader waits (R457; log 77). -/
def State.loaderPays (s : State) (n : Nat) : Option State :=
  let rt := s.loaderRoute
  let left := if bit (s.reg (routeKey rt 3)) 15 then (s.reg (routeKey rt 7)).toNat - (s.meter 0 rt 1).used else n
  if s.phase ≠ .awake ∨ n = 0 then some s
  else if left = 0 then none
  else some (s.takeStamps 0 rt 1 (min n left))

/-! ## Fields (R449, R450) -/

/-- Word `i` of the image at key `b`. -/
def State.iw (s : State) (b i : Nat) : Word := s.peek (b + i)
/-- The 32-bit value at word `i`, low word first. -/
def State.iw2 (s : State) (b i : Nat) : Nat := (s.iw b i).toNat + 65536 * (s.iw b (i + 1)).toNat
/-- A version at word `i` as R453 compares it. -/
def State.iver (s : State) (b i : Nat) : Nat := (s.iw b i).toNat * 256 + (s.iw b (i + 1)).toNat % 256
/-- First word of slice table entry `d`. -/
def sliceAt (d : Nat) : Nat := 48 + 32 * d
/-- OFFSET of slice `d` in words. -/
def State.sliceOff (s : State) (b d : Nat) : Nat := s.iw2 b (sliceAt d + 6) / 2
/-- LENGTH of slice `d` in bytes. -/
def State.sliceLen (s : State) (b d : Nat) : Nat := s.iw2 b (sliceAt d + 8)
/-- Has the image a slice for die `d`? -/
def State.hasSlice (s : State) (b d : Nat) : Bool := s.sliceLen b d != 0
/-- DIGEST of slice `d`. -/
def State.sliceDigest (s : State) (b d : Nat) : List Word := s.peeks (b + sliceAt d + 16) 16
/-- Does slice `d` match its DIGEST (R454, R458)? -/
def State.digestOk (s : State) (b d : Nat) : Bool :=
  decide (sha256 (s.peeks (b + s.sliceOff b d) (s.sliceLen b d / 2)) = s.sliceDigest b d)
/-- Bytes of the image: TOTAL. -/
def State.imgTotal (s : State) (b : Nat) : Nat := s.iw2 b 12
/-- ARB. -/
def State.imgArb (s : State) (b : Nat) : Nat := (s.iw b 10).toNat % 256

/-- Does the layout hold: MAGIC, FORMAT, NSLICE, TOTAL, the place of every slice, and a slice for HUB (R449, R450, R454)? -/
def State.formatOk (s : State) (b : Nat) : Bool :=
  let n := (s.iw b 3).toNat
  s.iw b 0 == 0x5649 && s.iw b 1 == 0x534B && s.iw b 2 == 1 && decide (1 ≤ n) && decide (n ≤ 8) &&
    decide (s.imgTotal b ≤ 2 ^ 28) && s.hasSlice b 0 &&
    (List.range 8).all fun d => !(s.hasSlice b d) ||
      (decide (s.iw2 b (sliceAt d + 6) % 4096 = 0) && decide (s.iw2 b (sliceAt d + 6) + s.sliceLen b d ≤ s.imgTotal b))
/-- The first check of R454 that a header fails, as STGERR names it; 0 where it passes (R470). -/
def State.headerErr (s : State) (b : Nat) : Nat :=
  let key := s.peeks (b + 16) 32
  if !(s.formatOk b) then 1
  else if Config.otpKeyHash ≠ some (sha256 key) then 2
  else if !(ecdsaOk key (s.peeks (b + 480) 32) (sha256 (s.peeks b 480))) then 3
  else if s.imgArb b < s.otpArb then 4
  else 0
/-- Do all slices match their digests? -/
def State.digestsOk (s : State) (b : Nat) : Bool := (List.range 8).all fun d => !(s.hasSlice b d) || s.digestOk b d
/-- Do two images hold the same slice for a die, by digest (R468)? -/
def State.sameSlice (s : State) (b b' d : Nat) : Bool := decide (s.sliceDigest b d = s.sliceDigest b' d)

/-! ## Sections (R451) -/

/-- A section: its type, its first content word and its content words. -/
structure Section where
  ty : Nat
  at_ : Nat
  len : Nat
deriving DecidableEq, Repr

/-- The sections of a slice from word `i` to word `stop`; none where one is malformed. -/
def State.sectionsFrom (s : State) (b stop : Nat) : Nat → Nat → Option (List Section)
  | 0, _ => none
  | fuel + 1, i =>
    if stop ≤ i then some []
    else
      let len := s.iw2 b (i + 2)
      let next := i + (8 + len + 7) / 8 * 4
      if s.iw b (i + 1) ≠ 0 ∨ len % 2 ≠ 0 ∨ stop < i + 4 + len / 2 then none
      else (s.sectionsFrom b stop fuel next).map fun t => { ty := (s.iw b i).toNat, at_ := i + 4, len := len / 2 } :: t
/-- The sections of slice `d`. -/
def State.sections (s : State) (b d : Nat) : Option (List Section) :=
  let o := s.sliceOff b d
  let n := s.sliceLen b d / 2
  s.sectionsFrom b (o + n) (n / 4 + 1) o
/-- May a slice of die `d` hold a section of the type (R451)? -/
def sectionFor (d ty : Nat) : Bool :=
  match ty with
  | 1 => d == 0 || isSort d
  | 2 => true
  | 3 => true
  | 4 => true
  | 5 => isSort d || d == 1 || d == 2
  | 6 => d == 0
  | _ => false
/-- The sections of slice `d`, where every one is allowed and none but DATA stands twice. -/
def State.goodSections (s : State) (b d : Nat) : Option (List Section) :=
  match s.sections b d with
  | none => none
  | some l =>
    let once := fun ty => decide ((l.filter fun x => x.ty == ty).length ≤ 1)
    if l.all (fun x => sectionFor d x.ty) && [1, 2, 3, 4, 6].all once then some l else none
/-- The section of a type, if the slice holds one. -/
def sectionOf (l : List Section) (ty : Nat) : Option Section := l.find? fun x => x.ty == ty
/-- The content words of a section. -/
def State.content (s : State) (b : Nat) (x : Section) : List Word := s.peeks (b + x.at_) x.len
/-- Words in threes: entries of CONFIG and of the fallback lists (R436, R461). -/
def triples : List Word → List (Word × Word × Word)
  | a :: b :: c :: t => (a, b, c) :: triples t
  | _ => []
/-- Words in twos. -/
def pairsOf : List Word → List (Word × Word)
  | a :: b :: t => (a, b) :: pairsOf t
  | _ => []

/-- FABRIC of die `d`: the link for each destination die (R451). -/
def State.fabricWords (s : State) (b d : Nat) : Option (List Word) :=
  match s.goodSections b d with
  | none => none
  | some l => match sectionOf l 2 with
    | none => none
    | some x => if x.len = 8 then some (s.content b x) else none
/-- The links of the route from `a` to `e` that the FABRIC sections of an image give; none where it runs through a link the
die does not have, round a loop, or over more than three links (R452). -/
def State.imageRoute (s : State) (b e : Nat) : Nat → Nat → Option (List Nat)
  | 0, a => if a = e then some [] else none
  | fuel + 1, a =>
    if a = e then some []
    else match s.fabricWords b a with
      | none => none
      | some ws =>
        let l := (ws.getD e 0xFFFF).toNat
        match linkEnds[l]? with
        | none => none
        | some (x, y) =>
          if x = a then (s.imageRoute b e fuel y).map (l :: ·)
          else if y = a then (s.imageRoute b e fuel x).map (l :: ·)
          else none
/-- Does the FABRIC section of die `d` route to every die that the image has a slice for (R452)? -/
def State.fabricOk (s : State) (b d : Nat) : Bool :=
  match s.fabricWords b d with
  | none => false
  | some ws => ws.getD d 0 == 0xFFFF &&
      (List.range 8).all fun e => e == d || !(s.hasSlice b e) || (s.imageRoute b e 3 d).isSome

/-! ## The fallback map (R461) -/

/-- Reads `n` lists of entries, each a count word followed by its entries (log 33). -/
def fallbackLists : Nat → List Word → List (List (Word × Word × Word))
  | 0, _ => []
  | _ + 1, [] => []
  | n + 1, k :: t => (triples (t.take (3 * k.toNat))) :: fallbackLists n (t.drop (3 * k.toNat))
/-- The OUT list, or the BACK list, of die `d`: from the active image's FALLBACK section (R461, R469). -/
def State.fallback (s : State) (d : Nat) (out : Bool) : List (Word × Word × Word) :=
  let b := s.bankKey s.bank
  match s.goodSections b 0 with
  | none => []
  | some l => match sectionOf l 6 with
    | none => []
    | some x => ((fallbackLists 14 (s.content b x)).getD (2 * (d - 1) + (if out then 0 else 1)) []).take 1024

/-! ## Commands of the IMAGE block (R454, R468, R470) -/

/-- IMG_STAT.LSTATE. -/
def State.lstate (s : State) : Nat := field (s.reg Reg.IMG_STAT) 0 3
/-- Sets LSTATE. -/
def State.setLstate (s : State) (n : Nat) : State := s.modReg Reg.IMG_STAT fun w => putField w 0 3 n
/-- A command is refused: CMTREF. -/
def State.imgRefuse (s : State) : State := s.setBits Reg.IMG_STAT 0x0800
/-- An image is refused with the cause that STGERR holds (R454). -/
def State.imgReject (s : State) (err : Nat) : State :=
  ((s.modReg Reg.IMG_STAT fun w => putField w 4 4 err).setBits Reg.IMG_STAT 0x1000).bump Reg.IMG_AUTHFAIL
/-- The anti-rollback count rises to an accepted image's ARB, with ARBAUTO = 1 (R455). -/
def State.raiseArb (s : State) (arb : Nat) : State :=
  let s1 := if bit (s.reg Reg.IMG_CFG) 15 ∧ s.otpArb < arb then { s with otpArb := arb } else s
  s1.setReg Reg.IMG_ARB (word (arb * 256 + s1.otpArb))
/-- The identity registers of the active image. -/
def State.showActive (s : State) (b : Nat) : State :=
  (((((s.setReg Reg.IMG_IDL (s.iw b 4)).setReg Reg.IMG_IDH (s.iw b 5)).setReg Reg.IMG_VER0 (s.iw b 6)).setReg Reg.IMG_VER1
    (s.iw b 7)).setReg Reg.IMG_CMIN0 (s.iw b 8)).setReg Reg.IMG_CMIN1 (s.iw b 9)
/-- The identity registers of the staged image. -/
def State.showStaged (s : State) (b : Nat) : State :=
  (((((s.setReg Reg.IMG_STGIDL (s.iw b 4)).setReg Reg.IMG_STGIDH (s.iw b 5)).setReg Reg.IMG_STGVER0 (s.iw b 6)).setReg
    Reg.IMG_STGVER1 (s.iw b 7)).setReg Reg.IMG_STGCMIN0 (s.iw b 8)).setReg Reg.IMG_STGCMIN1 (s.iw b 9)

/-- IMG_CMD STAGE: the loader begins; the staged bank is no longer valid (R468). -/
def State.imgStage (s : State) : State :=
  if s.lstate ≠ 0 then s.imgRefuse else (s.modReg Reg.IMG_STAT fun w => putField (putField w 8 1 0) 4 4 0).setLstate 1
/-- Why the image at IMG_SRC may not be staged, as STGERR; 0 where it may (R453, R454, R457, R458). -/
def State.stageErr (s : State) : Nat :=
  let a := s.reg2 Reg.IMG_SRCL Reg.IMG_SRCM + 2 ^ 32 * field (s.reg Reg.IMG_SRCH) 0 6
  let n := ((s.reg Reg.IMG_LENL).toNat + 65536 * field (s.reg Reg.IMG_LENH) 0 1) * 2048
  let b := ddrKey a
  let act := s.bankKey s.bank
  if a % 2048 ≠ 0 ∨ n = 0 ∨ 65536 * 2048 < n then 1
  else if s.ddrCap < a + n ∨ s.ddrUe a n then 9
  else if s.headerErr b ≠ 0 then s.headerErr b
  else if s.bankWords < s.imgTotal b / 2 ∨ n < s.imgTotal b / 2 then 8
  else if s.iw2 b 4 ≠ s.iw2 act 4 then 5
  else if s.iver act 6 < s.iver b 8 then 6
  else if !(s.digestsOk b) then 7
  else 0
/-- STAGING_COMPLETE: the loader has checked the image and copied it to the inactive bank, or refuses it; with no stamp left on its route it
still waits (R457, R468). -/
def State.stagingComplete (s : State) : State :=
  if s.lstate ≠ 1 then s
  else
    let a := s.reg2 Reg.IMG_SRCL Reg.IMG_SRCM + 2 ^ 32 * field (s.reg Reg.IMG_SRCH) 0 6
    let e := s.stageErr
    let n := ((s.reg Reg.IMG_LENL).toNat + 65536 * field (s.reg Reg.IMG_LENH) 0 1) * 2048
    let copied := if e = 0 then (s.imgTotal (ddrKey a) / 2 + 31) / 32 else 0
    match s.loaderPays ((if e = 1 then 0 else n / 32) + copied) with
    | none => s.noteWait s.loaderRoute 1
    | some u =>
      let s1 := (if e = 1 then u else u.ddrDemand a n false).setLstate 0
      if e ≠ 0 then (if e = 9 then s1.bump Reg.IMG_RDERR else s1).imgReject e
      else
        let dst := s.bankKey (1 - s.bank)
        let s2 := (s1.copyWords (ddrKey a) dst (s.imgTotal (ddrKey a) / 2)).showStaged (ddrKey a)
        s2.setBits Reg.IMG_STAT 0x8100
/-- May the staged image be committed (R468)? -/
def State.commitOk (s : State) : Bool :=
  let act := s.bankKey s.bank
  let stg := s.bankKey (1 - s.bank)
  bit (s.reg Reg.IMG_STAT) 8 && s.sameSlice act stg 0 &&
    (List.range 8).all fun d => !(s.inService d) || bit (s.reg Reg.IMG_DIEBANK) d || s.sameSlice act stg d
/-- IMG_CMD COMMIT: the staged bank becomes the active one (R468). -/
def State.imgCommit (s : State) : State :=
  if s.lstate ≠ 0 ∨ !s.commitOk then s.imgRefuse
  else
    let stg := s.bankKey (1 - s.bank)
    let s1 := s.modReg Reg.IMG_STAT fun w => putField (putField w 9 1 (1 - s.bank)) 8 1 0
    (((s1.setReg Reg.IMG_DIEBANK 0).showActive stg).raiseArb (s.imgArb stg)).setBits Reg.IMG_STAT 0x4000
/-- IMG_CMD DISCARD: refused while any bit of IMG_DIEBANK is 1 (R468). -/
def State.imgDiscard (s : State) : State :=
  if s.lstate ≠ 0 ∨ s.reg Reg.IMG_DIEBANK ≠ 0 then s.imgRefuse else s.clrBits Reg.IMG_STAT 0x0100
/-- IMG_CTL.CLRCNT (R470). -/
def State.imgClrcnt (s : State) : State :=
  s.zeroRegs [Reg.IMG_AUTHFAIL, Reg.IMG_RPCNT, Reg.IMG_RPFAIL, Reg.IMG_RPDISC, Reg.IMG_FBSKIP, Reg.IMG_RDERR]

/-! ## Host boot (R456, R477) -/

/-- IMG_HLOAD.READY: the loader can take a piece: at J3, J4 and J6 of a host boot, before the final piece. -/
def State.loadReady (s : State) : Bool :=
  s.hostBoot && s.barOpen && !s.hostLoad.last &&
    (s.phase == .starting 3 || s.phase == .starting 4 || s.phase == .starting 6 || (s.phase == .bootHold && s.hostLoad.err))
/-- IMG_HLOAD as it reads. -/
def State.hloadWord (s : State) : Word := word (flag s.loadReady 15 + flag s.hostLoad.err 13)
/-- IMG_HLOAD_WRITE: the loader takes one piece of 1 to 64 units from the load window (R456, R470). -/
def State.hloadWrite (s : State) (v : Word) : State :=
  let n := field v 0 7
  if s.loadReady && decide (1 ≤ n) && decide (n ≤ 64) then
    { s.copyWords (bar2Key 0) (loadKey s.hostLoad.got) (2048 * n) with
      hostLoad := { got := s.hostLoad.got + 2048 * n, last := bit v 14, err := false } }
  else s
/-- BAR2_WRITE: while a host boot runs BAR2 is the load window; else it holds the pigeonholes (R418, R456). -/
def State.bar2Access (s : State) (w : Nat) (ws : List Word) : State :=
  if !s.barOpen then s
  else if s.hostBoot && s.phase != .awake then (if s.loadReady then s.pokes (bar2Key w) (ws.take (131072 - w)) else s)
  else s.bar2Write w (ws.take (131072 - w))

end Sys2Proof.Machine
end

