-- ==== Sys2Proof/Machine/Faults.lean ====
section
/-!
DEFINITION. Fault windows, the dead-letter office, the restart of a halted clerk, the code-store counters and the service
digest (spec 20), with the acceptance of a repair request, which a LASTING mark may make (R465, R489).
-/
namespace Sys2Proof.Machine

/-! ## A repair request (R465) -/

/-- IMG_RPSTAT.STEP. -/
def State.rpStep (s : State) : Nat := field (s.reg Reg.IMG_RPSTAT) 12 4
/-- IMG_RPSTAT.DIE. -/
def State.rpDie (s : State) : Nat := field (s.reg Reg.IMG_RPSTAT) 8 3
/-- Moves IMG_RPSTAT to a step. -/
def State.setRpStep (s : State) (k : Nat) : State := s.modReg Reg.IMG_RPSTAT fun w => putField w 12 4 k
/-- A request for the repair of die `d`, from RUN or DEGRADED; HUB cannot be repaired (R16, R18, R465). -/
def State.reqRepair (s : State) (d : Nat) : State :=
  if s.mayRequest && (s.mode == 4 || s.mode == 5) && d != 0 then
    let s1 := s.setReg Reg.IMG_RPSTAT (word (0x1800 + d * 256))
    let r : RepairRun := { fromMode := s.mode, at_ := s.now, staged := bit (s.reg Reg.IMG_RPCTL) 14,
                           wasOut := !(s.inService d), listed := false }
    { s1 with repair := some r }.changeMode 6
  else s.refuseMode

/-- A repair ends: IMG_RPSTAT with its result and cause, RPEV, the REPAIR record, and the mode (R465, R470, R492). -/
def State.endRepair (s : State) (result cause mode : Nat) : State :=
  let d := s.rpDie
  let w := word (d * 256 + result * 64 + cause)
  let s1 : State := { (s.setReg Reg.IMG_RPSTAT w).modDie d fun x => { x with draining := false } with repair := none }
  ((s1.setBits Reg.IMG_STAT 0x2000).logFault (0x6000 + d) w.toNat 0 0).changeMode mode
/-- Die `d` leaves service without OUT_EVER: what a repair that is aborted at K6 or K10 leaves (R467). -/
def State.abortOut (s : State) (d : Nat) : State :=
  let s1 := s.modReg Reg.DEVICE_DIES fun w => putField w d 1 0
  let s2 := if isSort d then s1.send (.recallDie d) else if d = 7 then s1.dispatchOut else s1
  if s.rpStep = 10 then { s2 with fbPend := s2.fbPend ++ [(d, true)] } else s2
/-- The mode a repair that leaves its die as it was returns to: the one it started from, but DEGRADED where a die is out
(R16, R17). -/
def State.repairBack (s : State) (r : RepairRun) : Nat := if field (s.reg Reg.DEVICE_DIES) 0 8 = 0xFF then r.fromMode else 5
/-- IMG_RPCTL.ABORT: before K6 no further step runs, the BACK list applies and the mode returns; from K6 on the die stays out
(R467). -/
def State.repairAbort (s : State) : State :=
  match s.repair with
  | none => s
  | some r =>
    let d := s.rpDie
    if s.rpStep < 6 then
      let s1 : State := { s with fbPend := s.fbPend ++ [(d, false)], moves := s.moves.filter fun m => bagDie m.1 != d }
      s1.endRepair 3 0 (s.repairBack r)
    else
      let s1 := if s.inService d then s.abortOut d else s
      (s1.modDie d fun x => { x with state := .out, ackPend := false, bePend := false }).endRepair 3 6 5

/-! ## Fault windows (R488, R489) -/

/-- The die that holds a resource whose LASTING mark may request a repair. -/
def faultDie (cls idx : Nat) : Nat :=
  match cls with
  | 1 => 3 + idx / 32
  | 2 => idx
  | _ => 1 + idx / 20
/-- Words 1 to 3 of the LASTING record (R488). -/
def State.faultIndex (s : State) (cls idx : Nat) : Nat × Nat × Nat :=
  if cls = 0 then
    match s.ddrRows.find? idx with
    | some r => (idx / 64, r.log0.toNat, r.row % 65536)
    | none => (idx / 64, 0, 0)
  else (idx, 0, 0)
/-- What a LASTING mark does to its resource (R488). -/
def State.faultAct (s : State) (cls idx : Nat) : State :=
  match cls with
  | 0 => if bit (s.reg Reg.DDR_PPRCFG) 15 then s.send (.ppr idx) else s
  | 1 => s.poisonBank (3 + idx / 32) (idx % 32)
  | 2 => s
  | 3 => s.setLinkState idx .fault
  | 4 => s.connectionFault (idx / 20) (idx % 20)
  | _ => s.nodeLeaves (idx / 64) (idx % 64) .fault
/-- A resource is marked LASTING (R489). -/
def State.markLasting (s : State) (cls idx : Nat) : State :=
  let w := s.faultIndex cls idx
  let s1 := ((s.bump (Reg.FW_LAST cls)).logFault (0x1000 + cls * 256) w.1 w.2.1 w.2.2).setBits Reg.ERR_STAT 0x8000
  let s2 := (s1.raiseGlobal 0x7B).faultAct cls idx
  if bit (s.reg (Reg.FW_CFG cls)) 15 && (cls == 1 || cls == 2 || cls == 4) then s2.reqRepair (faultDie cls idx) else s2
/-- The counting law of a fault window (R488). -/
def State.countFault (s : State) (cls idx : Nat) : State :=
  let key := 65536 * cls + idx
  let w := s.faultWins.getD key FaultWin.reset
  let fresh := w.count = 0 ∨ w.start + max 1 (s.reg (Reg.FW_WIN cls)).toNat * 200000 ≤ s.now
  let w1 : FaultWin := if fresh then { w with start := s.now, count := 1 } else { w with count := w.count + 1 }
  let mark := decide (max 1 (field (s.reg (Reg.FW_CFG cls)) 0 8) ≤ w1.count) && !w.lasting
  let s1 : State := { s with faultWins := s.faultWins.set key { w1 with lasting := w.lasting || mark } }
  if mark then s1.markLasting cls idx else s1
/-- FAULT_WINDOW_EVENT: the oldest event on its way counts in its resource's window. -/
def State.faultWindowEvent (s : State) : State :=
  s.take (fun m => match m with | .fwEvent _ _ => true | _ => false) fun m u =>
    match m with
    | .fwEvent cls idx => u.countFault cls idx
    | _ => u

/-! ## The dead-letter office (R490, R491) -/

/-- Counter of a cause code (R490). -/
def dloIndex (cause : Nat) : Nat :=
  if cause = 0 then 0 else [0, 1, 2, 2, 3, 4, 5, 6, 7, 8, 9, 10, 11, 12, 13, 14, 15].getD (cause - 1) 15
/-- DEAD_LETTER_REPORT: the oldest report reaches the office, which counts it and captures the first 8. -/
def State.deadLetterReport (s : State) : State :=
  s.take (fun m => match m with | .dead _ _ _ => true | _ => false) fun m u =>
    match m with
    | .dead cause d w =>
      let u1 := (u.bump (Reg.DLO_CNT (dloIndex cause))).setBits Reg.ERR_STAT 0x4000
      if u1.deadCaps.length < 8 then { u1 with deadCaps := u1.deadCaps ++ [word (cause * 256 + d * 32) :: w] } else u1
    | _ => u
/-- ERR_CTL.CLRCNT. -/
def State.errClrcnt (s : State) : State :=
  s.zeroRegs (((List.range 16).map Reg.DLO_CNT) ++ ((List.range 6).map Reg.FW_LAST))
/-- ERR_CTL.CLRCAP. -/
def State.errClrcap (s : State) : State := { s with deadCaps := [] }
/-- ERR_CTL.CLRLAST: LASTING ends on classes 1 and 2, with its count (R488, R498). -/
def State.errClrlast (s : State) : State :=
  { s with faultWins := s.faultWins.map fun e =>
      if (e.1 / 65536 = 1 ∨ e.1 / 65536 = 2) ∧ e.2.lasting then (e.1, FaultWin.reset) else e }

/-- ERR_RESTART: a halted clerk that debug does not hold undoes the epochs recalled at its halt, records the oldest in EP_LASTRC and
counts them (items 3, 4 and 7 of R189, R195), and takes the state of R90 with its private store and slot generations kept (R496). -/
def State.errRestart (s : State) (v : Word) : State :=
  let c := if bit v 7 then 128 + field v 0 1 else field v 0 7
  let k := s.clerk c
  if !(bit v 15) || !k.halted || k.dbgHalt || (bit v 7 && decide (1 < field v 0 7)) then s
  else
    let tags := ((List.range 4).filter k.slotOpen).map fun i => k.slotTag c i
    let e := match k.old with
      | some i => k.slotTag c i
      | none => 0
    let cause := match k.deferred with
      | some d => if d.tag = e then d.cause else 9
      | none => 9
    let s0 := (s.undoEpochs c tags).sweepRecalled tags
    let s1 := if tags.isEmpty then s0
      else (s0.bumpBy (Reg.EP_RECALLCNT c) tags.length).setReg (Reg.EP_LASTRC c) (lastRc e cause false)
    let k1 := s1.clerk c
    let keep := fun (i : Nat) => { EpSlot.reset with gen := (k1.slot i).gen }
    let slots : Vector EpSlot 4 := #v[keep 0, keep 1, keep 2, keep 3]
    (s1.setClerk c { Clerk.reset with slots := slots, epSeq := k1.epSeq, parked := k1.parked,
                                      pred := { Predictor.reset with keys := k1.pred.keys } }).freeRows c

/-- CST_CTL.CLRCNT of a clerk's die (R493). -/
def State.cstClrcnt (s : State) (d : Nat) : State := s.zeroRegs [Reg.CST_CE d, Reg.CST_UE d, Reg.CST_LCPAR d]
/-- An uncorrectable code line of a sorting die is read (R328, R493): `l` is its line in the code store. -/
def State.codeLineBad (s : State) (d l : Nat) : State :=
  if !(isSort d) then s
  else ((((s.bump (Reg.CST_UE d)).setReg (Reg.CST_LINEL d) (wordOf l 0)).setReg (Reg.CST_LINEH d) (wordOf l 1)).setBits
    (Reg.CST_STAT d) 0x4000).raiseLocal d 0x62 1

/-- Word of ERR_HALTED: bit k is clerk 16j + k (R498). -/
def State.errHalted (s : State) (j : Nat) : Word :=
  word ((List.range 16).foldl (fun n i => n + flag (s.clerk (16 * j + i)).halted i) 0)
/-- A word of a captured dead letter. -/
def State.dloCap (s : State) (i w : Nat) : Word := (s.deadCaps.getD i []).getD w 0
/-- A word of the fault log record with an index (R492). -/
def State.logWord (s : State) (i w : Nat) : Word := (s.faultLog.getD i []).getD w 0

/-! ## The service digest (R494) -/

/-- Word 3: the mode. -/
def State.digestMode (s : State) : Nat :=
  match s.phase with
  | .isSealed => 1
  | .dormant => 2
  | .bootHold => 8
  | .starting _ => 9
  | .off => 0
  | _ => s.mode
/-- The `i`-th newest fault log record. -/
def State.newestLog (s : State) (i : Nat) : List Word :=
  s.faultLog.getD ((s.logCount + 63 - i) % 64) []
/-- The latest START record held in the log, as six words. -/
def State.latestStart (s : State) : List Word :=
  ((List.range 64).findSome? fun i =>
    let r := s.newestLog i
    if field (r.getD 0 0) 12 4 = 5 then some r else none).getD []
/-- What the AON domain itself knows: words 16 to 29 (R494). -/
def State.digestAon (s : State) : List Word :=
  ((List.range 4).map fun i => s.reg (Reg.WAKE_RECORD i)) ++ ((List.range 4).map fun i => s.reg (Reg.ENTRY_RECORD i)) ++
    ((List.range 3).map fun i => wordOf s.aonTime i) ++ [s.reg Reg.AON_SLEEPCNT, s.reg Reg.AON_WAKECNT, word s.logCount]
/-- `n` words of a list, padded with 0000h. -/
def padTo (n : Nat) (l : List Word) : List Word := (List.range n).map fun i => l.getD i 0
/-- The 128 words of the digest with generation `gen`. -/
def State.digestWords (s : State) (gen : Word) : List Word :=
  let r := s.reg
  [gen, r Reg.DEVICE_ID, r Reg.DEVICE_REV, word (s.digestMode * 4096 + field (r Reg.DEVICE_DIES) 0 8),
    word (field (r Reg.DEVICE_DIES) 8 8), r Reg.IMG_IDL, r Reg.IMG_IDH, r Reg.IMG_VER0, r Reg.IMG_VER1, r Reg.IMG_ARB] ++
  padTo 6 s.latestStart ++ s.digestAon ++ [0, 0] ++ ((List.range 16).map fun i => r (Reg.DLO_CNT i)) ++
  ((List.range 6).map fun i => r (Reg.FW_LAST i)) ++
  [r Reg.AON_SYNCTL, r Reg.AON_SYNCTM, r Reg.AON_SYNCTH, r Reg.AON_SYNCAXL, r Reg.AON_SYNCAXH, 0, 0, 0, 0, 0] ++
  ((List.range 8).map fun i => padTo 6 (s.newestLog i)).flatten ++
  [s.feStat, r Reg.FE_SAFECNT, r Reg.OB_STALE, r Reg.OB_LATE, r Reg.CS_PVCNT, r Reg.CS_REJECTED, r Reg.IMG_AUTHFAIL,
    r Reg.IMG_RPFAIL] ++ ((List.range 4).map fun i => r (Reg.PWR_PL i)) ++ [r Reg.PWR_STAT, 0, 0, 0]
/-- HUB writes the digest whole; its generation rises. -/
def State.digestNow (s : State) : State :=
  { s with digest := s.digestWords (s.digest.getD 0 0 + 1), digestMs := s.now / 200000 }
/-- The AON domain updates words 0 and 16 to 29 while the device sleeps. -/
def State.digestAsleep (s : State) : State :=
  if s.digestAon = (s.digest.drop 16).take 14 then s
  else { s with digest := (s.digest.getD 0 0 + 1) :: ((s.digest.take 16).drop 1 ++ s.digestAon ++ s.digest.drop 30) }
/-- DIGEST_UPDATE: once in each millisecond of REF time while awake; as the AON records change while asleep (R494). -/
def State.digestUpdate (s : State) : State :=
  match s.phase with
  | .off => s
  | .dormant => s.digestAsleep
  | .isSealed => s.digestAsleep
  | .bootHold => s.digestNow
  | _ => if s.digestMs = s.now / 200000 then s else s.digestNow
/-- SMBUS_DIGEST: the responder latches the page at the command byte and returns its 16 words (R494). -/
def State.smbusDigest (s : State) (k : Nat) : State :=
  if s.vaon then { s with smbReply := (s.digest.drop (16 * k)).take 16 } else s
/-- SMBUS_BUS_TIMEOUT: while awake, the responder drops the transaction (R530). -/
def State.smbTimeout (s : State) : State := if s.phase = .awake then { s with smbReply := [] } else s
/-- ERR_DIGDATA: the selected word; the reader's own selection advances modulo 128 (R498). -/
def State.digData (s : State) (who : Nat) : Word × State :=
  let key := ownKey who Reg.ERR_DIGSEL
  let i := field (s.sels.getD key 0) 0 7
  (s.digest.getD i 0, { s with sels := s.sels.set key (word ((i + 1) % 128)) })

end Sys2Proof.Machine
end

