-- ==== Sys2Proof/Machine/Csign.lean ====
section
/-!
DEFINITION. The countersign envelope up to its judgement, and the rounds of postage (spec 17, R435 to R446).
-/
namespace Sys2Proof.Machine

/-! ## The envelope (R435 to R437, R441) -/

/-- Code of a party in CS_STAT.AUTHOR (R447). -/
def partyCode (who : Nat) : Nat := if who = 130 then 1 else if who = 128 then 2 else 3
/-- Code of a state in CS_STAT.STATE (R435). -/
def EnvState.code : EnvState → Nat
  | .idle => 0
  | .staging => 1
  | .sealedFor => 2
  | .applying => 3
/-- CS_STAT as it reads: the author while there is an envelope, and the state. -/
def State.csStat (s : State) : Word :=
  let e := s.envelope
  (s.reg Reg.CS_STAT &&& 0xF000) ||| word ((if e.state = .idle then 0 else partyCode e.author) * 32 + e.state.code)
/-- CS_TIMELEFT: whole milliseconds left in the window; 0 in IDLE (R447). -/
def State.csTimeLeft (s : State) : Word :=
  let e := s.envelope
  if e.state = .idle then 0 else word ((e.start + e.window * 200000 - s.now) / 200000)
/-- A word of the entry that a requester's CS_EIDX names; 0000h beyond CS_ECOUNT (R447). -/
def State.csEget (s : State) (who k : Nat) : Word :=
  match s.envelope.entries[field (s.sels.getD (ownKey who Reg.CS_EIDX) 0) 0 6]? with
  | none => 0
  | some e => if k = 0 then e.sel else if k = 1 then e.port else e.data

/-- The nonce of the present or last envelope. -/
def State.csNonce (s : State) : Nat := s.reg2 Reg.CS_NONCEL Reg.CS_NONCEH
/-- The first of the numbers from `n` that is not in the list; a list of at most 16 is passed by 17 tries. -/
def freshFrom (used : List Nat) : Nat → Nat → Nat
  | 0, n => n
  | f + 1, n => if used.contains n then freshFrom used f ((n + 1) % 2 ^ 32) else n
/-- OPEN: the author, an empty envelope, a nonce unlike the 16 used before, and the window (R435, R441). -/
def State.csOpen (s : State) (who : Nat) : State :=
  let e := s.envelope
  if e.state = .idle then
    let n := freshFrom e.used 16 (Config.nonce e.draws).toNat
    let e1 : Envelope := { e with
      state := .staging, author := who, entries := [], code := 0, start := s.now,
      window := max 1 (s.reg Reg.CS_WINDOW).toNat, draws := e.draws + 1 }
    { s.setReg2 Reg.CS_NONCEL Reg.CS_NONCEH n with envelope := e1 }
  else s.bump Reg.CS_BUSYCNT
/-- The envelope ends with an outcome: CS_RESULT, its nonce among those used, DONEEV, IDLE (R435, R440, R447). -/
def State.csEnd (s : State) (result : Nat) : State :=
  let e := s.envelope
  let e1 : Envelope := { e with state := .idle, used := (s.csNonce :: e.used).take 16 }
  let s1 : State := { s.setReg Reg.CS_RESULT (word result) with envelope := e1 }
  s1.setBitsEv Reg.CS_STAT 0x4000 0x7C
/-- An author's command: any other party's is ignored and counted while there is an envelope (R435). -/
def State.csAuthor (s : State) (who : Nat) (f : State → State) : State :=
  if s.envelope.state = .idle then s else if s.envelope.author = who then f s else s.bump Reg.CS_SAMEPARTY
/-- A write of CS_EPUT2 appends the entry staged by its writer; a 65th is ignored and counted (R4, R436). -/
def State.csPut (s : State) (who : Nat) (v : Word) : State :=
  let e : EnvEntry := { sel := s.staged who (Reg.CS_EPUT 0) 0, port := s.staged who (Reg.CS_EPUT 1) 0, data := v }
  (s.clearStage who (Reg.CS_EPUT 0) 3).csAuthor who fun t =>
    if t.envelope.state = .staging then
      (if t.envelope.entries.length < 64 then
        { t with envelope := { t.envelope with entries := t.envelope.entries ++ [e] } }
      else t.bump Reg.CS_REFUSED)
    else t
/-- One byte into the reflected CRC-32 of polynomial 04C1_1DB7h (R437). -/
def crc32Byte (r x : Nat) : Nat :=
  (List.range 8).foldl (fun q _ => if q % 2 = 1 then q / 2 ^^^ 0xEDB88320 else q / 2) (r ^^^ x)
/-- CRC-32 over words, each low byte first (R437). -/
def crc32 (ws : List Word) : Nat :=
  (ws.foldl (fun r w => crc32Byte (crc32Byte r (w.toNat % 256)) (w.toNat / 256)) 0xFFFFFFFF) ^^^ 0xFFFFFFFF
/-- The words that the seal covers: the nonce, the number of entries, the entries (R437). -/
def State.sealWords (s : State) : List Word :=
  let es := s.envelope.entries
  [s.reg Reg.CS_NONCEL, s.reg Reg.CS_NONCEH, word es.length] ++ (es.map fun e => [e.sel, e.port, e.data]).flatten
/-- SEAL by the author (R435, R437). -/
def State.csSeal (s : State) (who : Nat) : State :=
  s.csAuthor who fun t =>
    if t.envelope.state = .staging then
      ({ t with envelope := { t.envelope with state := .sealedFor, code := crc32 t.sealWords } }).setBitsEv Reg.CS_STAT 0x8000 0x7C
    else t
/-- An envelope in STAGING or SEALED is aborted (R441). -/
def State.csAborted (s : State) : State :=
  if s.envelope.state = .staging ∨ s.envelope.state = .sealedFor then (s.bump Reg.CS_ABORTED).csEnd 0x5000 else s
/-- ABORT by the author (R441). -/
def State.csAbort (s : State) (who : Nat) : State := s.csAuthor who State.csAborted
/-- PERST_N low aborts an envelope of the host's (R441). -/
def State.csPerst (s : State) : State := if s.envelope.author = hostId then s.csAborted else s
/-- CS_WINDOW_EXPIRY: the window of an envelope in STAGING or SEALED has ended (R441). -/
def State.csExpiry (s : State) : State :=
  let e := s.envelope
  if (e.state = .staging ∨ e.state = .sealedFor) ∧ e.start + e.window * 200000 ≤ s.now then
    (s.bump Reg.CS_EXPIRED).csEnd 0x4000
  else s
/-- A rejected countersign (R438). -/
def State.csReject (s : State) (k : Nat) : State := (s.bump k).setBitsEv Reg.CS_STAT 0x2000 0x7C
/-- CS_CTL.CLRCNT (R447). -/
def State.csClrcnt (s : State) : State := s.zeroRegs ((List.range 12).map fun i => Reg.CS_APPLIED + i)

/-! ## Rounds of postage (R443 to R446, R448) -/

/-- RT_CFG.AXIS of a route. -/
def State.rtAxis (s : State) (rt : Nat) : Nat := field (s.reg (routeKey rt 3)) 8 4
/-- Round length of a route in counts. -/
def State.rtLen (s : State) (rt : Nat) : Nat := max 1 (s.reg2 (routeKey rt 4) (routeKey rt 5))
/-- Integer position by which die `d`'s meters see axis `n`: AX15 by its own reference count, a line axis by its replica, or by
the master on DISPATCH itself (R443). -/
def State.axisInt (s : State) (d n : Nat) : Nat :=
  if n = 15 then s.refUs % 2 ^ 32 else if d = 7 then posInt (s.axPos n) else posInt (s.replica d n).pos
/-- Does an axis give boundaries at die `d`: not in STOPPED, LOST or OFF, as the die sees it, nor while its replica is STALE
(R45, R443)? -/
def State.givesRounds (s : State) (d n : Nat) : Bool :=
  if n = 15 then true
  else if d = 7 then s.axRounds n
  else !(isIntake d) && !(s.replica d n).stale && ((s.replica d n).state == 1 || (s.replica d n).state == 2)
/-- The integer position where the axis gives boundaries. -/
def State.meterInt (s : State) (d n : Nat) : Option Nat := if s.givesRounds d n then some (s.axisInt d n) else none
/-- A route's round `r` has begun at a meter: where no other meter has seen it, no item has waited in it yet. Place 8 of the meters
keeps the highest round that any has seen (R445). -/
def State.newRound (s : State) (rt cls r l : Nat) : State :=
  let m := s.meter 8 rt cls
  if roundBoundary r m.rndMax l then s.setMeter 8 rt cls { m with rndMax := r, waited := false } else s
/-- POSTAGE_ROUND_BOUNDARY: the axis of the route has reached a new round at the meter of die `d`, and its used count
returns to 0 (R44, R443). -/
def State.postageRound (s : State) (d rt : Nat) (cls : Nat) : State :=
  let m := s.meter d rt cls
  match s.meterInt d (s.rtAxis rt) with
  | none => s
  | some i =>
    let l := s.rtLen rt
    let r := roundIdx i l
    if roundBoundary r m.rndMax l then
      (s.setMeter d rt cls { m with used := 0, rndMax := r }).newRound rt cls r l
    else s
/-- A route's round begins afresh at the meters of die `d`: the index at that moment counts as seen (R44). -/
def State.startRound (s : State) (rt d : Nat) : State :=
  [0, 1].foldl (fun u cls =>
    u.setMeter d rt cls { used := 0, rndMax := roundIdx (u.axisInt d (u.rtAxis rt)) (u.rtLen rt), waited := false }) s
/-- A change of RT_CFG.AXIS or RT_RND starts a new round at every meter (R445). -/
def State.restartRounds (s : State) (rt : Nat) : State :=
  let s1 := [0, 1, 2, 3, 4, 5, 6, 7].foldl (fun t d => t.startRound rt d) s
  [0, 1].foldl (fun u cls => u.setMeter 8 rt cls { u.meter 7 rt cls with waited := false }) s1
/-- The meters of a die that has been configured are set up (R44). -/
def State.setUpMeters (s : State) (d : Nat) : State :=
  ((List.range 256).filter fun rt => bit (s.reg (routeKey rt 3)) 15).foldl (fun t rt => t.startRound rt d) s
/-- PST_CTL.CLRCNT (R448). -/
def State.pstClrcnt (s : State) : State :=
  { s with regs := s.regs.drop fun k => decide (0x300000 ≤ k) && decide (k < 0x301000) && decide (8 ≤ k % 16) && decide (k % 16 ≤ 11) }

end Sys2Proof.Machine
end

