-- ==== Sys2Proof/Machine/Sleep.lean ====
section
/-!
DEFINITION. Sleep entry: the request, its steps D1 to D7, their refusals, aborts and undo (spec 14, R368 to R376).
-/
namespace Sys2Proof.Machine

/-! ## Refusals (R372) -/

/-- The first refuser of D1: its kind and index. -/
def State.refuserD1 (s : State) (target : Nat) : Option (Nat × Nat) :=
  let clerk := ((List.range 130).find? fun c => (List.range 4).any (s.clerk c).slotOpen).map fun c => (1, clerkRecord c)
  let bank := if target = 1 then
      ((List.range 128).find? fun b => bit (s.reg (Reg.SS_RETSEL (3 + b / 32) (b % 32 / 16))) (b % 16)).map fun b => (0xA, b)
    else none
  let cam := ((List.range 32).find? fun j => s.camEn (j / 16) (j % 16)).map fun j => (6, j)
  clerk.or (bank.or cam)
/-- Is the clerk in WAIT or HALTED, or its group or die off (D1)? -/
def State.parkedForSleep (s : State) (c : Nat) : Bool :=
  (s.clerk c).halted || s.inWait c || !s.domOn (clerkDom c) || !s.dieRuns (clerkDie c)
/-- The first clerk that is neither in WAIT nor HALTED. -/
def State.unparked (s : State) : Option (Nat × Nat) :=
  ((List.range 130).find? fun c => !s.parkedForSleep c).map fun c => (1, clerkRecord c)
/-- Blocks that a mailbag's register sheets take (R219). -/
def Bag.saveBlocks (b : Bag) : Nat := (b.head.length + b.tail.length + 2) / 3
/-- The first refuser of D2. Its mailbags refuse only where their contents are to be kept (R219). -/
def State.refuserD2 (s : State) (target : Nat) : Option (Nat × Nat) :=
  let hole := ((List.range 64).find? fun p => (s.hole p).state == .busy || (s.hole p).state == .releasing).map fun p => (5, p)
  let zp := ((List.range 8).find? fun p => (s.zport p).flight.isSome).map fun p => (4, p)
  let ob := if s.outbox.count + s.outbox.spCount = 0 then none else some (7, 0)
  let full := if target = 2 then
      ((s.bags.filter fun e => decide (s.spLen e.1 < e.2.spill.length + e.2.saveBlocks)).head?).map fun e => (3, e.1)
    else none
  hole.or (zp.or (ob.or full))
/-- The clerk groups, CODE, SHARED, PM, CXP, FRANK and ZEGEN domains that D4 drops (R371). -/
def sleepDomains : List Nat :=
  ((List.range 44).filter fun n => decide (n % 11 < 10)) ++ [44, 45, 46, 47, 48, 49, 53, 55]
/-- The first refuser of D4: a group that a source, a parcel or a mailbag calls for. -/
def State.refuserD4 (s : State) : Option (Nat × Nat) :=
  (sleepDomains.find? fun n => (domClerks n).any s.groupCalled).map fun n => (2, n)
/-- The first populated channel that does not confirm self-refresh (D6). -/
def State.refuserD6 (s : State) (refused : List Nat) : Option (Nat × Nat) :=
  ((List.range 4).find? fun ch => refused.contains ch && (s.ddrState ch == 2 || s.ddrState ch == 3)).map fun ch => (8, ch)

/-! ## Saving the mailbags (R219) -/

/-- Saves up to three register sheets of a mailbag as one block behind its spill, when its route has a stamp. -/
def State.saveBlock (s : State) (n : Nat) : State :=
  let b := s.bag n
  let is := (b.head ++ b.tail).take 3
  if is.isEmpty then s
  else s.spillStamp n fun u =>
    let old := u.savedBags.getD n (0, 0)
    let h := min 3 b.head.length
    let u1 := (u.setBag n { b with head := b.head.drop 3, tail := b.tail.drop (3 - h) }).writeBlock n is
    { u1 with savedBags := u1.savedBags.set n (old.1 + h, old.2 + 1) }
/-- Saves what postage lets every mailbag save; at most 6 blocks hold the 16 register sheets of one. -/
def State.saveBags (s : State) : State :=
  s.bags.foldl (fun t e => (List.range 6).foldl (fun u _ => u.saveBlock e.1) t) s
/-- Are parcels still in flight, which D2 delivers before it saves (R371)? -/
def State.d2Waits (s : State) : Bool :=
  (s.msgs.any fun m => match m.route with
    | some (a, b) => a != b
    | none => false) ||
    (s.msgs.any fun m => match m with
      | .push _ _ _ => true
      | .entry _ _ => true
      | _ => false) || !s.outbox.pushes.isEmpty || s.arrivals.any fun e => !e.2.isEmpty
/-- Are all register sheets saved? -/
def State.bagsSaved (s : State) : Bool := s.bags.all fun e => e.2.head.isEmpty && e.2.tail.isEmpty
/-- Reads a mailbag's saved sheets back into its registers in order, ahead of what has not been saved; a block that fails its checks
counts in the fault window of the die's store (R211, R219). -/
def State.restoreBag (s : State) (n heads blocks : Nat) : State :=
  let b := s.bag n
  let keep := b.spill.length - blocks
  let saved := b.spill.drop keep
  let items := (saved.map fun blk => s.savedItems n blk).flatten
  let ok := fun (l : List (SpillMark × BagItem × Bool)) => l.filterMap fun p => if p.2.2 then some p.2.1 else none
  let s1 := s.setBag n { b with
    spill := b.spill.take keep, nextBlock := b.nextBlock - blocks, head := ok (items.take heads) ++ b.head,
    tail := ok (items.drop heads) ++ b.tail }
  let s2 := items.foldl (fun t p => if p.2.2 then t else t.dropEcc n p.2.1) s1
  saved.foldl (fun t blk =>
    let u := t.ddrDemand (s.blockAddr n blk.idx) 32 false
    if s.blockGood n blk then u else u.faultEvent 2 (bagDie n)) s2
/-- Every mailbag reads its saved sheets back (the undo of D2; W6). -/
def State.restoreBags (s : State) : State :=
  { s.savedBags.foldl (fun t e => t.restoreBag e.1 e.2.1 e.2.2) s with savedBags := [] }

/-! ## The end of an entry (R373 to R376) -/

/-- ENTRY_RECORD and EREV (R376, R388). -/
def State.entryRecord (s : State) (r : SleepRun) (result point cause kind index : Nat) : State :=
  (((((s.setReg (Reg.ENTRY_RECORD 0) (word (result * 16384 + r.target * 4096 + point * 512 + r.step * 64 + cause))).setReg
    (Reg.ENTRY_RECORD 1) (word (kind * 4096 + index))).setReg (Reg.ENTRY_RECORD 2) (wordOf r.time 0)).setReg
    (Reg.ENTRY_RECORD 3) (wordOf r.time 1))).setBits Reg.AON_STAT 0x4000
/-- Record of an entry that something stopped: a wake carries its source code as index, a refusal its refuser's. -/
def State.stopRecord (s : State) (r : SleepRun) (result point : Nat) (stop : Bool × Nat × Nat) : State :=
  if stop.1 then s.entryRecord r result point 2 9 (stop.2.2 % 16)
  else s.entryRecord r result point 1 stop.2.1 stop.2.2
/-- The undo of D1: the wake sources are disarmed, TRANS clears with the starting mode kept, MODE is raised (R373). -/
def State.sleepCancelled (s : State) : State :=
  (({ s with sleep := none, encWake := [] }).modReg Reg.DEVICE_MODE fun w => putField w 4 1 0).modeEvent
/-- An entry that ends at D1 (R373, R376). -/
def State.endAtD1 (s : State) (r : SleepRun) (stop : Bool × Nat × Nat) : State :=
  ((s.stopRecord r 2 0 stop).bump Reg.AON_REFUSECNT).sleepCancelled
/-- The domains that D4 dropped return; a group or PM domain only if something keeps it on (R373). -/
def State.undoDomains (s : State) (ds : List Nat) : State :=
  ds.foldl (fun t n => if (domClerks n).isEmpty || t.kept n then t.domReturn n else t) s
/-- At the end of the pause an entry that fell due in it counts as late as if it had entered its list now (R374). -/
def State.endPause (s : State) : State :=
  let mark := fun (x : ObEntry) =>
    let l := lateness (s.entryPos x.e (s.axPos (markAxis x.e.l0))) (entryMark x.e) (markBack x.e.l0)
    { x with late := decide (l < 2 ^ 47) && decide (65536 < l) }
  { s with outbox := { s.outbox with lists := s.outbox.lists.map fun e => (e.1, e.2.map mark) } }
/-- An abort at the point that ends step `r.step`: every step is undone in reverse order (R373). -/
def State.abortEntry (s : State) (r : SleepRun) (stop : Bool × Nat × Nat) : State :=
  let k := r.step
  let s1 := (s.stopRecord r 3 (k - 1) stop).bump Reg.AON_ABORTCNT
  let s2 := if 6 ≤ k then (s1.selfRefreshExit 0).selfRefreshExit 1 else s1
  let s3 : State := if 5 ≤ k then { s2 with padHold := 0, heldFire := [], heldGpio := [] } else s2
  let s4 := if 4 ≤ k then s3.undoDomains r.dropped else s3
  let s5 : State := if 3 ≤ k then { s4 with bankSigs := [] } else s4
  (s5.restoreBags.endPause).sleepCancelled

/-! ## The steps (R371) -/

/-- Moves the entry to a step. -/
def State.sleepAt (s : State) (r : SleepRun) (k : Nat) : State := { s with sleep := some { r with step := k } }
/-- D3: signatures of the banks that SS_RETSEL selects (R377, R378). -/
def State.takeSignatures (s : State) : State :=
  let sel := (List.range 128).filter fun b => bit (s.reg (Reg.SS_RETSEL (3 + b / 32) (b % 32 / 16))) (b % 16)
  { s with bankSigs := sel.foldl (fun t b => t.set b (s.bankSig (3 + b / 32) (b % 32))) [] }
/-- D4: the domains that are on drop, keeping their retention. -/
def State.dropForSleep (s : State) (r : SleepRun) : State :=
  let on := sleepDomains.filter s.domOn
  let s1 := on.foldl (fun t n =>
    (domClerks n).foldl (fun u c => u.modClerk c fun k => { k with parked := true })
      ((t.domCrossings n State.crossingReset).setDom n false)) s
  { s1 with sleep := some { r with dropped := on }, holdOff := [], lineCaches := [] }
/-- D5: firing pads at their safe levels, and every held pad's state latched (R294, R381). -/
def State.latchPads (s : State) : State :=
  let safe := fun (n : Nat) => if s.padEn (0x100 + n) then
      (match field (s.reg (Reg.CH_CFG n)) 9 2 with
        | 0 => some false
        | 1 => some true
        | _ => none)
    else none
  let fire := (List.range 64).foldl (fun (t : Tbl (Option Bool)) n => t.set n (safe n)) []
  let gpio := (List.range 32).foldl (fun (t : Tbl (Option Bool)) i => t.set i (s.gpioPad i)) []
  let zl := BitVec.ofNat 8 ((List.range 8).foldl (fun n p => n + flag (s.zlDe p) p) 0)
  { s with padHold := 7, heldFire := fire, heldGpio := gpio, heldZl := zl }
/-- D6: every populated channel that confirms enters self-refresh (R407). -/
def State.refreshSelf (s : State) (refused : List Nat) : State :=
  (List.range 4).foldl (fun t ch => if t.ddrState ch = 2 ∧ !(refused.contains ch) then t.setDdr ch 3 else t) s

/-- The registers that hold their values through D7: the AON and IMAGE blocks, AX_BEPOCH, which a wake raises by 1 (R370),
and for DORMANT what training found: the population, its capacity, and the channels' speed and state (R407). -/
def keptAsleep (target k : Nat) : Bool :=
  k == Reg.AX_BEPOCH ||
  (decide (0x4200 ≤ k) && decide (k < 0x4300)) || (decide (0x4700 ≤ k) && decide (k < 0x4800)) ||
    (target == 2 && (k == Reg.DDR_CAPL || k == Reg.DDR_CAPH || k == Reg.DDR_CFG ||
      (List.range 4).any fun c => k == Reg.DDR_CHSTAT c || k == Reg.DDR_CHSPEED c))
/-- The memory that a sleep mode keeps: DDR5 and the selected banks for DORMANT, the AON SRAM, the non-volatile code stores,
and what lies outside (R355, R368). -/
def State.keptMem (s : State) (target k : Nat) : Bool :=
  if decide (ddrKey 0 ≤ k) && decide (k < aonKey 0) then target == 2
  else if decide (sharedKey 0 0 ≤ k) && decide (k < codeKey 0 0) then
    target == 2 && (s.bankSigs.find? (32 * ((k - sharedKey 0 0) / 0x1000000 - 3) + (k - sharedKey 0 0) % 0x1000000 / 65536)).isSome
  else decide (codeKey 0 0 ≤ k) && decide (k < ddrKey 0) || decide (aonKey 0 ≤ k) && decide (k < corrKey 0 0) ||
    decide (flashKey 0 ≤ k) && decide (k < loadKey 0) || decide (hostKey 0 ≤ k)
/-- What the cores lose when they are isolated (R368): clerks, units and registers; for SEALED the mailbags as well. -/
def State.coresOff (s : State) (target : Nat) : State :=
  let s0 := s.loseRegs fun k => !(keptAsleep target k)
  let s1 := (List.range 4).foldl (fun t c => t.clrBits (Reg.DDR_CHSTAT c) 0xFF80) s0
  { s1 with
    snaps := [], stage := [], sels := [], mem := s1.mem.filter (fun e => s.keptMem target e.1), msgs := [], clerks := [],
    lineCaches := [], axes := [], replicas := [], epochs := [], bags := if target = 2 then s1.bags else [], arrivals := [], icu := [],
    modeAt := none, fbPend := [], bcLast := none, bePause := none, cams := [], ccChans := [], rgGap := [], links := [], routers := [],
    dies := [], crossings := [], routes := [], faultWins := [], deadCaps := [], meters := [], served := [], globalEvs := [], chans := [],
    outbox := .reset, fe := { FireEng.reset with aLow := s1.fe.aLow, bLow := s1.fe.bLow, gpioIn := s1.fe.gpioIn },
    zports := [], znodes := [], plRuns := [], holdOff := [], polled := [], ddrRows := [],
    ddrBad := if target = 2 then s1.ddrBad else [], scrubAt := [], holes := [],
    pcie := { Pcie.reset with perst := s1.pcie.perst, speed := s1.pcie.speed, width := s1.pcie.width }, hostQ := [], hostOut := [],
    repair := none, moves := [], savedBags := if target = 2 then s1.savedBags else [], pads := [],
    envelope := { Envelope.reset with used := s1.envelope.used, draws := s1.envelope.draws } }
/-- D7: the axes, the AON time and the rail levels are saved, the VSORT rails turned off, the cores isolated; the entry is
recorded as complete (R369, R370, R376). A wake that came in D7 starts at once (R375). -/
def State.enterSleep (s : State) (r : SleepRun) : State :=
  let axes := (List.range 16).foldl (fun (t : Tbl Pos) n => t.set n (s.axPos n)) []
  let levels := (List.range 4).foldl (fun (t : Tbl Nat) n => t.set n (field (s.reg (Reg.PWR_PL n)) 0 3)) []
  let off := (List.range 8).foldl (fun (t : State) k =>
    let role := field (t.reg (Reg.PMB_CFG k)) 0 4
    if 1 ≤ role ∧ role ≤ 4 then t.pmbSend k 1 0 else t) s
  let s1 := ((off.entryRecord r 1 0 0 0 0).bump Reg.AON_SLEEPCNT).digestNow
  let s2 : State := { s1.coresOff r.target with
    savedAxes := axes, savedAon := s1.aonTime, savedLevels := levels, sleep := none,
    phase := if r.target = 1 then .isSealed else .dormant }
  let s3 := s2.digestAsleep
  match r.stop with
  | some (true, _, i) => s3.wakeStart (i % 16) (i / 16) false
  | _ => s3

/-- SLEEP_STEP_COMPLETE: the step in progress completes, aborts the entry at its point, or does not complete yet (R371 to
R373). `refused`: the DDR5 channels that do not confirm at D6. -/
def State.sleepStep (s : State) (refused : List Nat) : State :=
  match s.sleep with
  | none => s
  | some r =>
    let judge := fun (q : Option (Nat × Nat)) => r.stop.or (q.map fun p => (false, p.1, p.2))
    match r.step with
    | 1 =>
      if !s.plRuns.isEmpty || s.envelope.state == .applying || s.unparked.isSome then s
      else match judge (s.refuserD1 r.target) with
        | some x => s.endAtD1 r x
        | none => s.sleepAt r 2
    | 2 =>
      match judge (s.refuserD2 r.target) with
      | some x => s.abortEntry r x
      | none =>
        if s.d2Waits then s
        else if r.target = 1 then s.sleepAt r 3
        else (let s1 := s.saveBags
              if s1.bagsSaved then s1.sleepAt r 3 else s1)
    | 3 =>
      match r.stop with
      | some x => s.abortEntry r x
      | none => (if r.target = 2 then s.takeSignatures else s).dropForSleep { r with step := 4 }
    | 4 =>
      match judge s.refuserD4 with
      | some x => s.abortEntry r x
      | none => s.sleepAt r 5
    | 5 =>
      match r.stop with
      | some x => s.latchPads.abortEntry r x
      | none => s.latchPads.sleepAt r 6
    | 6 =>
      let s1 := s.refreshSelf refused
      match judge (s.refuserD6 refused) with
      | some x => s1.abortEntry r x
      | none => s1.sleepAt r 7
    | _ => s.enterSleep r

/-- D1_TIMEOUT: AON_D1TOUT microseconds after the wait began a clerk is neither in WAIT nor HALTED (R371, R372). -/
def State.d1Timeout (s : State) : State :=
  match s.sleep with
  | none => s
  | some r =>
    if r.step = 1 ∧ s.plRuns.isEmpty ∧ r.start + max 1 (s.reg Reg.AON_D1TOUT).toNat * 200 ≤ s.now then
      match s.unparked with
      | none => s
      | some q => s.endAtD1 r (r.stop.getD (false, q.1, q.2))
    else s

/-- A sleep request, accepted only from READY or RUN; TRANS is set, the wake sources are armed, an envelope that is not
APPLYING is aborted, and the refusers of D1 are asked (R18, R371, R383, R387, R441). -/
def State.reqSleep (s : State) (target : Nat) : State :=
  if s.mayRequest && (s.mode == 3 || s.mode == 4) then
    let r : SleepRun := { target := target, step := 1, start := s.now, fromMode := s.mode, time := s.aonTime,
                          stop := (s.refuserD1 target).map fun p => (false, p.1, p.2), dropped := [] }
    let s1 : State := { s.modReg Reg.DEVICE_MODE fun w => putField w 4 1 1 with
      sleep := some r, encWake := [], gpioWake := BitVec.ofNat 32 ((List.range 32).foldl (fun n i => n + flag (s.padEn i && !(s.gpDir i)) i) 0) }
    s1.csAborted
  else s.refuseMode

end Sys2Proof.Machine
end

