-- ==== Sys2Proof/Machine/Views.lean ====
section
/-!
DEFINITION. What every port reads as: the stored value, or the view its block computes, or what a read does (R3, R6, R101
to R105 and the register tables of every spec file).
-/
namespace Sys2Proof.Machine

/-! ## Keys -/

/-- Port number of a register key, in its own space. -/
def keyPort (key : Nat) : Nat :=
  if key < 0x10000 then key else if key < 0x100000 then key % 0x10000 else (key - 0x100000) % 0x1000
/-- Die of a die-local key, or clerk of a clerk-local one. -/
def keyOwner (key : Nat) : Nat := if key < 0x100000 then key / 0x10000 - 1 else (key - 0x100000) / 0x1000
/-- Outer index of a port in its row. -/
def RegRow.outer (r : RegRow) (p : Nat) : Nat := (p - r.base) / r.s1
/-- Inner index of a port in its row. -/
def RegRow.inner (r : RegRow) (p : Nat) : Nat := (p - r.base) % r.s1 / r.s2

/-- A requester's selection register (R345). -/
def State.selOf (s : State) (who port : Nat) : Word := s.sels.getD (ownKey who port) 0
/-- The selection registers, of which every requester has its own (R345, R427, R436, R448, R498). -/
def isSelector (key : Nat) : Bool :=
  key == Reg.PST_SEL || key == Reg.CS_EIDX || key == Reg.HOST_SSEL || key == Reg.ERR_LOGSEL || key == Reg.ERR_DIGSEL ||
    (decide (0x7800 ≤ key) && decide (key < 0x8000) && key % 0x100 == 2)

/-- Is it a port of a page that is reserved although its row repeats there: an ICU page of a die without one, the unused
ICU words of HUB (R344), or an alarm and doorbell port of PM0 and PM1 (R342) or their epoch ports (R195), or the bank
control on HUB, which has no shared store (R97, R389)? -/
def reservedPort (key : Nat) : Bool :=
  if 0x7800 ≤ key ∧ key < 0x8000 then
    let d := (key - 0x7800) / 0x100
    let o := key % 0x100
    !(hasIcu d) || (d == 0 && ((decide (0x28 ≤ o) && decide (o < 0x30)) || decide (0x42 ≤ o)))
  else if 0x100000 ≤ key then
    let c := keyOwner key
    let p := keyPort key
    isPm c && ((decide (0x22 ≤ p) && decide (p ≤ 0x25)) || (decide (0xE0 ≤ p) && decide (p ≤ 0xFF)))
  else decide (0x11000 ≤ key) && decide (key < 0x11100)
/-- The row of a register key that is not reserved. -/
def regRow (key : Nat) : Option RegRow := if reservedPort key then none else rowOf key

/-- The key under which the value of a port is stored: that of the selected item behind PST_SEL, FD_XSEL and ICU_SEL; none
where the selected item does not exist (R273, R274, R345, R448). -/
def State.homeKey (s : State) (who key : Nat) : Option Nat :=
  if 0x4403 ≤ key ∧ key ≤ 0x440B then some (routeKey (field (s.selOf who Reg.PST_SEL) 0 8) (key - 0x4400))
  else if 0x7710 ≤ key ∧ key < 0x7800 ∧ 0x10 ≤ key % 0x20 ∧ key % 0x20 ≤ 0x13 then
    let d := (key - 0x7700) / 0x20
    let i := field (s.reg (Reg.FD_XSEL d)) 0 5
    if i < crossingCount d then some (crossKey d i (key % 0x20 - 0x10)) else none
  else if 0x7800 ≤ key ∧ key < 0x8000 ∧ 3 ≤ key % 0x100 ∧ key % 0x100 ≤ 8 then
    let d := (key - 0x7800) / 0x100
    let src := field (s.selOf who (Reg.ICU_SEL d)) 0 8
    if src < icuCount d then some (icuKey d src (key % 0x100)) else none
  else some key
/-- The stored value of a port, as a requester sees it. -/
def State.stored (s : State) (who key : Nat) : Word :=
  match s.homeKey who key with
  | some k => s.reg k
  | none => 0

/-! ## Views of the global blocks -/

/-- POWER and AON (R366, R388). -/
def State.viewPower (s : State) (base i : Nat) (v : Word) : Word :=
  match base with
  | 0x4112 => s.pwrVoted i
  | 0x4170 => word (flag s.aonLow 0)
  | 0x4171 => word ((List.range 4).foldl (fun n k => n + flag (bit (s.reg (Reg.PWR_PL k)) 15) k) 0)
  | 0x4200 => s.aonStat
  | 0x4209 => wordOf s.aonTime 0
  | 0x420A => wordOf s.aonTime 1
  | 0x420B => wordOf s.aonTime 2
  | _ => v
/-- CSIGN, POSTAGE, ERRORS and IMAGE (R447, R448, R470, R498). -/
def State.viewHub (s : State) (who base i j : Nat) (v : Word) : Word :=
  match base with
  | 0x4300 => s.csStat
  | 0x4305 => word s.envelope.entries.length
  | 0x430A => s.csEget who i
  | 0x4312 => s.csTimeLeft
  | 0x440C => satAdd (word 0) (s.meter 0 (field (s.selOf who Reg.PST_SEL) 0 8) 1).used
  | 0x4602 => word s.logCount
  | 0x4604 => s.logWord (field (s.selOf who Reg.ERR_LOGSEL) 0 6) i
  | 0x4630 => s.errHalted i
  | 0x4638 => word (flag (s.clerk 128).halted 0 + flag (s.clerk 129).halted 1)
  | 0x4650 => word s.deadCaps.length
  | 0x4680 => s.dloCap i j
  | 0x471F => s.hloadWord
  | _ => v
/-- AXIS (R53). -/
def State.viewAxis (s : State) (base n : Nat) (v : Word) : Word :=
  match base with
  | 0x4800 => wordOf (s.axPos n).toNat 0
  | 0x4801 => wordOf (s.axPos n).toNat 1
  | 0x4802 => wordOf (s.axPos n).toNat 2
  | 0x4803 => s.axStat n
  | 0x4804 => if n = 15 then 0x4000 else v
  | 0x4808 => wordOf (s.axAngle n).toNat 0
  | 0x4809 => wordOf (s.axAngle n).toNat 1
  | 0x480A => wordOf (s.axAngle n).toNat 2
  | 0x481D => wordOf (s.axTpred n) 0
  | 0x481E => wordOf (s.axTpred n) 1
  | _ => v

/-- GP_IN: the levels of the pads in use (R296, R508). -/
def State.gpIn (s : State) (j : Nat) : Word :=
  word ((List.range 16).foldl (fun n k =>
    let i := 16 * j + k
    let level := match s.gpioPad i with
      | some b => b
      | none => s.fe.gpioIn.getLsbD i
    n + flag (s.padEn i && level) k) 0)
/-- The bits of a GPIO word whose pads are in use (R508). -/
def State.gpMask (s : State) (j : Nat) : Word :=
  word ((List.range 16).foldl (fun n k => n + flag (s.padEn (16 * j + k)) k) 0)
/-- CH_STAT (R299). -/
def State.chStat (s : State) (n : Nat) : Word :=
  let c := s.chan n
  let st := match c.state with
    | .off => 0 | .active => 1 | .safe => 2 | .waiting => 3
  (s.reg (Reg.CH_STAT n) &&& 0xE000) ||| word (c.causes * 16 + flag ((s.padLevel n).getD false) 3 + st)
/-- OUTBOX, FIRING and epoch table (R196, R297 to R299). -/
def State.viewOutbox (s : State) (base i : Nat) (v : Word) : Word :=
  match base with
  | 0x4C00 => s.obStat
  | 0x4C05 => word s.outbox.count
  | 0x4C06 => wordOf (s.outbox.spill.flatten.length + s.outbox.wbuf.length) 0
  | 0x4C07 => wordOf (s.outbox.spill.flatten.length + s.outbox.wbuf.length) 1
  | 0x4C1A => word s.outbox.verdicts.length
  | 0x4C40 => s.feStat
  | 0x4C47 => word ((List.range 16).foldl (fun n k => n + flag ((s.chan (16 * i + k)).state == .safe) k) 0)
  | 0x4C60 => v &&& s.gpMask i
  | 0x4C64 => s.gpIn i
  | 0x4C66 => v &&& s.gpMask i
  | 0x4F11 => word (s.epochs.filter fun e => e.2.state != .free).length
  | 0x5004 => s.chStat i
  | _ => v
/-- State code of a Zegen address (R326). -/
def NodeState.code : NodeState → Nat
  | .free => 0 | .enrolling => 1 | .enrolled => 2 | .lost => 3 | .fault => 4
/-- ZEGEN (R326). -/
def State.viewZegen (s : State) (base p a : Nat) (v : Word) : Word :=
  let z := s.zport p
  match base with
  | 0x5807 =>
    let st := if !(s.zpEn p) && z.flight.isNone then 0 else if z.down then 2 else 1
    (v &&& 0xF800) ||| word (flag s.hsafe 10 + st)
  | 0x580E =>
    let inState := fun (st : NodeState) => ((List.range 62).filter fun k => (s.znode p (k + 1)).state == st).length
    word (inState .lost * 256 + inState .enrolled)
  | 0x5841 =>
    let x := s.znode p (a + 1)
    word (x.state.code * 8192 + x.queue.length * 1024 + x.resp % 16 * 64 + flag x.nodeSafe 5 + flag x.looped 4)
  | _ => v
/-- INTAKE (R246). -/
def State.viewIntake (s : State) (base i k : Nat) (v : Word) : Word :=
  match base with
  | 0x6002 => word (((List.range 16).map fun cx => flag (s.cxUp i cx) cx).sum)
  | 0x6003 => word (((List.range 4).map fun cx => flag (s.cxUp i (16 + cx)) cx).sum)
  | 0x6004 => word (s.lbFree i)
  | 0x6040 => if s.cxOn i k then v else v &&& 0xFFF8
  | 0x6214 => (v &&& 0xF000) ||| word (flag (s.cam i k).active 11 + (s.cam i k).state.code)
  | _ => v
/-- DDR (R408). -/
def State.viewDdr (s : State) (base ch : Nat) (v : Word) : Word :=
  match base with
  | 0x6820 => word (s.ddrRows.filter fun e => e.1 / 64 == ch).length
  | _ => v
/-- HOST (R427). -/
def State.viewHost (s : State) (base i : Nat) (v : Word) : Word :=
  match base with
  | 0x7002 => s.hostLink
  | 0x7102 => s.phStat i
  | _ => v
/-- FABRIC (R274). -/
def State.viewFabric (s : State) (base i : Nat) (v : Word) : Word :=
  match base with
  | 0x7400 => (v &&& 0xF000) ||| word (s.link i).state.code
  | 0x740D => s.holdCount i
  | 0x7700 => (v &&& 0x8000) ||| word (s.die i).state.code
  | _ => v
/-- ICU_SSTAT of a source (R345). -/
def State.icuSstat (s : State) (d src : Nat) : Word :=
  let e := s.icuSrc d src
  if icuCount d ≤ src then 0
  else
    let offered := match s.winner (s.icuTarget d src) with
      | some (_, w) => w == src
      | none => false
    word (flag e.pend 15 + flag (e.pend && offered) 14 + e.held % 32)
/-- ICU_CLKc (R341, R345). -/
def State.icuClk (s : State) (d l : Nat) : Word :=
  let c := clerkOf d l
  let base := flag (s.inWait c) 14 + flag (!(s.pendingFor c).isEmpty) 13
  match s.winner c with
  | some (p, src) => word (0x8000 + base + p * 256 + src)
  | none => word base
/-- ICU (R345). -/
def State.viewIcu (s : State) (who base d j : Nat) (v : Word) : Word :=
  match base with
  | 0x7800 => (v &&& 0x8000) ||| word (s.icuPendCount d)
  | 0x7809 => s.icuSstat d (field (s.selOf who (Reg.ICU_SEL d)) 0 8)
  | 0x7820 => s.icuPendWord d j
  | 0x7840 => s.icuClk d j
  | _ => v
/-- MB_STAT (R220). -/
def State.mbStat (s : State) (n : Nat) : Word :=
  let b := s.bag n
  let cons := match s.popSlot n with
    | some (c, _) => flag true 9 + flag (isPm c) 5 + clerkLocal c
    | none => 0
  (s.reg (Reg.MB_STAT n) &&& 0xF000) ||| word (flag (s.spillDue n || s.refillDue n) 11 + flag (!b.spill.isEmpty) 10 + cons)
/-- MAILBAG (R220). -/
def State.viewMailbag (s : State) (base n : Nat) (v : Word) : Word :=
  match base with
  | 0x8005 => s.mbStat n
  | 0x8006 => wordOf (s.bag n).visible 0
  | 0x8007 => wordOf (s.bag n).visible 1
  | 0x8008 => word (s.bag n).retained.length
  | 0x8009 => word (s.bag n).drafts
  | _ => v

/-- A global port's view, by block (R105). -/
def State.viewGlobal (s : State) (who base i j : Nat) (v : Word) : Word :=
  if base < 0x4300 then s.viewPower base i v
  else if base < 0x4800 then s.viewHub who base i j v
  else if base < 0x4C00 then s.viewAxis base i v
  else if base < 0x5800 then s.viewOutbox base i v
  else if base < 0x6000 then s.viewZegen base i j v
  else if base < 0x6800 then s.viewIntake base i j v
  else if base < 0x7000 then s.viewDdr base i v
  else if base < 0x7400 then s.viewHost base i v
  else if base < 0x7800 then s.viewFabric base i v
  else if base < 0x8000 then s.viewIcu who base i j v
  else s.viewMailbag base i v

/-! ## Views of the die-local and clerk-local blocks -/

/-- Die-local ports (R104, R221, R367). -/
def State.viewDie (s : State) (d base : Nat) (v : Word) : Word :=
  match base with
  | 0x1202 => s.dvOn d
  | 0x1301 => word (s.retainedCount d)
  | 0x1302 => word (s.draftCount d)
  | 0x1303 => word ((s.bagsOf d).filter fun e => decide (0 < e.2.held)).length
  | 0x1304 => word (flag (s.engineVotes d) 0)
  | _ => v
/-- CLERK_ID (R103). -/
def clerkIdWord (c : Nat) : Word :=
  if isPm c then word ((c - 128) * 256 + 128)
  else word (clerkDie c * 8192 + clerkLocal c / 4 * 1024 + clerkLocal c % 4 * 256 + c)
/-- SHADOW_STAT: PEND, and the instructions to retire after this read before the last pending change takes effect; a read by
the clerk itself is already counted out (R76, R103). -/
def Clerk.shadowStat (k : Clerk) (own : Bool) : Word :=
  let left := k.shadow.foldl (fun n m => max n m.left) 0 - (if own then 1 else 0)
  word (flag (!k.shadow.isEmpty) 2 + left % 4)
/-- Free places of the mailbag that a PUSH slot names, or the visible count behind a POP slot (R216). -/
def State.slotCount (s : State) (c k : Nat) : Nat :=
  match s.slotBag c k 1, s.slotBag c k 2 with
  | some n, _ => (s.bag n).visible
  | none, some n => if bagDie n = clerkDie c then s.bagCap n - (s.bag n).held else 0
  | none, none => 0
/-- SL_STAT: the next sheet is a draft, and the mailbag is on the clerk's own die (R216). -/
def State.slotStat (s : State) (c k : Nat) : Word :=
  let draft := match s.slotBag c k 1 with
    | some n => (match s.bagPeek n with
      | some i => i.tag != 0
      | none => false)
    | none => false
  let own := match s.slotBag c k 1, s.slotBag c k 2 with
    | some n, _ => bagDie n == clerkDie c
    | none, some n => bagDie n == clerkDie c
    | none, none => false
  word (flag draft 15 + flag own 14)
/-- Clerk-local ports (R48, R86, R103, R195, R216, R342). -/
def State.viewClerk (s : State) (who c base i j : Nat) (v : Word) : Word :=
  let k := s.clerk c
  match base with
  | 0x00 => clerkIdWord c
  | 0x10 => k.shadowStat (who == c)
  | 0x21 => s.licPend c
  | 0x40 => s.replicaWord (clerkDie c) i 0
  | 0x41 => s.replicaWord (clerkDie c) i 1
  | 0x42 => s.replicaWord (clerkDie c) i 2
  | 0x43 => s.replicaWord (clerkDie c) i 3
  | 0x44 => s.replicaWord (clerkDie c) i 4
  | 0x45 => s.replicaWord (clerkDie c) i 5
  | 0x46 => s.replicaWord (clerkDie c) i 6
  | 0x47 => s.replicaWord (clerkDie c) i 7
  | 0xDB => if s.refUs = 0 then 0 else Config.stageTime c (s.refUs - 1)
  | 0xE0 => k.epStat
  | 0xE4 => word k.journal.length
  | 0xE5 => word k.held.length
  | 0xE8 => k.slotTag c i
  | 0xEC => s.epInfo c i
  | 0xF0 => k.epSettleWord i j
  | 0x100 => 0
  | 0x109 => wordOf (s.slotCount c i) 0
  | 0x10A => wordOf (s.slotCount c i) 1
  | 0x10B => s.slotStat c i
  | _ => v

/-- The bits of a row that a read shows. -/
def RegRow.readMask (r : RegRow) : Word := BitVec.ofNat 16 (r.rw ||| r.w1c ||| r.cs ||| r.ro)

/-- The value a port has now, without any effect of reading it; a reserved port reads 0000h (R5, R6, R102). -/
def State.liveReg (s : State) (who key : Nat) : Word :=
  match regRow key with
  | none => 0
  | some r =>
    let p := keyPort key
    let v := if isSelector key then s.selOf who key else s.stored who key
    let w :=
      if key < 0x10000 then s.viewGlobal who r.base (r.outer p) (r.inner p) v
      else if key < 0x100000 then s.viewDie (keyOwner key) r.base v
      else s.viewClerk who (keyOwner key) r.base (r.outer p) (r.inner p) v
    w &&& r.readMask

/-! ## Reads (R3, R6, R176, R208) -/

/-- Is it a port of a mailbag's MB_DATA: the mailbag and the lane? -/
def mbData (key : Nat) : Option (Nat × Nat) :=
  if 0x8000 ≤ key ∧ key < 0x10000 ∧ 0x10 ≤ key % 0x20 ∧ key % 0x20 < 0x18 then
    some ((key - 0x8000) / 0x20, key % 0x20 - 0x10)
  else none
/-- Latches words for a reader from key `k` on (R3). -/
def State.latch (s : State) (who k : Nat) : List Word → State
  | [] => s
  | v :: t => ({ s with snaps := s.snaps.set (ownKey who k) v }).latch who (k + 1) t
/-- May requester `who` make an access of kind `kind` with an index: HOST, PM0 and PM1 need no entry; a sorting clerk needs
an enabled entry of its route that covers it (R432, R448). -/
def State.permitted (s : State) (who kind index : Nat) : Bool :=
  if 128 ≤ who then true
  else (List.range 64).any fun e =>
    let cfg := s.reg (Reg.PR_CFG e)
    bit cfg 15 && field cfg 12 3 == kind && field cfg 0 8 == s.clerkRoute who &&
      decide ((s.reg (Reg.PR_FIRST e)).toNat ≤ index) && decide (index ≤ (s.reg (Reg.PR_LAST e)).toNat)
/-- A pop through MB_DATA: denied where a POP slot is bound to the mailbag, or where a sorting clerk lacks its entry; the
whole sheet (R208, R432, R433). The debug port sees the next sheet and takes nothing. -/
def State.popPort (s : State) (who n : Nat) : Sheet × State :=
  if who = debugId then
    ((match s.bagPeek n with
      | some i => i.data
      | none => Sheet.zero), s)
  else if (s.popSlot n).isSome || !(s.permitted who 1 n) then (Sheet.zero, s.portViolation who false (Reg.MB_DATA n 0))
  else s.globalPop n

/-- A read of a multi-word value's word: the low word latches the others; another word is the reader's snapshot, or live
where it holds none (R3). -/
def State.readWord (s : State) (who key : Nat) (r : RegRow) : Word × State :=
  let w := r.word (keyPort key)
  if r.mwN = 1 then (s.liveReg who key, s)
  else if w = 0 then
    (s.liveReg who key, s.latch who (key + 1) ((List.range (r.mwN - 1)).map fun j => s.liveReg who (key + 1 + j)))
  else (s.snaps.getD (ownKey who key) (s.liveReg who key), s)

/-- A read of the port with key `key` by `who`: the word, and what the read does. `quiet`: without read side effects, as a
peek (R176) and the debug port (R497) read. -/
def State.readReg (s : State) (who key : Nat) (quiet : Bool) : Word × State :=
  match regRow key with
  | none => (0, s)
  | some r =>
    match mbData key with
    | some (n, 0) =>
      let x := s.popPort who n
      (x.1.l0, x.2.latch who (key + 1) (x.1.toList.drop 1))
    | some (_, _) => (s.snaps.getD (ownKey who key) 0, s)
    | none =>
      if key = Reg.AON_SRDATA then
        (let x := s.srdata none
         (x.1, if quiet then s else x.2))
      else if key = Reg.INT_CSDATA 0 ∨ key = Reg.INT_CSDATA 1 then
        (let i := (key - 0x6000) / 0x400
         (s.peek (corrKey (i + 1) (s.csAddr i)), if quiet then s else s.csAccess i none))
      else if Reg.HOST_SDATA 0 ≤ key ∧ key ≤ Reg.HOST_SDATA 7 then
        (let x := s.sdata who (key - Reg.HOST_SDATA 0) none
         (x.1, if quiet then s else x.2))
      else if key = Reg.ERR_DIGDATA then s.digData who
      else s.readWord who key r

end Sys2Proof.Machine
end

