-- ==== Sys2Proof/Machine/RegIO.lean ====
section
/-!
DEFINITION. What a write of a port does at its block, once the writer's right to make it is settled: R3 to R7 with each
block's own rules. One function serves a plain write, an entry of an applied envelope (R439, R440) and a CONFIG entry of a
slice (R459), which differ in the bits they may change and in what they raise.
-/
namespace Sys2Proof.Machine

/-- How a register is written. -/
inductive WMode where
  | plain       -- by a requester: CS fields keep their values (R429)
  | envelope    -- by an entry of an applied envelope, or of the fallback map: CS fields too (R428, R462)
  | load        -- by a CONFIG entry: it raises and counts nothing (R459)
deriving DecidableEq, Repr

/-- The value that a write of `v` leaves in a register whose value is `old`. -/
def WMode.val (m : WMode) (r : RegRow) (old v : Word) : Word :=
  match m with
  | .plain => r.apply old v
  | _ => r.load old v &&& ~~~(v &&& BitVec.ofNat 16 r.w1c)

/-! ## The general write (R4, R6, R429) -/

/-- A plain write that would change a CS field is counted as a CS write violation (R429). -/
def State.csCheck (s : State) (m : WMode) (who key : Nat) (r : RegRow) (v : Word) : State :=
  if m = .plain ∧ (s.liveReg who key ^^^ v) &&& BitVec.ofNat 16 r.cs ≠ 0 then
    s.violation Reg.CS_CSWCNT (originWord who true 0) (word (keyPort key))
  else s
/-- Stores a word in the register or the selection that a port reaches. -/
def State.putWord (s : State) (m : WMode) (who key : Nat) (v : Word) : State :=
  match regRow key with
  | none => s
  | some r =>
    if isSelector key then { s with sels := s.sels.set (ownKey who key) (m.val r (s.selOf who key) v) }
    else match s.homeKey who key with
      | some k => s.setReg k (m.val r (s.reg k) v)
      | none => s
/-- Applies the words of a multi-word value: lower words as staged, or as they stand (R4). -/
def State.putWords (s : State) (m : WMode) (who k0 : Nat) : List (Nat × Word) → State
  | [] => s
  | (j, d) :: t => (s.putWord m who (k0 + j) (s.staged who (k0 + j) d)).putWords m who k0 t
/-- The words below the highest of a value, each with the value it takes where it has not been staged. -/
def State.lowWords (s : State) (who k0 n : Nat) : List (Nat × Word) :=
  (List.range (n - 1)).map fun j => (j, s.liveReg who (k0 + j))
/-- The general write of a port: a word of its own at once; a lower word of a multi-word value is staged, and the highest
applies the whole (R4). -/
def State.put (s : State) (m : WMode) (who key : Nat) (r : RegRow) (v : Word) : State :=
  let s0 := s.csCheck m who key r v
  if r.mwN = 1 then s0.putWord m who key v
  else if m = .plain ∧ r.rw = 0 then s0
  else
    let w := r.word (keyPort key)
    if w + 1 < r.mwN then s0.putStage who key v
    else
      let k0 := key - w
      ((s0.putWords m who k0 (s.lowWords who k0 r.mwN)).putWord m who key v).clearStage who k0 r.mwN
/-- The whole value that a write of the highest word of a two-word value would apply. -/
def State.pairValue (s : State) (who key : Nat) (v : Word) : Nat :=
  (s.staged who (key - 1) (s.liveReg who (key - 1))).toNat + 65536 * v.toNat

/-! ## DEVICE, POWER, AON (R18, R21, R366, R388) -/

/-- A write of DEVICE_MODE_REQ: with GO = 1 the request that TARGET names; another target is refused (R16, R18, R21). -/
def State.modeReqWrite (s : State) (v : Word) : State :=
  let s1 := s.setReg Reg.DEVICE_MODE_REQ (v &&& 0x070F)
  if !(bit v 15) then s1
  else match field v 0 4 with
    | 1 => s1.reqSleep 1
    | 2 => s1.reqSleep 2
    | 3 => s1.reqReady
    | 4 => s1.reqRun
    | 6 => s1.reqRepair (field v 8 3)
    | 7 => s1.reqService
    | _ => s1.refuseMode
/-- PMB_CTL: CLEAR_FAULTS, whose acknowledgement the regulator decides; READ makes the rail's poll due (R362, R366). -/
def State.pmbCtlWrite (s : State) (k : Nat) (v : Word) : State :=
  let s1 := if bit v 15 then { s with free := s.free + 1 }.pmbClrf k (bit (Config.freeWord s.free) 0) else s
  if bit v 14 then { s1 with polled := s1.polled.erase k } else s1
/-- Blocks DEVICE, POWER and AON. -/
def State.writeTop (s : State) (m : WMode) (who key : Nat) (r : RegRow) (v : Word) : State :=
  let i := r.outer key
  match r.base with
  | 0x4003 => s.modeReqWrite v
  | 0x4004 => s.diesClear v
  | 0x4101 => if bit v 15 then s.pwrClrcnt else s
  | 0x411C => s.plreqWrite i v
  | 0x4120 => if m = .plain then s.csCheck m who key r v else if m = .load then s.put m who key r v else (s.put m who key r v).plmaxApplied i
  | 0x4136 => s.pmbCtlWrite i v
  | 0x4201 =>
    let s1 := if bit v 15 then s.aonClrcnt else s
    if bit v 14 then s1.aonSync else s1
  | 0x4202 => s.padRelease v
  | 0x4221 => (s.srdata (some v)).2
  | _ => s.put m who key r v

/-! ## POSTAGE, ERRORS, IMAGE (R445, R448, R470, R498) -/

/-- A CS register of the route table: a change of RT_CFG.AXIS or RT_RND starts a new round at every meter, and so does the set-up of a
route's meters by EN (R44, R445). -/
def State.writeRoute (s : State) (m : WMode) (who key : Nat) (r : RegRow) (v : Word) : State :=
  let rt := field (s.selOf who Reg.PST_SEL) 0 8
  let s1 := s.put m who key r v
  let on := fun (t : State) => bit (t.reg (routeKey rt 3)) 15
  if s1.rtAxis rt = s.rtAxis rt ∧ s1.rtLen rt = s.rtLen rt ∧ (on s1 → on s) then s1 else s1.restartRounds rt
/-- IMG_RPCTL: STAGED is stored, ABORT ends a running repair (R467, R470). -/
def State.rpctlWrite (s : State) (m : WMode) (who key : Nat) (r : RegRow) (v : Word) : State :=
  let s1 := s.put m who key r v
  if bit v 15 then s1.repairAbort else s1
/-- ERR_CTL (R498). -/
def State.errCtl (s : State) (v : Word) : State :=
  let s1 := if bit v 15 then s.errClrcnt else s
  let s2 := if bit v 14 then s1.errClrcap else s1
  if bit v 13 then s2.errClrlast else s2
/-- IMG_CMD (R470). -/
def State.imgCmd (s : State) (v : Word) : State :=
  match field v 0 2 with
  | 1 => s.imgStage
  | 2 => s.imgCommit
  | 3 => s.imgDiscard
  | _ => s
/-- Blocks POSTAGE, ERRORS and IMAGE. -/
def State.writeHub (s : State) (m : WMode) (who key : Nat) (r : RegRow) (v : Word) : State :=
  match r.base with
  | 0x4401 => if bit v 15 then s.pstClrcnt else s
  | 0x4403 => s.writeRoute m who key r v
  | 0x4404 => s.writeRoute m who key r v
  | 0x4405 => s.writeRoute m who key r v
  | 0x4601 => s.errCtl v
  | 0x460C => s.errRestart v
  | 0x4701 => s.imgCmd v
  | 0x4716 => s.rpctlWrite m who key r v
  | 0x471E => if bit v 15 then s.imgClrcnt else s
  | 0x471F => s.hloadWrite v
  | _ => s.put m who key r v

/-! ## AXIS (R52 to R55) -/

/-- A position that the image writes: it raises no deviation, and an axis that is OFF keeps it for the source that a later entry
gives it (R54, R459). -/
def State.axLoadSet (s : State) (who n : Nat) (seth : Word) : State :=
  let p := markPos (s.staged who (Reg.AX_SETF n) 0) (s.staged who (Reg.AX_SETL n) 0) seth
  let s1 := s.clearStage who (Reg.AX_SETF n) 3
  if n = 15 then s1.axCfgErr n else (s1.syncCopies).movePos n p
/-- Block AXIS. -/
def State.writeAxis (s : State) (m : WMode) (who key : Nat) (r : RegRow) (v : Word) : State :=
  let n := r.outer key
  match r.base with
  | 0x4804 => if m = .load then (if s.axCfgOk n v then s.axConfigure n v else s) else s.axCfgWrite n v
  | 0x4811 => s.axRatioWrite n false v
  | 0x4812 => s.axRatioWrite n true v
  | 0x4814 => s.putStage who key v
  | 0x4815 => s.putStage who key v
  | 0x4816 => if m = .load then s.axLoadSet who n v else s.axSetWrite who n v
  | 0x4817 =>
    let s1 := if bit v 15 then s.forceDev n else s
    if bit v 14 then s1.axClrcnt n else s1
  | 0x4BF8 => if m = .load then s.put m who key r v else s.bcastWrite false v
  | 0x4BF9 => if m = .load then s.put m who key r v else s.bcastWrite true v
  | _ => s.put m who key r v

/-! ## OUTBOX, FIRING, epoch table (R196, R297 to R299) -/

/-- May the outbox spill stand at `base` with `len` blocks: not while entries are spilled, at most 4000h blocks, and wholly
in one OBSPILL region (R297, R394)? -/
def State.obSpillOk (s : State) (base len : Nat) : Bool :=
  !s.outbox.spilling && decide (len ≤ 0x4000) && (len == 0 || s.inRegion 3 (base * 2048) (len * 32))
/-- A write of FE_RNDCFG or FE_RNDLEN: a change of the axis or the length sets the refresh rounds up (R44). -/
def State.refreshWrite (s : State) (m : WMode) (who key : Nat) (r : RegRow) (v : Word) : State :=
  let s1 := s.put m who key r v
  if s1.reg Reg.FE_RNDCFG = s.reg Reg.FE_RNDCFG ∧ s1.refreshLen = s.refreshLen then s1 else s1.refreshSetUp
/-- A write of FE_STAT: clearing DISCREP is ignored while a safe input is low (R298). -/
def State.feStatWrite (s : State) (v : Word) : State :=
  let s1 := s.clrBits Reg.FE_STAT (v &&& 0x8000)
  if s.safeLow then s1 else s1.clrBits Reg.FE_STAT (v &&& 0x4000)
/-- Blocks OUTBOX, FIRING and the epoch table. -/
def State.writeOutbox (s : State) (m : WMode) (who key : Nat) (r : RegRow) (v : Word) : State :=
  let n := r.outer key
  match r.base with
  | 0x4C03 =>
    if s.obSpillOk (s.pairValue who key (v &&& 0x07FF)) (s.reg Reg.OB_SPLEN).toNat then s.put m who key r v
    else s.clearStage who (key - 1) 2
  | 0x4C01 => s.obFree (s.put m who key r v)
  | 0x4C04 => if s.obSpillOk (s.reg2 Reg.OB_SPBASEL Reg.OB_SPBASEH) v.toNat then s.obFree (s.put m who key r v) else s
  | 0x4C10 => if n < 7 then s.putStage who key v else s.obPush who v
  | 0x4C18 => if bit v 15 then s.obPurge (field v 0 4) else s
  | 0x4C1B => if bit v 15 then s.obClrcnt else s
  | 0x4C40 => s.feStatWrite v
  | 0x4C41 =>
    let s1 := if bit v 15 then s.rearm else s
    if bit v 14 then s1.feClrcnt else s1
  | 0x4C43 => s.refreshWrite m who key r v
  | 0x4C44 => s.refreshWrite m who key r v
  | 0x4C45 => s.refreshWrite m who key r v
  | 0x4C60 => s.put m who key r (v &&& s.gpMask n)
  | 0x4C66 => s.put m who key r (v &&& s.gpMask n)
  | 0x4F10 => s.recallTag v 4
  | 0x4F16 => if bit v 15 then s.epochClrcnt else s
  | 0x5000 => if m = .load then (if s.chCfgOk n v then s.chEnable n v else s) else s.chCfgWrite n v
  | 0x5002 => s.chParamWrite n key v
  | 0x5003 => s.chParamWrite n key v
  | 0x500B => if bit v 15 then s.zeroRegs [Reg.CH_APPLIED n, Reg.CH_SUPP n] else s
  | _ => s.put m who key r v

/-! ## ZEGEN (R326) -/

/-- Block ZEGEN. -/
def State.writeZegen (s : State) (m : WMode) (who key : Nat) (r : RegRow) (v : Word) : State :=
  let p := r.outer key
  let a := r.inner key + 1
  match r.base with
  | 0x5800 => s.zpCfgWrite p v
  | 0x5801 => s.zpTimingWrite p true v
  | 0x5802 => s.zpTimingWrite p false v
  | 0x580F => if bit v 15 then s.zpClrcnt p else s
  | 0x5810 => s.ncmdWrite p v
  | 0x58C1 =>
    let s1 := if bit v 15 then s.nodeRelease p a else s
    let s2 := if bit v 14 then s1.nodeUnfault p a else s1
    if bit v 13 then s2.setReg (Reg.NODE_ERR p (a - 1)) 0 else s2
  | _ => s.put m who key r v

/-! ## INTAKE (R240, R246) -/

/-- A CS register of a region: refused where PACK is reserved, where RGB meets other than 3 bands, or where its lines would
take more than 65,535 sheets (R240). -/
def State.regionOk (s : State) (i : Nat) (cfg w : Word) : Bool :=
  field cfg 13 2 != 3 && (field cfg 13 2 != 2 || (s.frankCfg i (field cfg 8 4)).count == 3) &&
  decide (packCount (field cfg 13 2) w.toNat (s.frankCfg i (field cfg 8 4)).count ≤ 65535)
/-- A camera register other than CAM_CFG: refused while the camera is enabled, or out of range (R246). -/
def State.camRegWrite (s : State) (m : WMode) (who key : Nat) (r : RegRow) (i k : Nat) (v : Word) : State :=
  if r.cs ≠ 0 ∧ m = .plain then s.csCheck m who key r v
  else if r.cs = 0 ∧ r.rw = 0 then s.put m who key r v
  else if s.camRegOk i k (key % 0x20) v then s.put m who key r v
  else s.camCfgErr i k
/-- Block INTAKE. -/
def State.writeIntake (s : State) (m : WMode) (who key : Nat) (r : RegRow) (v : Word) : State :=
  let i := r.outer key
  let k := r.inner key
  match r.base with
  | 0x600D => s.csAccess i (some v)
  | 0x600E => if bit v 15 then s.intClrcnt i else s
  | 0x6020 => s.ccGo i v
  | 0x6044 => if bit v 15 then s.cxClrcnt i k else s
  | 0x6101 => s.putStage who key v
  | 0x6102 => s.rgWrite who i k v
  | 0x6200 => s.camCfgWrite i k v
  | 0x6214 => s.put m who key r v
  | 0x621B =>
    let s1 := if bit v 15 then s.camRetry i k else s
    if bit v 14 then s1.camClrcnt i k else s1
  | _ => if 0x6201 ≤ r.base then s.camRegWrite m who key r i k v else s.put m who key r v

/-! ## DDR and HOST (R408, R427) -/

/-- Block DDR. -/
def State.writeDdr (s : State) (m : WMode) (who key : Nat) (r : RegRow) (v : Word) : State :=
  match r.base with
  | 0x6801 => if bit v 15 then s.ddrChClrcnt (r.outer key) else s
  | 0x6907 => s.ddrHppr v
  | 0x6909 => if bit v 15 then s.zeroRegs [Reg.DDR_PROTDROP] else s
  | _ => s.put m who key r v
/-- XF_CTL (R416, R417). -/
def State.xfCtl (s : State) (c : Nat) (v : Word) : State :=
  let s1 := if bit v 14 then s.xfAbort c else s
  if bit v 15 then s1.xfGo c else s1
/-- HOST_CTL (R420, R427). -/
def State.hostCtl (s : State) (v : Word) : State :=
  let s1 := if bit v 15 then s.hostClrcnt else s
  if bit v 14 then s1.phRelease (field v 0 6) else s1
/-- Block HOST. Writes of a transfer channel's addresses and length while it runs are ignored, with REFUSED (R417). -/
def State.writeHost (s : State) (m : WMode) (who key : Nat) (r : RegRow) (v : Word) : State :=
  let i := r.outer key
  match r.base with
  | 0x7001 => s.hostCtl v
  | 0x7003 => (s.put m who key r v).hostLinkDown s.linkTrained
  | 0x7007 => s.hostDoorbell v
  | 0x7012 => s.putStage who key v
  | 0x7013 => (s.phSdone (s.staged who Reg.HOST_SDONEL 0) v).clearStage who Reg.HOST_SDONEL 2
  | 0x7018 => (s.sdata who i (some v)).2
  | 0x7103 => s.phOwner i v
  | 0x7201 => s.xfCtl i v
  | _ =>
    if 0x7203 ≤ r.base ∧ r.base ≤ 0x720B ∧ s.xfState i = 1 then s.setBits (Reg.XF_STAT i) 0x2000 else s.put m who key r v

/-! ## FABRIC, ICU, MAILBAG (R203, R220, R274, R345) -/

/-- Block FABRIC. -/
def State.writeFabric (s : State) (m : WMode) (who key : Nat) (r : RegRow) (v : Word) : State :=
  let i := r.outer key
  match r.base with
  | 0x7401 =>
    let s1 := if bit v 14 then s.flClrcnt i else s
    let s2 := if bit v 13 then s1.flUnfault i else s1
    if bit v 15 then s2.flRetrain i else s2
  | 0x7714 => if bit v 15 then s.fdClrcnt i else s
  | _ => s.put m who key r v
/-- Block ICU: the registers behind ICU_SEL reach the source that the writer's own ICU_SEL names. -/
def State.writeIcu (s : State) (m : WMode) (who key : Nat) (r : RegRow) (v : Word) : State :=
  let d := r.outer key
  let src := field (s.selOf who (Reg.ICU_SEL d)) 0 8
  match r.base with
  | 0x7801 =>
    let s1 := if bit v 15 then s.icuClrcnt d else s
    if bit v 14 then s1.icuClrpend d else s1
  | 0x7803 => if src < icuCount d then s.icuWriteScfg d src v else s
  | 0x7807 => if src < icuCount d then s.icuWriteCoal d src v else s
  | 0x7809 => if bit v 15 ∧ src < icuCount d then s.icuClearPend d src else s
  | 0x780A => if m != .load && icuValid d (field v 0 8) then s.icuCounted d (field v 0 8) 1 else s
  | 0x7820 => s.icuPendClear d (r.inner key) v
  | _ => s.put m who key r v
/-- Die of a requester: HUB for HOST, the debug port, the envelope and the loader (R249). -/
def requesterDie (who : Nat) : Nat := if who < 130 then clerkDie who else 0
/-- A write of an MB_DATA lane: lanes 0 to 6 are staged, lane 7 pushes the sheet (R203). -/
def State.mbDataWrite (s : State) (who n lane : Nat) (v : Word) : State :=
  let k0 := Reg.MB_DATA n 0
  if lane < 7 then s.putStage who (k0 + lane) v
  else
    let x := Sheet.gen fun j => if j = 7 then v else s.staged who (k0 + j) 0
    (s.clearStage who k0 8).bagOffer (if who < 130 then 8 + who else 0) n (ordinary x)
/-- Block MAILBAG. -/
def State.writeMailbag (s : State) (m : WMode) (who key : Nat) (r : RegRow) (v : Word) : State :=
  let n := r.outer key
  match r.base with
  | 0x800D =>
    let s1 := if bit v 15 then s.setBag n (s.bag n).flush else s
    if bit v 14 then s1.mbClrcnt n else s1
  | 0x8010 => s.mbDataWrite who n (r.inner key) v
  | _ => s.put m who key r v

/-- A write of a global port at its block (R105). -/
def State.writeGlobal (s : State) (m : WMode) (who key : Nat) (r : RegRow) (v : Word) : State :=
  if key < 0x4300 then s.writeTop m who key r v
  else if key < 0x4800 then s.writeHub m who key r v
  else if key < 0x4C00 then s.writeAxis m who key r v
  else if key < 0x5800 then s.writeOutbox m who key r v
  else if key < 0x6000 then s.writeZegen m who key r v
  else if key < 0x6800 then s.writeIntake m who key r v
  else if key < 0x7000 then s.writeDdr m who key r v
  else if key < 0x7400 then s.writeHost m who key r v
  else if key < 0x7800 then s.writeFabric m who key r v
  else if key < 0x8000 then s.writeIcu m who key r v
  else s.writeMailbag m who key r v

/-! ## Die-local and clerk-local ports -/

/-- Die-local ports of die `d` (R354, R377, R380, R389, R493). -/
def State.writeDie (s : State) (m : WMode) (who key : Nat) (r : RegRow) (v : Word) : State :=
  let d := keyOwner key
  match r.base with
  | 0x1000 => if s.sleep.isSome then s else s.put m who key r v
  | 0x1002 => s.poisonClear d (keyPort key == 0x1003) v
  | 0x1106 => if bit v 15 then s.cstClrcnt d else s
  | 0x1201 =>
    let allowed := fun (i : Nat) =>
      let n := if d = 0 then 53 else (d - 3) * 11 + i
      bit (s.reg (Reg.PWR_CVPERM (n / 16))) (n % 16)
    let old := s.reg key
    let width := if d = 0 then 1 else 10
    let denied := (List.range width).any fun i => bit v i != bit old i && !(allowed i)
    let new := word ((List.range width).foldl (fun n i => n + flag (if allowed i then bit v i else bit old i) i) 0)
    (if denied then s.portViolation who true 0x1201 else s).setReg key new
  | 0x1200 => s.put m who key r (if d = 0 then v &&& 3 else v)
  | _ => s.put m who key r v

/-- PCNT_CTL: CLRALL clears the eight counters and PCNT_OVF (R86). -/
def State.pcntCtl (s : State) (c : Nat) (v : Word) : State :=
  let s1 := if bit v 14 then
      s.zeroRegs (Reg.PCNT_OVF c :: ((List.range 8).map fun k => Reg.PCNT_L c k) ++ (List.range 8).map fun k => Reg.PCNT_H c k)
    else s
  s1.setReg (Reg.PCNT_CTL c) (v &&& 0xB0FF)
/-- The alarm mark of a clerk is applied (R343). -/
def State.almhWrite (s : State) (c : Nat) (v : Word) : State :=
  let l := s.staged c (Reg.LIC_ALML c) (s.reg (Reg.LIC_ALML c))
  (((s.setReg (Reg.LIC_ALML c) l).setReg (Reg.LIC_ALMH c) v).clearStage c (Reg.LIC_ALML c) 2)
/-- A change of a slot's binding abandons a pop that waits on it: the instruction executes again (R215). -/
def State.slotCfgWrite (s : State) (m : WMode) (who key : Nat) (r : RegRow) (v : Word) : State :=
  (s.put m who key r v).modClerk (keyOwner key) fun k =>
    match k.waiting with
    | some w => if w.kind = .pop then { k with grant := some (Grant.reply false) } else k
    | none => k
/-- Clerk-local ports of clerk `c` (R86, R195, R216, R342). -/
def State.writeClerk (s : State) (m : WMode) (who key : Nat) (r : RegRow) (v : Word) : State :=
  let c := keyOwner key
  match r.base with
  | 0x22 => s.putStage who key v
  | 0x23 => s.almhWrite c v
  | 0x25 => s.raiseLocal (clerkDie c) (field v 0 5) 1
  | 0xC0 => s.pcntCtl c v
  | 0xE3 => if bit v 15 then s.zeroRegs [Reg.EP_OPENCNT c, Reg.EP_RECALLCNT c] else s
  | 0x100 => s
  | 0x108 => s.slotCfgWrite m who key r v
  | _ => s.put m who key r v

/-- A write of the port with key `key`: a reserved port ignores it (R102). -/
def State.writeKey (s : State) (m : WMode) (who key : Nat) (v : Word) : State :=
  match regRow key with
  | none => s
  | some r =>
    if key < 0x10000 then s.writeGlobal m who key r v
    else if key < 0x100000 then s.writeDie m who key r v
    else s.writeClerk m who key r v

end Sys2Proof.Machine
end

