-- ==== Sys2Proof/Machine/EnvApply.lean ====
section
/-!
DEFINITION. Entries in the format of R436: their checks (R439), the judgement of a countersign (R438), the applying of an
envelope (R440), of a fallback list with its moves (R462 to R464), and of the CONFIG entries of a slice (R459).
-/
namespace Sys2Proof.Machine

/-! ## Which register an entry names (R436, R439) -/

/-- The writer that CONFIG entries act as; it has its own staging and selections. -/
def loaderId : Nat := 133

/-- Has die `d` die-local ports: a sorting die or HUB (R104)? -/
def hasDiePorts (d : Nat) : Bool := d == 0 || isSort d
/-- The die and register key an entry names, and its cause where it names none: 4 SCOPE, 1 NOPORT; 0 where it does. -/
def entryTarget (e : EnvEntry) : Nat × Nat × Nat :=
  let scope := field e.sel 14 2
  let d := field e.sel 11 3
  let c := field e.sel 0 5
  let p := e.port.toNat
  if field e.sel 5 6 ≠ 0 then (4, 0, 0)
  else match scope with
    | 0 =>
      if d ≠ 0 ∨ c ≠ 0 ∨ p < 0x4000 then (4, 0, 0)
      else if (regRow p).isNone then (1, portDie p, p) else (0, portDie p, p)
    | 1 =>
      if c ≠ 0 ∨ p < 0x1000 ∨ 0x4000 ≤ p then (4, 0, 0)
      else if !(hasDiePorts d) || (regRow (dieKey d p)).isNone then (1, d, 0) else (0, d, dieKey d p)
    | 2 =>
      if 0x1000 ≤ p then (4, 0, 0)
      else if !(hasDiePorts d) || (d == 0 && decide (2 ≤ c)) || (regRow (clerkKey (clerkOf d c) p)).isNone then (1, d, 0)
      else (0, d, clerkKey (clerkOf d c) p)
    | _ => (4, 0, 0)
/-- Has the register no bit that an entry may write, or is it one of the CSIGN ports that envelopes may not write? -/
def readOnly (key : Nat) : Bool :=
  match regRow key with
  | none => true
  | some r =>
    r.rw == 0 && r.w1c == 0 && r.cs == 0 && r.wo == 0 || key == Reg.CS_CMD || key == Reg.CS_EIDX || key == Reg.CS_CTL ||
      (decide (Reg.CS_EPUT 0 ≤ key) && decide (key ≤ Reg.CS_EPUT 2)) ||
      (decide (Reg.CS_SIGN 0 ≤ key) && decide (key ≤ Reg.CS_SIGN 3))

/-! ## Rules that a write must keep (R439, cause RULE) -/

/-- A sum of fractions kept as numerator and denominator. -/
def addFrac (a : Nat × Nat) (n d : Nat) : Nat × Nat := (a.1 * d + n * a.2, a.2 * d)
/-- Transfers per µs that one DDR channel makes, by the speed code of DDR_CFG (R408). -/
def ddrSpeed (code : Nat) : Nat := [4000, 4400, 4800, 5200, 5600].getD code 4000
/-- Do the reserve routes time their rounds on AX15 and keep both limits of R446? -/
def State.reserveOk (s : State) : Bool :=
  let rs := (List.range 256).filter fun rt => bit (s.reg (routeKey rt 3)) 14
  let sum := fun (k : Nat) => rs.foldl (fun a rt => addFrac a (s.reg (routeKey rt k)).toNat (s.rtLen rt)) (0, 1)
  let fab := sum 6
  let ddr := sum 7
  let limit := ddrSpeed (field (s.reg Reg.DDR_CFG) 8 3) * s.ddrChans
  rs.all (fun rt => s.rtAxis rt == 15) && decide (fab.1 ≤ 500 * fab.2) && decide (32 * ddr.1 ≤ limit * ddr.2)
/-- Are the routes named by enabled cameras timed on AX15 (R443)? -/
def State.cameraRoutesOk (s : State) : Bool :=
  [0, 1].all fun i => (List.range 16).all fun k =>
    !(s.camEn i k) || (s.rtAxis (s.camRoute i k) == 15 && s.rtAxis (s.camFrameRoute i k) == 15)
/-- Is a route's round length at least the minimum of R44 on its axis? -/
def State.roundOk (s : State) (rt : Nat) : Bool :=
  decide ((if s.rtAxis rt = 15 then 10 else 16) ≤ s.reg2 (routeKey rt 4) (routeKey rt 5))
/-- Are the DDR5 regions apart and below DDR_CAP, and of a kind that exists (R394)? Before the memory is trained only the
first and the last are judged. -/
def State.regionsOk (s : State) : Bool :=
  (List.range 8).all fun k => match s.rgnKind k with
    | none => true
    | some kind =>
      let a := s.rgnBase k
      let n := s.rgnLen k
      decide (kind < 6) && (s.ddrCap == 0 || decide (a + n ≤ s.ddrCap)) &&
        (List.range 8).all fun j => j == k || (s.rgnKind j).isNone ||
          decide (a + n ≤ s.rgnBase j) || decide (s.rgnBase j + s.rgnLen j ≤ a)
/-- May a data window stand as it is: no SHARED window on HUB, and a DDR window that stores wholly in a DATA region (R97,
R394)? -/
def State.windowOk (s : State) (c n : Nat) : Bool :=
  let cfg := s.reg (Reg.CLK_WIN_CFG c n)
  match field cfg 14 2 with
  | 1 => !(isPm c)
  | 2 => !(bit cfg 13) || s.inRegion 4 (s.winBase c n) 4096
  | _ => true
/-- May the instruction window stand as it is (R95)? -/
def State.iwinOk (s : State) (c : Nat) : Bool :=
  let w := s.reg (Reg.CLK_IWIN c)
  decide (1 ≤ field w 8 5) && decide (field w 8 5 ≤ 16) && decide (field w 0 6 + field w 8 5 ≤ 64)
/-- May a slot be bound so: DIR is not 11b, a POP slot names a mailbag of its own die, and no other POP slot names it
(R215)? -/
def State.slotOk (s : State) (c k : Nat) : Bool :=
  match field (s.reg (Reg.SL_CFG c k)) 14 2 with
  | 3 => false
  | 1 =>
    let n := 128 * field (s.reg (Reg.SL_CFG c k)) 7 3 + field (s.reg (Reg.SL_CFG c k)) 0 7
    bagDie n == clerkDie c &&
      (List.range (if isPm c then 2 else 32)).all fun l => (List.range 64).all fun j =>
        let c2 := clerkOf (clerkDie c) l
        (c2 == c && j == k) || s.slotBag c2 j 1 != some n
  | _ => true
/-- May a mailbag's spill stand as it is: no more than 349,525 blocks, wholly in one MBSPILL region (R220, R394)? -/
def State.bagSpillOk (s : State) (n : Nat) : Bool :=
  decide (s.spLen n ≤ 349525) && (s.spLen n == 0 || s.inRegion 2 (s.spBase n) (32 * s.spLen n))

/-- Is no VSORT role named by two rails, and has every sorting die in service a rail (R366)? -/
def State.railsOk (s : State) : Bool :=
  [0, 1, 2, 3].all fun n =>
    let rails := (List.range 8).filter fun k => field (s.reg (Reg.PMB_CFG k)) 0 4 == n + 1
    decide (rails.length ≤ 1) && (!rails.isEmpty || !(s.inService (3 + n)))
/-- Rules judged on the write itself. -/
def State.writeOk (s : State) (who key : Nat) (r : RegRow) (v : Word) : Bool :=
  let i := r.outer (keyPort key)
  let j := r.inner (keyPort key)
  let icuSrcSel := fun (d : Nat) => field (s.selOf who (Reg.ICU_SEL d)) 0 8
  if 0x10000 ≤ key then true
  else match r.base with
    | 0x4130 => decide (field v 0 4 ≤ 0xB)
    | 0x4500 => decide (field v 12 3 ≤ 4)
    | 0x4804 => s.axCfgOk i v
    | 0x4812 => v != 0
    | 0x4816 => i != 15
    | 0x4C03 => s.obSpillOk (s.pairValue who key (v &&& 0x07FF)) (s.reg Reg.OB_SPLEN).toNat
    | 0x4C04 => s.obSpillOk (s.reg2 Reg.OB_SPBASEL Reg.OB_SPBASEH) v.toNat
    | 0x5000 => s.chCfgOk i v
    | 0x5002 => !(s.chEn i) || s.reg key == v
    | 0x5003 => !(s.chEn i) || s.reg key == v
    | 0x5800 => s.zpCfgOk i v
    | 0x5801 => !(s.zpEn i) && decide (50 ≤ v.toNat) && decide (v.toNat ≤ 10000)
    | 0x5802 => !(s.zpEn i) && decide (v.toNat < (s.reg (Reg.ZP_PERIOD i)).toNat)
    | 0x6100 => s.regionOk i v (s.reg (Reg.RG_W i j))
    | 0x6102 => decide (packCount (field (s.reg (Reg.RG_CFG i j)) 13 2) v.toNat (s.frankCfg i (field (s.reg (Reg.RG_CFG i j)) 8 4)).count ≤ 65535)
    | 0x6103 => field v 10 3 == 0 || (decide (3 ≤ field v 10 3) && decide (field v 10 3 ≤ 6))
    | 0x6200 => s.camCfgOk i j v
    | 0x7803 => !((isGpioSrc i (icuSrcSel i) && field v 12 2 == 3) || (i == 0 && decide (2 ≤ field v 0 5)))
    | 0x7807 => field v 12 4 == 0 || field v 0 12 != 0
    | b =>
      if 0x6201 ≤ b ∧ b < 0x6220 ∧ (r.rw ≠ 0 ∨ r.cs ≠ 0) ∧ b ≠ 0x6214 then s.camRegOk i j (key % 0x20) v
      else if 0x7203 ≤ b ∧ b ≤ 0x720B then s.xfState i != 1
      else if 0x8001 ≤ b ∧ b ≤ 0x8004 then (s.bag i).spill.isEmpty || s.reg key == v
      else true
/-- Rules judged on what the write leaves, `u` being the state after it. Of a multi-word value only the word that applies it
is judged. -/
def State.leavesOk (u : State) (who key : Nat) (r : RegRow) : Bool :=
  let i := r.outer (keyPort key)
  if key < 0x10000 then
    (match r.base with
      | 0x4130 => u.railsOk
      | 0x4403 => u.reserveOk && u.cameraRoutesOk
      | 0x4405 => u.roundOk (field (u.selOf who Reg.PST_SEL) 0 8) && u.reserveOk
      | 0x4406 => u.reserveOk
      | 0x4407 => u.reserveOk
      | 0x620D => u.cameraRoutesOk
      | 0x6910 => u.regionsOk
      | 0x6911 => u.regionsOk
      | 0x6913 => u.regionsOk
      | 0x8002 => u.bagSpillOk i
      | 0x8004 => u.bagSpillOk i
      | _ => true)
  else if key < 0x100000 then true
  else
    (match r.base with
      | 0x108 => u.slotOk (keyOwner key) i
      | 0x500 => u.windowOk (keyOwner key) i
      | 0x502 => u.windowOk (keyOwner key) i
      | 0x520 => u.iwinOk (keyOwner key)
      | _ => true)
/-- Does a write keep every rule stated for its register (R439)? -/
def State.ruleOk (s : State) (m : WMode) (who key : Nat) (v : Word) : Bool :=
  match regRow key with
  | none => false
  | some r => s.writeOk who key r v && (s.writeKey m who key v).leavesOk who key r

/-- The cause with which an entry fails the checks of R439; 0 where it passes. With several, the first of SCOPE, NOPORT,
READONLY, DIEOUT, RULE (DESIGN CHOICE, log 22). -/
def State.entryCause (s : State) (e : EnvEntry) : Nat :=
  let t := entryTarget e
  if t.1 ≠ 0 then t.1
  else if readOnly t.2.2 then 2
  else if !(s.inService t.2.1) then 5
  else if !(s.ruleOk .envelope envelopeId t.2.2 e.data) then 3
  else 0
/-- Applies an entry as a writer. -/
def State.applyEntry (s : State) (m : WMode) (who : Nat) (e : EnvEntry) : State :=
  s.writeKey m who (entryTarget e).2.2 e.data
/-- Does an entry write a rail's PMB_CFG? -/
def EnvEntry.setsRail (e : EnvEntry) : Bool :=
  (entryTarget e).1 == 0 && (List.range 8).any fun k => (entryTarget e).2.2 == Reg.PMB_CFG k
/-- The cause of an entry within an envelope whose later entries are `rest`: what the rails leave is judged at the last entry that
writes one, since the rule speaks of the envelope (R366; log 22). -/
def State.causeAmid (s : State) (rest : List EnvEntry) (e : EnvEntry) : Nat :=
  let c := s.entryCause e
  if c = 3 ∧ e.setsRail ∧ rest.any EnvEntry.setsRail ∧ field e.data 0 4 ≤ 0xB then 0 else c
/-- The first failing entry, with its cause and number; each is judged against the values that the earlier ones leave. -/
def State.firstFailing (s : State) : List EnvEntry → Nat → Option (Nat × Nat)
  | [], _ => none
  | e :: t, n =>
    let c := s.causeAmid t e
    if c ≠ 0 then some (c, n) else (s.applyEntry .envelope envelopeId e).firstFailing t (n + 1)
/-- Empties a writer's staging and selections. -/
def State.freshWriter (s : State) (who : Nat) : State :=
  { s with stage := s.stage.drop fun k => k / 2 ^ 32 == who, sels := s.sels.drop fun k => k / 2 ^ 32 == who }

/-! ## Countersign and apply (R438, R440) -/

/-- CS_SIGN3: a countersign is presented, and judged by the first matching row of R438. -/
def State.csSign (s : State) (who : Nat) (v : Word) : State :=
  let nonce := (s.staged who (Reg.CS_SIGN 0) 0).toNat + 65536 * (s.staged who (Reg.CS_SIGN 1) 0).toNat
  let code := (s.staged who (Reg.CS_SIGN 2) 0).toNat + 65536 * v.toNat
  let s1 := s.clearStage who (Reg.CS_SIGN 0) 4
  let e := s1.envelope
  if e.used.contains nonce then s1.csReject Reg.CS_REPLAY
  else if e.state ≠ .sealedFor ∨ nonce ≠ s1.csNonce then s1.csReject Reg.CS_BADNONCE
  else if e.author = who then s1.csReject Reg.CS_SAMEPARTY
  else if code ≠ e.code then (s1.csReject Reg.CS_REJECTED).csEnd 0x3000
  else match (s1.freshWriter envelopeId).firstFailing e.entries 0 with
    | some (cause, n) => (s1.bump Reg.CS_REFUSED).csEnd (0x2000 + cause * 512 + n)
    | none => { s1 with envelope := { e with state := .applying } }
/-- The entries that name die `d`, applied in order as one update. -/
def State.applyOn (s : State) (d : Nat) (es : List EnvEntry) : State :=
  (es.filter fun e => (entryTarget e).2.1 == d).foldl (fun t e => t.applyEntry .envelope envelopeId e) s
/-- ENVELOPE_APPLY: every die in service applies its entries; PARTIAL where a named die is out (R440). -/
def State.envelopeApply (s : State) : State :=
  let e := s.envelope
  if e.state ≠ .applying then s
  else
    let named := (List.range 8).filter fun d => e.entries.any fun x => (entryTarget x).2.1 == d
    let s1 := (named.filter s.inService).foldl (fun t d => t.applyOn d e.entries) (s.freshWriter envelopeId)
    let s2 := (s1.freshWriter envelopeId).bump Reg.CS_APPLIED
    match named.find? fun d => !(s.inService d) with
    | some d => s2.csEnd (0x6000 + d * 64)
    | none => s2.csEnd 0x1000

/-! ## Fallback lists and moves (R462 to R464) -/

/-- The mailbags that a MOVE entry names, source and destination; none where a field that must be zero is not, or a die it names has no
mailbags or is not in service (R461, R462). -/
def State.moveOf (s : State) (e : Word × Word × Word) : Option (Nat × Nat) :=
  let src := 128 * field e.1 11 3 + field e.2.1 0 7
  let dst := field e.2.2 0 10
  let serves := fun (n : Nat) => hasDiePorts (bagDie n) && s.inService (bagDie n)
  if field e.1 0 11 = 0 ∧ field e.2.1 7 9 = 0 ∧ field e.2.2 10 6 = 0 ∧ serves src ∧ serves dst then some (src, dst) else none
/-- Applies one entry of a list: a MOVE joins the moves to perform where moves may be made, or is skipped and counted; another entry is
checked and applied, or skipped and counted. -/
def State.fallbackEntry (s : State) (moves : Bool) (e : Word × Word × Word) : State :=
  if field e.1 14 2 = 3 then
    (if !moves then s
     else match s.moveOf e with
       | some m => { s with moves := s.moves ++ [(m.1, m.2, s.now)] }
       | none => s.bump Reg.IMG_FBSKIP)
  else
    let x : EnvEntry := { sel := e.1, port := e.2.1, data := e.2.2 }
    if s.entryCause x ≠ 0 then s.bump Reg.IMG_FBSKIP else s.applyEntry .envelope envelopeId x
/-- HUB applies the OUT or BACK list of a die (R462). -/
def State.applyList (s : State) (d : Nat) (out moves : Bool) : State :=
  ((s.fallback d out).foldl (fun t e => t.fallbackEntry moves e) (s.freshWriter envelopeId)).freshWriter envelopeId
/-- Is the start-up sequence running (R475)? -/
def State.starting (s : State) : Bool :=
  match s.phase with
  | .starting _ => true
  | _ => false
/-- The lists that HUB owes are applied, once no envelope is APPLYING; those of start-up wait for J10 (R462, R464, R482). -/
def State.runFallback (s : State) : State :=
  if s.fbPend.isEmpty ∨ s.envelope.state = .applying ∨ s.starting then s
  else s.fbPend.foldl (fun t p => t.applyList p.1 p.2 true) { s with fbPend := [] }

/-- The ordinary visible sheets of a mailbag in order: head, spill, tail (R198, R463). -/
def State.ordinarySheets (s : State) (n : Nat) : List BagItem :=
  let b := s.bag n
  let spilled := (b.spill.map fun x => (s.savedItems n x).filter fun p => !p.1.removed && p.2.2).flatten.map
    fun p => p.2.1
  (b.head ++ spilled ++ b.tail).filter fun i => i.tag == 0
/-- The spill of a mailbag is read for a MOVE: an ordinary sheet that fails its checks is dropped, and a bad block counts in the fault window
of the die's store (R210, R211, R463). -/
def State.readForMove (s : State) (n : Nat) : State :=
  (s.bag n).spill.foldl (fun t blk =>
    let u := t.ddrDemand (s.blockAddr n blk.idx) 32 false
    let v := if s.blockGood n blk then u else u.faultEvent 2 (bagDie n)
    (s.savedItems n blk).foldl (fun w p => if p.1.removed || p.2.2 || p.2.1.tag != 0 then w else w.dropEcc n p.2.1) v) s
/-- A MOVE is performed: the sheets go ahead of every sheet of the destination, as far as its capacity takes them (R463). -/
def State.moveSheets (s : State) (src dst : Nat) : State :=
  let items := s.ordinarySheets src
  let room := s.bagCap dst - (s.bag dst).held
  let s1 := (s.readForMove src).setBag src (s.bag src).flush
  let s2 := s1.setBag dst { s1.bag dst with head := items.take room ++ (s1.bag dst).head }
  (items.drop room).foldl (fun t i => t.dropFull dst i) (s2.markHigh dst)
/-- MOVE: a move that a list calls for is performed once its source holds no draft and no retained copy, or after IMG_DRAINT; those of a
repair's OUT list are K5's (R463, R465). -/
def State.move (s : State) (src dst : Nat) : State :=
  match s.moves.find? fun m => m.1 == src && m.2.1 == dst with
  | none => s
  | some (_, _, t0) =>
    let b := s.bag src
    let quiet := b.retained.isEmpty && b.drafts == 0
    let early := s.repair.isSome && s.rpStep == 4 && bagDie src == s.rpDie
    if !early && (quiet || decide (t0 + max 1 (s.reg Reg.IMG_DRAINT).toNat * 200000 ≤ s.now)) then
      ({ s with moves := dropFirst (fun m => m.1 == src && m.2.1 == dst) s.moves }).moveSheets src dst
    else s

/-! ## CONFIG entries (R459) -/

/-- The cause with which a CONFIG entry of die `d`'s slice fails; 0 where it passes. DDR_CFG and DDR_ORG are read-only but
for the image, whose value they take (R408, log 23). -/
def State.configCause (s : State) (d : Nat) (e : EnvEntry) : Nat :=
  let t := entryTarget e
  let image := t.2.2 == Reg.DDR_CFG || t.2.2 == Reg.DDR_ORG
  if t.1 ≠ 0 then t.1
  else if t.2.1 ≠ d then 4
  else if image then 0
  else if readOnly t.2.2 then 2
  else if !(s.ruleOk .load loaderId t.2.2 e.data) then 3
  else 0
/-- One CONFIG entry is loaded: it raises no event, no interrupt source and no parcel (R459). -/
def State.loadEntry (s : State) (e : EnvEntry) : State :=
  let k := (entryTarget e).2.2
  if k = Reg.DDR_CFG then s.setReg k (e.data &&& 0x070F)
  else if k = Reg.DDR_ORG then s.setReg k (e.data &&& 0xF000)
  else { s.applyEntry .load loaderId e with msgs := s.msgs, routers := s.routers, links := s.links, globalEvs := s.globalEvs }
/-- The CONFIG entries of a die, in order; none where one fails. -/
def State.loadConfig (s : State) (d : Nat) : List (Word × Word × Word) → Option State
  | [] => some (s.freshWriter loaderId)
  | (a, b, c) :: t =>
    let e : EnvEntry := { sel := a, port := b, data := c }
    if s.configCause d e ≠ 0 then none else (s.loadEntry e).loadConfig d t

end Sys2Proof.Machine
end

