-- ==== Sys2Proof/Machine/Ports.lean ====
section
/-!
DEFINITION. A port access from its requester to its block: who may make it (R102, R104, R428 to R434 and each block's writer
rule), the parcel that carries it (R106, R248, R262, R263), and what the requester sees.
-/
namespace Sys2Proof.Machine

/-! ## Writes at a global block -/

/-- The CSIGN ports that a plain write acts through (R435 to R438, R447). -/
def State.csignWrite (s : State) (who port : Nat) (v : Word) : State :=
  match port with
  | 0x4301 =>
    (match field v 0 2 with
      | 1 => s.csOpen who
      | 2 => s.csSeal who
      | 3 => s.csAbort who
      | _ => s)
  | 0x4306 => s.putStage who port v
  | 0x4307 => s.putStage who port v
  | 0x4308 => s.csPut who v
  | 0x430D => s.putStage who port v
  | 0x430E => s.putStage who port v
  | 0x430F => s.putStage who port v
  | 0x4310 => s.csSign who v
  | 0x4321 => if bit v 15 then s.csClrcnt else s
  | _ => s.writeKey .plain who port v
/-- A write by a sorting clerk: only the exceptions of R432, each where the permission table covers it; of a multi-word value
the lower words stage, and the word that applies it is judged (R433). -/
def State.sortingWrite (s : State) (who port : Nat) (v : Word) : State :=
  let judge := fun (kind index : Nat) =>
    if s.permitted who kind index then s.writeKey .plain who port v else s.portViolation who true port
  match mbData port with
  | some (n, lane) => if lane < 7 then s.writeKey .plain who port v else judge 0 n
  | none =>
    if 0x6000 ≤ port ∧ port < 0x6800 ∧ 0x100 ≤ port % 0x400 ∧ port % 0x400 < 0x200 ∧ port % 4 = 1 then s.writeKey .plain who port v
    else if 0x6000 ≤ port ∧ port < 0x6800 ∧ 0x100 ≤ port % 0x400 ∧ port % 0x400 < 0x200 ∧ port % 4 = 2 then
      judge 2 (64 * ((port - 0x6000) / 0x400) + (port % 0x400 - 0x100) / 4)
    else if port = Reg.HOST_SSEL then judge 3 (field v 8 6)
    else if port = Reg.HOST_SDONEL then s.writeKey .plain who port v
    else if port = Reg.HOST_SDONEH then judge 3 (field v 0 6)
    else if Reg.HOST_SDATA 0 ≤ port ∧ port ≤ Reg.HOST_SDATA 7 then judge 3 (field (s.ssel who) 8 6)
    else s.portViolation who true port
/-- A write of a global port has reached its block: a reserved port ignores it; HOST, PM0 and PM1 write every block, a sorting
clerk only what R432 lets it (R102, R433). -/
def State.globalWrite (s : State) (who port : Nat) (v : Word) : State :=
  if !s.live ∨ (regRow port).isNone then s
  else if isParty who then
    (if 0x4300 ≤ port ∧ port < 0x4400 then s.csignWrite who port v else s.writeKey .plain who port v)
  else if who < 128 then s.sortingWrite who port v
  else s.portViolation who true port

/-! ## Travel (R106, R248, R250, R262, R263) -/

/-- Why a port access from die `a` cannot be delivered: a page of a die without an ICU is dropped too (R344). -/
def State.portFault (s : State) (a port : Nat) : Option Nat :=
  if 0x7800 ≤ port ∧ port < 0x8000 ∧ !(hasIcu (portDie port)) then some 5 else s.undeliverable a (portDie port)
/-- Capture words of a port access's parcel: PORTW with the port in lane 0 and the word in lane 1, or, for a sheet, PORTS with port bits
7:3 in AUX and the sheet in its lanes (R248, R249, R491). A read carries no data. -/
def portWords (who port n : Nat) (wr : Bool) (vs : List Word) : List Word :=
  let d := portDie port
  if n = 8 then
    parcelWords (postcode d 7 (port / 256)) (originWord who wr (port / 8 % 32)) (Sheet.ofList vs)
  else parcelWords (postcode d 6 (port / 256)) (originWord who wr 0) (lanes4 (word port) (vs.headD 0) 0 0)
/-- A write of `who` travels to the block of `port` and is performed there by `f`; a router that cannot deliver it drops it
as a dead letter, and `g` is what the requester sees (R262, R263). -/
def State.travel (s : State) (who port : Nat) (vs : List Word) (f g : State → State) : State :=
  let a := requesterDie who
  match s.portFault a port with
  | some cause => g (s.dropParcel cause a (portDie port) (portWords who port vs.length true vs))
  | none => f (s.passRoute a (portDie port))
/-- A write of a global port by `who`, from its parcel to its effect. -/
def State.sendWrite (s : State) (who port : Nat) (v : Word) : State :=
  s.travel who port [v] (fun t => t.globalWrite who port v) (fun t => t)
/-- The request of such a read reaches the port's die, whose port unit performs it (R251); a router may drop it (R263). -/
def State.readRequest (s : State) (who port : Nat) (quiet : Bool) : Word × State × Bool :=
  let a := requesterDie who
  match s.portFault a port with
  | some cause => (0, s.dropParcel cause a (portDie port) (portWords who port 1 false []), true)
  | none =>
    let x := (s.passRoute a (portDie port)).readReg who port quiet
    (x.1, x.2, false)
/-- A read of a global port by `who`: the word, the state, and whether the reply carries ERR (R263). A denied or undelivered
read returns 0000h. -/
def State.globalRead (s : State) (who port : Nat) (quiet : Bool) : Word × State × Bool :=
  let x := s.readRequest who port quiet
  if x.2.2 then x else (x.1, x.2.1.passRoute (portDie port) (requesterDie who), false)

/-! ## Clerk-local and die-local ports (R102 to R104) -/

/-- May a clerk in TASK mode write the clerk-local port: a slot port or an epoch port? -/
def taskMayWrite (port : Nat) : Bool :=
  (decide (0xE0 ≤ port) && decide (port ≤ 0xFF)) || (decide (0x100 ≤ port) && decide (port ≤ 0x4FF))
/-- Key of a port below 4000h as clerk `c` reaches it. -/
def nearKey (c port : Nat) : Nat := if port < 0x1000 then clerkKey c port else dieKey (clerkDie c) port
/-- A write of a clerk-local or die-local port by clerk `c`, in SUPERVISOR or not. -/
def State.nearWriteAs (s : State) (sup : Bool) (c port : Nat) (v : Word) : State :=
  let key := nearKey c port
  if (regRow key).isNone then s
  else if sup || (decide (port < 0x1000) && taskMayWrite port) then s.writeKey .plain c key v
  else s.portViolation c true port
/-- A write of a clerk-local or die-local port by clerk `c`, in the mode it runs in. -/
def State.nearWrite (s : State) (c port : Nat) (v : Word) : State := s.nearWriteAs (s.clerk c).sup c port v
/-- A read of a clerk-local or die-local port by clerk `c`. -/
def State.nearRead (s : State) (c port : Nat) (quiet : Bool) : Word × State :=
  let key := nearKey c port
  if (regRow key).isNone then (0, s)
  else if (s.clerk c).sup || decide (port < 0x1000) then s.readReg c key quiet
  else (0, s.portViolation c false port)

/-! ## Rows that stand for one register write -/

/-- A write by `who` that reaches its block and does `f` there, where `who` is one of the block's writers. -/
def State.fromParty (s : State) (who port : Nat) (f : State → State) : State :=
  s.travel who port [0] (fun t => t.byParty who port f) (fun t => t)
/-- REGISTER_WRITE: the write of any port by any requester (R4, R6, R102); a clerk's own ports lie within it. -/
def State.registerWrite (s : State) (who : Nat) (port v : Word) : State :=
  let p := port.toNat
  if 0x4000 ≤ p then s.sendWrite who p v
  else if who < 130 ∧ s.live then s.nearWrite who p v
  else s

end Sys2Proof.Machine
end

