-- ==== Sys2Proof/Machine/HostPort.lean ====
section
/-!
DEFINITION. The host's accesses as they are performed: each waits for a stamp of HOST_CFG.ROUTE, and all go in order (R411 to
R414, R422, R445).
-/
namespace Sys2Proof.Machine

/-- The bytes of a DWORD, low byte first. -/
def dwordBytes (v : BitVec 32) : List (BitVec 8) := (List.range 4).map fun i => BitVec.ofNat 8 (v.toNat / 2 ^ (8 * i))
/-- Resource class that an access is charged in: fabric, DDR, or none (R412, R413, R442). -/
def HostAcc.cls : HostAcc → Option Nat
  | .portWrite _ _ => some 0
  | .portRead _ => some 0
  | .notice _ _ => some 0
  | .burstWrite _ _ => some 1
  | .burstRead _ _ => some 1
  | .boxRead _ => none
  | .complete => none
/-- A part joins the completions that are being gathered. -/
def State.gatherPart (s : State) (x : HostPart) : State := { s with hostOut := s.hostOut ++ [x] }
/-- Bytes join them. -/
def State.gather (s : State) (bs : List (BitVec 8)) : State := s.gatherPart (.data bs false)
/-- The bytes of the first completion, and whether a part of it is poisoned, with what stands behind it; none while a reply that it
needs has still to come. -/
def firstCpl : List HostPart → Option (List (BitVec 8) × Bool × List HostPart)
  | [] => none
  | .await _ :: _ => none
  | .last :: r => some ([], false, r)
  | .data bs p :: r => (firstCpl r).map fun x => (bs ++ x.1, p || x.2.1, x.2.2)
/-- Completions that are whole are sent, at most `n` of them; one that is poisoned counts in HOST_UE (R414). -/
def State.sendCpls (s : State) : Nat → State
  | 0 => s
  | n + 1 =>
    match firstCpl s.hostOut with
    | none => s
    | some (bs, p, r) =>
      let s1 : State := { s with hostCpl := some { ur := false, poisoned := p, bytes := bs }, hostOut := r }
      (if p then s1.hostUe else s1).sendCpls n
/-- Every completion that is whole is sent. -/
def State.sendReady (s : State) : State := s.sendCpls s.hostOut.length
/-- The data of a port read: its DWORD, or 0000_0000h counted in HOST_PORTERR where the reply carries ERR (R411, R412). -/
def State.portData (s : State) (v : Word) (err : Bool) : State × HostPart :=
  if err then (s.bump Reg.HOST_PORTERR, .data (dwordBytes 0) false) else (s, .data (dwordBytes (BitVec.ofNat 32 v.toNat)) false)
/-- The first part that awaits a reply from die `d` becomes `x`. -/
def fillAwait (d : Nat) (x : HostPart) : List HostPart → List HostPart
  | [] => []
  | .await e :: r => if e = d then x :: r else .await e :: fillAwait d x r
  | y :: r => y :: fillAwait d x r
/-- GLOBAL_PORT_READ_REPLY for the host: replies from one die answer its reads in the order they were sent (R251, R263, R412). -/
def State.hostReplied (s : State) (err : Bool) : State :=
  s.take (fun m => match m with
      | .portReply who _ _ _ => who == hostId
      | _ => false) fun m u =>
    match m with
    | .portReply _ d vals e =>
      let x := u.portData (vals.headD 0) (err || e)
      ({ x.1 with hostOut := fillAwait d x.2 x.1.hostOut }).sendReady
    | _ => u
/-- A read of port `p` by the host: performed by its die's port unit as the request arrives; the reply of another die comes later (R251,
R412). -/
def State.hostPortRead (s : State) (p : Nat) : State :=
  let d := portDie p
  let x := if d = 0 then s.globalRead hostId p false else s.readRequest hostId p false
  if x.2.2 || d == 0 then
    let y := x.2.1.portData x.1 x.2.2
    y.1.gatherPart y.2
  else (x.2.1.launch (.portReply hostId d [x.1] false)).gatherPart (.await d)
/-- One access is performed. -/
def State.hostDo (s : State) (a : HostAcc) : State :=
  match a with
  | .portWrite p v => s.sendWrite hostId p v
  | .portRead p => s.hostPortRead p
  | .boxRead i => s.gather (dwordBytes (s.boxWord i))
  | .burstWrite b xs => s.burstBytes b xs
  | .burstRead b n =>
    let u := s.ddrDemand (b / 2) ((b % 2 + n + 1) / 2) false
    if s.ddrUe (b / 2) ((b % 2 + n + 1) / 2) then u.gatherPart (.data (List.replicate n 0) true)
    else u.gather ((List.range n).map fun i => s.ddrByte (b + i))
  | .complete => (s.gatherPart .last).sendReady
  | .notice box x => s.pushFrom 0 box (ordinary x)
/-- Performs waiting accesses in order until one lacks a stamp; at most `n` of them. -/
def State.drainHostN (s : State) : Nat → State
  | 0 => s
  | n + 1 =>
    match s.hostQ with
    | [] => s
    | a :: t =>
      match a.cls with
      | none => (({ s with hostQ := t }).hostDo a).drainHostN n
      | some cls =>
        if s.hasStamp 0 s.hostRoute cls then
          ((({ s with hostQ := t }).takeStamp 0 s.hostRoute cls).hostDo a).drainHostN n
        else s.noteWait s.hostRoute cls
/-- Performs what the host's route lets through. -/
def State.drainHost (s : State) : State := s.drainHostN s.hostQ.length

/-- A read that the endpoint completes as an Unsupported Request. -/
def State.urCpl (s : State) : State := { s with hostCpl := some { ur := true, poisoned := false, bytes := [] } }
/-- BAR0_TLP (R411); in D3hot a BAR is not reached: a write is lost, a read completes as an Unsupported Request (R409; log 21). -/
def State.bar0Tlp (s : State) (dw : Nat) (op : Bar0Op) : State :=
  if s.barOpen then (s.inL0.bar0Queue dw op).drainHost
  else if s.linkTrained then (match op with
    | .write _ _ => s.inL0
    | .read _ => s.inL0.urCpl)
  else s
/-- BAR4_TLP (R409, R413, R414). -/
def State.bar4Tlp (s : State) (byte : Nat) (op : Bar4Op) : State :=
  if s.barOpen then (s.inL0.bar4Queue byte op).drainHost
  else if s.linkTrained then (match op with
    | .write _ => s.inL0
    | .read _ => s.inL0.urCpl)
  else s
/-- Does BAR2 hold the pigeonholes, reached by the host (R409, R418, R456)? -/
def State.holesOpen (s : State) : Bool := s.barOpen && !(s.hostBoot && s.phase != .awake)
/-- A write of the host to the pigeonhole pages acts by `f`, where they are reached; on a trained link it is traffic in any case. -/
def State.reachHoles (s : State) (f : State → State) : State :=
  if s.holesOpen then f s.inL0 else if s.linkTrained then s.inL0 else s
/-- PH_SUBMIT, with the notice of an accepted command (R421, R422). -/
def State.submit (s : State) (p : Nat) : State := s.reachHoles fun t => (t.phSubmit p).drainHost
/-- PH_COLLECT (R424). -/
def State.collect (s : State) (p : Nat) : State := s.reachHoles fun t => t.phCollect p
/-- What the DWORDs of a write of BAR2 from word `w` set off, in address order: PH_SUBMIT and PH_COLLECT (R418). -/
def State.bar2Acts : Nat → List Word → State → State
  | w, lo :: hi :: r, s =>
    let p := w / 2048
    let s1 := if bit lo 0 ∧ w % 2048 = 1016 then s.submit p else if bit lo 0 ∧ w % 2048 = 1018 then s.collect p else s
    State.bar2Acts (w + 1) (hi :: r) s1
  | _, _, s => s
/-- BAR2_WRITE: the load window's words, or those of request areas and what a DWORD at 7F0h or 7F4h sets off (R418, R456). -/
def State.bar2Tlp (s : State) (w : Nat) (ws : List Word) : State :=
  let t := s.reachHoles fun u => State.bar2Acts w (ws.take (131072 - w)) (u.bar2Access w ws)
  if s.holesOpen then t else t.bar2Access w ws

/-- PERST_N_FALL: the link part, the host's envelope, and a host load in progress, whose pieces so far are discarded (R425,
R441, R456). -/
def State.perstFall (s : State) : State :=
  let s1 := s.perstDown.csPerst
  { s1 with hostLoad := { got := 0, last := false, err := s1.hostLoad.err },
            phase := if s1.hostBoot && s1.phase == .starting 4 then .starting 3 else s1.phase }

end Sys2Proof.Machine
end

