-- ==== Sys2Proof/Machine/Reset.lean ====
section
/-!
DEFINITION. A die reset, the configuration of a die from its slice, its bring-up, and the reset of the whole device
(spec 18, R458 to R460; R90, R194, R218, R265, R347, R355, R473, R507).
-/
namespace Sys2Proof.Machine

/-! ## Which state lies on a die -/

/-- Is the register of key `k` on die `d` (R7, R104, R250)? -/
def dieOwns (d k : Nat) : Bool :=
  if k < 0x4000 then false
  else if k < 0x10000 then portDie k == d
  else if k < 0x100000 then keyOwner k == d
  else if k < 0x200000 then clerkDie (keyOwner k) == d
  else if k < 0x300000 then (k - 0x200000) / 0x1000 == d
  else d == 0
/-- The power domains of die `d` (R349). -/
def dieDomains (d : Nat) : List Nat :=
  if isSort d then (List.range 11).map fun i => 11 * (d - 3) + i
  else match d with
    | 0 => [50, 51, 52, 53]
    | 1 => [44, 45, 46]
    | 2 => [47, 48, 49]
    | _ => [54, 55]
/-- Does a message in flight end on die `d`? -/
def Msg.endsOn (m : Msg) (d : Nat) : Bool :=
  match m with
  | .localEv e _ _ => e == d
  | .globalEv e _ _ _ => e == d
  | .portReply who _ _ _ => decide (who < 130) && clerkDie who == d
  | .recallHalt c => clerkDie c == d
  | _ => match m.route with
    | some (_, b) => b == d
    | none => false

/-! ## Die reset (R460) -/

/-- The links of die `d` go DOWN, but for one in FAULT or QUARANTINE: what they carry is flushed. A quarantined one may be exchanged
anew after this reset (R259, R260, R266). -/
def State.dieLinksDown (s : State) (d : Nat) : State :=
  (linksOf d).foldl (fun t l =>
    match (t.link l).state with
    | .fault => t
    | .quarantine => t.modLink l fun x => { x with again := true, tries := 0, retryAt := none }
    | _ => (t.setLinkState l .down).modLink l fun x => { x with retrain := false, retryAt := none }) s
/-- The domains of a die go off (R465, K6). -/
def State.dieDomainsOff (s : State) (d : Nat) : State :=
  (dieDomains d).foldl (fun t n => { t.setDom n false with holdOff := t.holdOff.erase n }) s
/-- What a sorting die holds is lost: its clerks in the state of R90, its mailbags empty, its ICU and replicas reset, its
private and shared stores blank; the code store keeps its lines until it is configured (R90, R218, R347). -/
def State.clearSorting (s : State) (d : Nat) : State :=
  let stores := fun (k : Nat) =>
    (decide (privKey (clerkOf d 0) 0 ≤ k) && decide (k < privKey (clerkOf d 0) 0 + 0x200000)) ||
      (decide (sharedKey d 0 ≤ k) && decide (k < sharedKey d 0x200000))
  { s with mem := s.mem.drop stores, clerks := s.clerks.drop (fun c => clerkDie c == d),
           lineCaches := s.lineCaches.drop fun e => e / 8 == d,
           replicas := s.replicas.drop fun e => e / 16 == d }
/-- What an intake die holds is lost: cameras, control channel and correction store. -/
def State.clearIntake (s : State) (d : Nat) : State :=
  let i := d - 1
  { s with mem := s.mem.drop (fun k => decide (corrKey d 0 ≤ k) && decide (k < corrKey (d + 1) 0)),
           cams := s.cams.drop fun e => e / 16 == i, ccChans := s.ccChans.erase i, rgGap := s.rgGap.drop fun e => e / 64 == i }
/-- What DISPATCH holds is lost: axes but for AX15, epoch table, outbox, firing channels and Zegen ports; the levels at its
input pins are not its state (R23, R32). -/
def State.clearDispatch (s : State) : State :=
  { s with axes := [], epochs := [], outbox := .reset, chans := [], zports := [], znodes := [], bcLast := none, bePause := none,
           pads := [],
           fe := { FireEng.reset with aLow := s.fe.aLow, bLow := s.fe.bLow, gpioIn := s.fe.gpioIn, gate := s.fe.gate } }
/-- A die's reset is asserted: its links go down, its domains off, and its state is lost but for sticky bits; the reset is
recorded (R6, R194, R218, R460, R492). Registers on HUB that describe the die keep their values. -/
def State.clearDie (s : State) (d : Nat) : State :=
  let s1 := (s.dieLinksDown d).dieDomainsOff d
  let s2 := (s1.loseRegs (dieOwns d)).dropMsgs fun m => m.endsOn d && (s1.spot m).isNone
  let mine := fun (k : Nat) => (k / 2 ^ 32 < 130 && clerkDie (k / 2 ^ 32) == d) || dieOwns d (k % 2 ^ 32)
  let s3 : State := { s2 with
    snaps := s2.snaps.drop mine, stage := s2.stage.drop mine, sels := s2.sels.drop mine,
    bags := s2.bags.drop fun b => bagDie b == d,
    arrivals := s2.arrivals.erase d, icu := s2.icu.drop fun e => e / 256 == d,
    meters := s2.meters.drop (fun k => k / 512 == d), served := s2.served.drop fun k => k / 512 == d }
  let s4 := if isSort d then s3.clearSorting d else if isIntake d then s3.clearIntake d else if d = 7 then s3.clearDispatch else s3
  let s5 := (s4.endLasting 2 d).modDie d fun _ => { Die.reset with mode := (s4.die d).mode, refSkew := if isIntake d then 0 - s.ax15 else 0 }
  let s6 := (List.range (crossingCount d)).foldl (fun t i => t.crossingReset d i) s5
  (if isSort d then s6.send (.recallDie d) else s6).logFault (0x4000 + d) 0 0 0

/-! ## Reading a slice (R458) -/

/-- Words of slice `d`. -/
def State.sliceWords (s : State) (b d : Nat) : Nat := s.sliceLen b d / 2
/-- Bursts of slice `d` in bank `b`. -/
def State.sliceBursts (s : State) (b d : Nat) : Nat := (s.sliceWords (s.bankKey b) d + 31) / 32
/-- Uncorrectable bursts among the words of a slice in the bank at M: word `a`. -/
def State.badBursts (s : State) (a n : Nat) : List Nat := s.ddrBad.filter fun u => decide (a / 32 ≤ u) && decide (u * 32 < a + n)
/-- The loader reads slice `d` from bank `b`: 0, or cause 1 READ or 2 DIGEST. Uncorrectable bursts are counted, and taken
from flash where the image came from it and flash still holds the slice. -/
def State.readSlice (s : State) (b d : Nat) : State × Nat :=
  let k := s.bankKey b
  let a := k + s.sliceOff k d - ddrKey 0
  let n := s.sliceWords k d
  let bad := s.badBursts a n
  let s0 := s.ddrDemand a n false
  let s1 := if bad.isEmpty then s0 else s0.bumpBy Reg.IMG_RDERR bad.length
  let flashOk := s.fromFlash && decide (sha256 (s.peeks (flashKey (s.sliceOff k d)) n) = s.sliceDigest k d)
  if !bad.isEmpty && !flashOk then (s1, 1)
  else
    let s2 := bad.foldl (fun (t : State) u =>
      { t.copyWords (flashKey (u * 32 - (k - ddrKey 0))) (ddrKey (u * 32)) 32 with ddrBad := t.ddrBad.filter (· != u) }) s1
    (s2, if s2.digestOk k d then 0 else 2)

/-! ## Configuring a die (R459, R507) -/

/-- Is the pad index in the table of the PADS section (R507)? -/
def padIndexOk (i : Nat) : Bool :=
  decide (i < 0x38) || (decide (0x100 ≤ i) && decide (i < 0x140)) || (decide (0x140 ≤ i) && decide (i < 0x16A))
/-- Is a list of pad entries well-formed: known indices, none twice, no reserved bit or pull? -/
def padsOk : List (Word × Word) → Bool
  | [] => true
  | (i, v) :: t => padIndexOk i.toNat && !(t.any fun e => e.1 == i) && v &&& 0x01FF == 0 && field v 13 2 != 3 && padsOk t
/-- PADS: only DISPATCH's slice holds entries. -/
def State.loadPads (s : State) (d : Nat) (ws : List Word) : Option State :=
  if d ≠ 7 then (if ws.isEmpty then some s else none)
  else if ws.length % 2 = 0 ∧ padsOk (pairsOf ws) then
    some { s with pads := (pairsOf ws).foldl (fun (t : Tbl Word) e => t.set e.1.toNat e.2) [] }
  else none
/-- FABRIC: the link from the die toward every die that the image has a slice for (R451, R452). -/
def State.loadFabric (s : State) (k d : Nat) : Option State :=
  if s.fabricOk k d then
    let es := (List.range 8).filter fun e => e != d && s.hasSlice k e
    some { s with routes := es.foldl (fun (t : Tbl Nat) e => t.set (8 * d + e) (((s.imageRoute k e 3 d).getD []).headD 0)) s.routes }
  else none
/-- One DATA section: a target, a zero word, a word address, and the words (R451). -/
def State.loadData (s : State) (d : Nat) (ws : List Word) : Option State :=
  match ws with
  | t :: z :: lo :: hi :: vs =>
    let a := lo.toNat + 65536 * hi.toNat
    if z ≠ 0 ∨ 0x200000 < a + vs.length then none
    else if t = 0 ∧ isSort d then some (s.pokes (sharedKey d a) vs)
    else if t = 1 ∧ isIntake d then some (s.pokes (corrKey d a) vs)
    else none
  | _ => none
/-- The DATA sections in order. -/
def State.loadDatas (s : State) (k d : Nat) : List Section → Option State
  | [] => some s
  | x :: t =>
    if x.ty = 5 then (match s.loadData d (s.content k x) with
      | none => none
      | some u => u.loadDatas k d t)
    else s.loadDatas k d t
/-- The runs of a CODE section: a 32-bit first line, a line count, a zero word, then 16 words a line. -/
def State.loadRuns (s : State) (d : Nat) : Nat → List Word → Option State
  | 0, _ => none
  | _ + 1, [] => some s
  | fuel + 1, lo :: hi :: n :: z :: ws =>
    let line := lo.toNat + 65536 * hi.toNat
    let len := 16 * n.toNat
    if z ≠ 0 ∨ ws.length < len ∨ 262144 < line + n.toNat then none
    else (s.pokes (codeKey d (16 * line)) (ws.take len)).loadRuns d fuel (ws.drop len)
  | _ + 1, _ => none
/-- CODE: lines that no run covers are 0000h (R459). -/
def State.loadCode (s : State) (d : Nat) (ws : List Word) : Option State :=
  let mine := fun (k : Nat) => decide (codeKey d 0 ≤ k) && decide (k < codeKey (d + 1) 0)
  ({ s with mem := s.mem.drop mine }).loadRuns d (ws.length + 1) ws
/-- The steps of R459 with the image at key `k`: the registers of the die stand at their reset values. -/
def State.loadSlice (s : State) (k d : Nat) : Option State :=
  match s.goodSections k d with
  | none => none
  | some l =>
    let part := fun (ty : Nat) => match sectionOf l ty with
      | some x => s.content k x
      | none => []
    (s.loadPads d (part 3)).bind fun s1 => (s1.loadFabric k d).bind fun s2 =>
      if (part 4).length % 3 ≠ 0 then none
      else (s2.loadConfig d (triples (part 4))).bind fun s3 => (s3.loadDatas k d l).bind fun s4 => s4.loadCode d (part 1)
/-- What the die holds of its slice (R264), and the bank HUB notes for it (R460). -/
def State.noteSlice (s : State) (k d : Nat) (staged : Bool) : State :=
  (s.modDie d fun x => { x with imgId := s.iw2 k 4, ver := s.iver k (sliceAt d + 2), cmin := s.iver k (sliceAt d + 4) }).modReg
    Reg.IMG_DIEBANK fun w => putField w d 1 (flag staged 0)
/-- Configures die `d`, which stands in reset, from bank `b`: 0, or cause 1 READ, 2 DIGEST, 3 CONFIG, and then nothing of the
slice is applied (R458, R459). -/
def State.configureDie (s : State) (d b : Nat) : State × Nat :=
  let r := s.readSlice b d
  if r.2 ≠ 0 then r
  else match r.1.loadSlice (s.bankKey b) d with
    | none => (r.1, 3)
    | some u =>
      let v := (u.noteSlice (s.bankKey b) d (b != s.bank)).setUpMeters d
      (if d = 7 then v.startWatching.refreshSetUp else v, 0)

/-! ## Bring-up (R265) -/

/-- The domains that something keeps on turn on, the groups first; a released die's fabric domain is HUB's vote (R352). -/
def State.raiseDomains (s : State) (d : Nat) : State :=
  let s1 := (dieDomains d).foldl (fun t n => if !(t.domOn n) && t.kept n then t.domReturn n else t) s
  if isSort d then s1.setDom (11 * (d - 3) + 10) true else s1
/-- The resets of the dies are released together: each trains every link whose other end is up too (B1). -/
def State.releaseDies (s : State) (ds : List Nat) : State :=
  let s1 := ds.foldl (fun t d => (t.modDie d fun x => { x with state := .train, phase := 0, running := true })) s
  let ls := (List.range 19).filter fun l =>
    let e := linkEnds.getD l (0, 0)
    (ds.contains e.1 || ds.contains e.2) && s1.dieUp e.1 && s1.dieUp e.2 && (s1.link l).state != .fault &&
      (s1.link l).state != .quarantine
  let s2 := ls.foldl (fun t l => (t.setLinkState l .train).modLink l fun x =>
    { x with retrain := false, tries := 0, retryAt := none, fails := 0 }) s1
  ds.foldl (fun t d => (List.range (crossingCount d)).foldl (fun u i => if u.crossHeld d i then u else u.crossingResume d i) (t.raiseDomains d)) s2
/-- DIE_RESET: a die other than HUB resets, is configured from the bank that IMG_DIEBANK names, and brings its links up; one
that its slice does not configure stays out, as does one that was out (R459, R460). -/
def State.dieReset (s : State) (d : Nat) : State :=
  if d = 0 ∨ s.phase ≠ .awake ∨ s.repairing then s
  else
    let was := (s.die d).state
    let s1 := (s.clearDie d).modReg Reg.DEVICE_DIES fun w => putField w d 1 0
    let b := if bit (s.reg Reg.IMG_DIEBANK) d then 1 - s.bank else s.bank
    let r := ((s1.loaderPays (s1.sliceBursts b d)).getD s1).configureDie d b
    if was = .out then r.1.modDie d fun x => { x with state := .out }
    else if r.2 ≠ 0 then r.1.dieOut d 6
    else r.1.releaseDies [d]

end Sys2Proof.Machine
end

