-- ==== Sys2Proof/Machine/Startup.lean ====
section
/-!
DEFINITION. Start-up: PORST_N, VAON, the steps J1 to J11 and their failures (spec 19, R471 to R486; R406).
-/
namespace Sys2Proof.Machine

/-! ## Power and reset (R385, R388, R473, R474) -/

/-- PORST_N_LOW: the device goes to OFF (R473). -/
def State.porstLow (s : State) : State := s.powerReset .off
/-- PORST_N_RELEASE: straps latched, AX15 at 0, start-up begins at J1 (R32, R474, R475, R536). -/
def State.porstRelease (s : State) (boot smb : Nat) : State :=
  if s.phase ≠ .off ∨ !s.vaon then s
  else ({ s with phase := .starting 1, now := 0, strapBoot := boot, strapSmb := smb }).aonSync
/-- What loss of VAON takes with it: the AON domain as well (R385, R492). -/
def State.aonLost (s : State) : State :=
  { s with regs := [], mem := s.mem.drop (fun k => decide (aonKey 0 ≤ k) && decide (k < corrKey 0 0)), faultLog := [],
           logCount := 0, aonTime := 0, ticks := 0, digest := List.replicate 128 0, savedAxes := [], savedAon := 0,
           savedLevels := [], bankSigs := [], encWake := [], gpioWake := 0 }
/-- VAON_LOSS: OFF, with AON_TIME, the records and the fault log cleared (R385). -/
def State.vaonLoss (s : State) : State := { (s.powerReset .off).aonLost with vaon := false }
/-- VAON_APPLIED: the AON domain starts with its reset values and the AON timer running (R385, R388). -/
def State.vaonApplied (s : State) : State := if s.vaon then s else { s.aonLost with vaon := true }

/-! ## Failures (R485) -/

/-- The START record (R492). -/
def State.startFail (s : State) (code step : Nat) : State := s.logFault (0x5000 + code) step 0 0
/-- A fatal failure: BOOTHOLD. -/
def State.startFatal (s : State) (code step : Nat) : State := { s.startFail code step with phase := .bootHold }
/-- Registers of HUB that start-up returns to their reset values, AON apart. -/
def hubRegs (k : Nat) : Bool := dieOwns 0 k && !(decide (0x4200 ≤ k) && decide (k < 0x4300))
/-- The boot ROM enables the endpoint (R410). -/
def State.enableEndpoint (s : State) : State := (s.setBits Reg.HOST_CFG 0x8000).setDom 50 true
/-- A failure of the image at J3 or J4. From flash it is fatal unless BOOTSEL is 10b, which goes on from the host; a host
image that is refused waits for another, unless HUB's registers themselves failed (R477, R485). -/
def State.imageFail (s : State) (code step : Nat) : State :=
  let s1 := s.startFail code step
  if s.hostBoot then
    (if code = 6 then { s1 with phase := .bootHold }
     else { s1 with phase := .starting 3, hostLoad := { got := 0, last := false, err := true } })
  else if s.strapBoot = 2 then
    (let s2 := s1.loseRegs hubRegs
     ({ s2 with hostBoot := true, phase := .starting 3, dies := s2.dies.erase 0, routes := [] }).enableEndpoint)
  else { s1 with phase := .bootHold }
/-- An image that a check of R454 refuses, with its cause in STGERR. -/
def State.imageRefused (s : State) (code step err : Nat) : State := (s.imgReject err).imageFail code step
/-- Die `d` stays out at start-up: OUT_EVER without a declaration (R480). -/
def State.dieMissing (s : State) (d code step : Nat) : State :=
  ((s.startFail code step).modDie d fun x => { x with state := .out }).modReg Reg.DEVICE_DIES fun w =>
    putField (putField w d 1 0) (8 + d) 1 1
/-- Moves start-up to a step. -/
def State.startAt (s : State) (k : Nat) : State := { s with phase := .starting k }

/-! ## The steps (R475) -/

/-- Key of the image as start-up takes it. -/
def State.bootKey (s : State) : Nat := if s.hostBoot then loadKey 0 else flashKey 0
/-- Has a host boot delivered the first `n` words? -/
def State.delivered (s : State) (n : Nat) : Bool := !s.hostBoot || decide (n ≤ s.hostLoad.got)
/-- J1. -/
def State.stepJ1 (s : State) : State := if s.strapBoot = 3 then s.startFatal 1 1 else s.startAt 2
/-- J2: OTP is read and the TRNG tested; with BOOTSEL 01b the endpoint is enabled. -/
def State.stepJ2 (s : State) (trng : Bool) : State :=
  if Config.otpKeyHash.isNone || !trng then s.startFatal 2 2
  else if s.strapBoot = 1 then ({ s with hostBoot := true }).enableEndpoint.startAt 3
  else s.startAt 3
/-- J3: the header is fetched and checked. -/
def State.stepJ3 (s : State) (flash : Bool) : State :=
  let b := s.bootKey
  if !(s.delivered 512) then s
  else if !s.hostBoot && (!flash || s.iw b 0 != 0x5649 || s.iw b 1 != 0x534B) then s.imageFail 3 3
  else if s.headerErr b ≠ 0 then s.imageRefused 4 3 (s.headerErr b)
  else s.startAt 4
/-- HUB is configured from its slice: it is in service, and PM0 and PM1 start. -/
def State.hubConfigured (s : State) (b : Nat) : State :=
  let s1 := (s.noteSlice b 0 false).modDie 0 fun x => { x with state := .inService, phase := 5, mode := 3, running := true }
  (s1.setBits Reg.DEVICE_DIES 1).raiseDomains 0
/-- J4: HUB's slice is fetched into the 4 MiB boot buffer, checked, and applied. -/
def State.stepJ4 (s : State) (flash : Bool) : State :=
  let b := s.bootKey
  let stop := s.sliceOff b 0 + s.sliceWords b 0
  if 2097152 < stop then s.imageRefused 5 4 8
  else if !(s.delivered stop) then (if s.hostLoad.last then s.imageRefused 4 4 1 else s)
  else if !s.hostBoot && !flash then s.imageFail 3 4
  else if !(s.digestOk b 0) then s.imageRefused 4 4 7
  else
    match ((if s.hostBoot then s.clrBits Reg.HOST_CFG 0x8000 else s)).loadSlice b 0 with
    | none => s.imageFail 6 4
    | some u => if u.bankWords < u.imgTotal b / 2 then u.imageRefused 5 4 8 else (u.hubConfigured b).startAt 5
/-- The channels of the image's population (R391). -/
def State.wantedChans (s : State) : List Nat := (List.range 4).filter fun c => bit (s.reg Reg.DDR_CFG) c
/-- The step at which channel `c` fails; none where it comes up. -/
def failStep (fails : List (Nat × Nat)) (c : Nat) : Option Nat := (fails.find? fun f => f.1 == c).map (·.2)
/-- The largest population of R391 whose channels are all up: DDR_CFG.USED. -/
def population (good : List Nat) : Nat :=
  if [0, 1, 2, 3].all good.contains then 15 else if [0, 1].all good.contains then 3 else if good.contains 0 then 1 else 0
/-- End of the highest region in words. -/
def State.regionTop (s : State) : Nat :=
  (List.range 8).foldl (fun m k => if (s.rgnKind k).isSome then max m (s.rgnBase k + s.rgnLen k) else m) 0
/-- J5: the channels train by T1 to T6, and every burst is written with zeros (R406). -/
def State.stepJ5 (s : State) (fails : List (Nat × Nat)) : State :=
  let want := s.wantedChans
  let good := want.filter fun c => (failStep fails c).isNone
  let used := population good
  let s1 := want.foldl (fun t c =>
    match failStep fails c with
    | some k => t.setReg (Reg.DDR_CHSTAT c) (putField (putField (t.reg (Reg.DDR_CHSTAT c)) 0 3 4) 4 3 k)
    | none => if used.testBit c then
        (t.setReg (Reg.DDR_CHSTAT c) (putField (putField (t.reg (Reg.DDR_CHSTAT c)) 0 3 2) 4 3 0)).setReg (Reg.DDR_CHSPEED c)
          (word (field (t.reg Reg.DDR_CFG) 8 3))
      else t) s
  let s2 := s1.modReg Reg.DDR_CFG fun w => putField w 0 4 used
  let s3 := s2.setReg2 Reg.DDR_CAPL Reg.DDR_CAPH (s2.chanWords * s2.ddrChans / 2 ^ 19)
  let s4 : State := { s3 with mem := s3.mem.drop (fun k => decide (ddrKey 0 ≤ k) && decide (k < aonKey 0)), ddrBad := [], ddrRows := [] }
  let s5 := (if used = 0 then s4 else s4.setDom 51 true)
  let s6 := (if used = 15 then s5.setDom 52 true else s5)
  let s7 := if good.length < want.length then s6.startFail 0x10 5 else s6
  if used = 0 ∨ s7.ddrCap < s7.regionTop then (s7.modReg Reg.DDR_STAT fun w => putField w 13 1 1).startFatal 7 5
  else s7.startAt 6
/-- J6: the whole image goes to bank 0, every slice is checked, and the identity registers are set. -/
def State.stepJ6 (s : State) (flash : Bool) : State :=
  let b := s.bootKey
  let n := s.imgTotal b / 2
  let k := s.bankKey 0
  if !(s.delivered n) then (if s.hostLoad.last then (s.imgReject 1).startFatal 4 6 else s)
  else if !s.hostBoot && !flash then s.startFatal 3 6
  else
    let s1 := s.copyWords b k n
    if s.headerErr b ≠ 0 then (s.imgReject (s.headerErr b)).startFatal 4 6
    else if !(s1.digestsOk k) then (s1.imgReject 7).startFatal 4 6
    else
      let s2 := ((s1.modReg Reg.IMG_STAT fun w => putField w 9 1 0).showActive k).raiseArb (s1.imgArb k)
      ({ s2 with fromFlash := !s.hostBoot }).startAt 7
/-- J7 on one sorting rail: OPERATION 80h and the VOUT_COMMAND of its start level; `ok` where READ_VOUT comes within tolerance
of it, `low` where it is at least the PL0 voltage less PWR_VTOL (R479). -/
def State.railOn (s : State) (n : Nat) (ok low : Bool) : State :=
  match s.sortRail n with
  | none => s
  | some k =>
    let m := field (s.reg (Reg.PWR_PLMAX n)) 0 3
    let s1 := (s.pmbSend k 1 0x80).setVout n m
    let level := fun (t : State) (v : Nat) => t.modReg (Reg.PWR_PL n) fun w => putField (putField w 4 3 v) 0 3 v
    if ok then level s1 m
    else
      let s2 := (s1.bump Reg.PWR_PLFAIL).pwrEvent 0x2000
      if low then level s2 0 else s2.dieMissing (3 + n) 0x11 7
/-- J7. -/
def State.stepJ7 (s : State) (rails pl0 : BitVec 4) : State :=
  ((List.range 4).foldl (fun t n => t.railOn n (rails.getLsbD n) (pl0.getLsbD n)) s).startAt 8
/-- AX15 resumes at its saved value plus the sleep time in whole microseconds, the other axes of a wake from DORMANT at their
saved positions, and AX_BEPOCH rises by 1 (R370, R536). -/
def State.resumeAxes (s : State) : State :=
  let us := (s.aonTime - s.savedAon) * 1000000 / 32768
  let s1 : State := { s with now := s.now + 200 * us }
  (s1.modReg Reg.AX_BEPOCH fun w => word ((w.toNat + 1) % 256)).aonSync
/-- J8 of one die. After SEALED, AX15 returns with DISPATCH, and its channels wake in SAFE with cause HOLD (R291, R370). -/
def State.bootDie (s : State) (d : Nat) : State :=
  if (s.die d).state = .out then s
  else if !(s.hasSlice (s.bankKey 0) d) then s.dieMissing d 0x12 8
  else
    let r := s.configureDie d 0
    if r.2 ≠ 0 then r.1.dieMissing d 0x13 8
    else if d = 7 ∧ s.wake.isSome then r.1.resumeAxes.allSafe causeHold
    else r.1
/-- J8: every die is configured, DISPATCH first; then their resets are released together. -/
def State.stepJ8 (s : State) : State :=
  let s1 := [7, 3, 4, 5, 6, 1, 2].foldl (fun t d => t.bootDie d) s
  (s1.releaseDies ([1, 2, 3, 4, 5, 6, 7].filter fun d => (s1.die d).state != .out)).startAt 9
/-- Does a link still train or exchange? -/
def State.linking (s : State) : Bool :=
  (List.range 19).any fun l => ((s.link l).state == .train && !(s.link l).retrain) || (s.link l).state == .exchange
/-- Dies that bring-up left out: declared out by a quarantine, or without their HUB link. -/
def State.unlinked (s : State) : List Nat :=
  [1, 2, 3, 4, 5, 6, 7].filter fun d =>
    ((s.die d).state == .out && (linksOf d).any fun l => (s.link l).state == .quarantine) ||
      ((s.die d).state != .out && (s.die d).state != .inService)
/-- J9 ends when no link trains or exchanges (R265, R480, R485). -/
def State.stepJ9 (s : State) : State :=
  if s.linking then s else (s.unlinked.foldl (fun t d => t.dieMissing d 0x14 9) s).startAt 10
/-- J10: the OUT list of every die that is not in service, in die order (R482). -/
def State.stepJ10 (s : State) : State :=
  if s.envelope.state = .applying then s
  else
    let out := [1, 2, 3, 4, 5, 6, 7].filter fun d => !(s.inService d)
    (out.foldl (fun (t : State) d => t.applyList d true true) { s with fbPend := [] }).startAt 11
/-- J11: READY; for a SEALED wake this is W7 (R386). -/
def State.stepJ11 (s : State) : State :=
  let s1 := if s.wake.isSome then s.setBits Reg.AON_STAT 0x8000 else s
  ({ s1.setMode 3 false with phase := .awake, wake := none }).modeEvent
/-- START_STEP_COMPLETE: the step in progress completes, fails, or does not complete yet. -/
def State.startStep (s : State) (trng flash : Bool) (fails : List (Nat × Nat)) (rails pl0 : BitVec 4) : State :=
  match s.phase with
  | .starting 1 => s.stepJ1
  | .starting 2 => s.stepJ2 trng
  | .starting 3 => s.stepJ3 flash
  | .starting 4 => s.stepJ4 flash
  | .starting 5 => s.stepJ5 fails
  | .starting 6 => s.stepJ6 flash
  | .starting 7 => s.stepJ7 rails pl0
  | .starting 8 => s.stepJ8
  | .starting 9 => s.stepJ9
  | .starting 10 => s.stepJ10
  | .starting 11 => s.stepJ11
  | _ => s

end Sys2Proof.Machine
end

