-- ==== Sys2Proof/Machine/Wake.lean ====
section
/-!
DEFINITION. The steps of a wake, W1 to W7 (spec 14, R370, R379, R386, R387).
-/
namespace Sys2Proof.Machine

/-- Moves the wake to a step. -/
def State.wakeAt (s : State) (k : Nat) : State := { s with phase := .waking k }
/-- W3 on one sorting rail: OPERATION 80h and the level at entry; `ok` where the rail reaches tolerance, else PLFAIL and PL0
(R386, R387). -/
def State.wakeRail (s : State) (n : Nat) (ok : Bool) : State :=
  match s.sortRail n with
  | none => s
  | some k =>
    let m := s.savedLevels.getD n 0
    let s1 := (s.pmbSend k 1 0x80).setVout n m
    let level := fun (t : State) (v : Nat) => t.modReg (Reg.PWR_PL n) fun w => putField (putField w 4 3 v) 0 3 v
    if ok then level s1 m else level ((s1.bump Reg.PWR_PLFAIL).pwrEvent 0x2000) 0
/-- A die is configured from the bank that IMG_DIEBANK names; one that fails stays out (R459, R460). -/
def State.wakeDie (s : State) (d : Nat) : State :=
  if !(s.hasSlice (s.bankKey s.bank) d) then s.dieMissing d 0x12 8
  else
    let b := if bit (s.reg Reg.IMG_DIEBANK) d then 1 - s.bank else s.bank
    let r := s.configureDie d b
    if r.2 ≠ 0 then r.1.dieMissing d 0x13 8 else r.1
/-- W3 from DORMANT: HUB is ungated and configured, the rails return, and every die is configured and released; firing channels
wake in SAFE with cause HOLD (R291, R294). A HUB that its slice does not configure resets the device (R22). -/
def State.wakeDormant (s : State) (rails : BitVec 4) : State :=
  let used := field (s.reg Reg.DDR_CFG) 0 4
  let c := s.configureDie 0 s.bank
  let r := (c.1.modReg Reg.DDR_CFG fun w => putField w 0 4 used, c.2)
  if r.2 ≠ 0 then r.1.hubReset 0x56 3
  else
    let s1 := (r.1.modDie 0 fun x => { x with state := .inService, phase := 5, mode := 3 }).setBits Reg.DEVICE_DIES 1
    let s2 := (List.range 4).foldl (fun t n => t.wakeRail n (rails.getLsbD n)) (s1.raiseDomains 0)
    let s3 := ([7, 3, 4, 5, 6, 1, 2].foldl (fun t d => t.wakeDie d) s2).allSafe causeHold
    (s3.releaseDies ([1, 2, 3, 4, 5, 6, 7].filter fun d => (s3.die d).state != .out)).wakeAt 4
/-- W3 from SEALED: start-up continues at J3, with VIO3 released first and the straps latched at the last PORST_N (R382, R474,
R478). -/
def State.wakeSealed (s : State) : State :=
  let s1 : State := { s.padRelease 4 with hostBoot := s.strapBoot == 1, hostLoad := { got := 0, last := false, err := false } }
  (if s.strapBoot = 1 then s1.enableEndpoint else s1).startAt 3
/-- Axes AX0 to AX14 return to their saved positions, those with a source in ACQUIRE (R370). -/
def State.restoreAxes (s : State) : State :=
  ((List.range 15).foldl (fun (t : State) n =>
    let p := s.savedAxes.getD n 0
    let src := t.axSrc n
    let q := if src = 2 then p - BitVec.ofInt 48 (signed (t.reg (Reg.AX_PHOFS n))) else p
    t.setAxis n { t.axis n with
      state := if src = 0 then .off else .acquire, int := BitVec.ofNat 32 (posInt q), base := BitVec.ofNat 16 (posFrac q),
      pos := q, t0 := t.now, fromSet := false })) s
/-- Copies start to follow their sources from where these were restored (R31). -/
def State.restoreCopies (s : State) : State :=
  (List.range 15).foldl (fun (t : State) n =>
    if t.axSrc n = 3 then t.setAxis n { t.axis n with srcPos := t.axPos (t.axSel n), rem := 0 } else t) s
/-- W4 ends when no link trains or exchanges: the axes are restored (R265, R370). -/
def State.wakeLinked (s : State) : State :=
  if s.linking then s
  else ((((s.unlinked.foldl (fun t d => t.dieMissing d 0x14 9) s).restoreAxes).resumeAxes).restoreCopies).wakeAt 5
/-- A retained bank whose signature does not match is poisoned, and named in WAKE_RECORD; an event SHSTORE (R328, R379, R388). -/
def State.retainFail (s : State) (b : Nat) : State :=
  let d := 3 + b / 32
  (((s.poisonBank d (b % 32)).setBits (Reg.WAKE_RECORD (4 + 2 * (b / 32) + b % 32 / 16)) (word (2 ^ (b % 16)))).faultEvent 1 b).raiseLocal d 0x61 1
/-- W5: DDR5 leaves self-refresh, and every retained bank is checked: `mismatch` names banks whose contents the sleep has
changed (R379). -/
def State.wakeBanks (s : State) (mismatch : List Nat) : State :=
  let s1 := ([0, 1].filter fun p => (pairChans p).any fun c => 2 ≤ s.ddrState c).foldl (fun t p => t.setDom (51 + p) true) s
  let s2 := (s1.selfRefreshExit 0).selfRefreshExit 1
  let bad : List Nat := (s2.bankSigs.filter fun (e : Nat × Nat) =>
    mismatch.contains e.1 || s2.bankSig (3 + e.1 / 32) (e.1 % 32) != e.2).map fun (e : Nat × Nat) => e.1
  let s3 : State := { bad.foldl (fun (t : State) b => t.retainFail b) s2 with bankSigs := [] }
  s3.wakeAt 6
/-- W7. -/
def State.wakeDone (s : State) : State :=
  ({ (s.setMode 3 false).setBits Reg.AON_STAT 0x8000 with phase := .awake, wake := none }).modeEvent
/-- WAKE_STEP_COMPLETE: the step in progress completes, or does not complete yet. -/
def State.wakeStep (s : State) (rails : BitVec 4) (mismatch : List Nat) : State :=
  match s.phase, s.wake with
  | .waking 1, _ => s.wakeAt 2
  | .waking 2, _ => s.wakeAt 3
  | .waking 3, some w => if w.fromSealed then s.wakeSealed else s.wakeDormant rails
  | .waking 4, _ => s.wakeLinked
  | .waking 5, _ => s.wakeBanks mismatch
  | .waking 6, _ => (s.restoreBags).wakeAt 7
  | .waking _, _ => s.wakeDone
  | _, _ => s

end Sys2Proof.Machine
end

