-- ==== Sys2Proof/Machine/Repair.lean ====
section
/-!
DEFINITION. The steps of a repair, K1 to K10 (spec 18, R462 to R467).
-/
namespace Sys2Proof.Machine

/-- Moves the repair to step `k`, which begins now. -/
def State.repairAt (s : State) (k : Nat) : State :=
  let s1 := s.setRpStep k
  match s.repair with
  | none => s1
  | some r => { s1 with repair := some { r with at_ := s.now, listed := false } }
/-- The bank that the repair takes die `d`'s slice from. -/
def State.repairBank (s : State) (r : RepairRun) : Nat := if r.staged then 1 - s.bank else s.bank
/-- K1: with STAGED, the staged bank must hold an accepted image with a slice for the die; a die that is out goes to K6. -/
def State.stepK1 (s : State) (r : RepairRun) (d : Nat) : State :=
  if r.staged ∧ !(bit (s.reg Reg.IMG_STAT) 8 && s.hasSlice (s.bankKey (1 - s.bank)) d) then
    (s.bump Reg.IMG_RPFAIL).endRepair 2 7 (s.repairBack r)
  else if r.wasOut then s.repairAt 6
  else s.repairAt 2
/-- K2: DISPATCH recalls every epoch of the die's clerks, or of the device for DISPATCH itself, with cause DRAIN. -/
def State.stepK2 (s : State) (d : Nat) : State :=
  (((s.modDie d fun x => { x with draining := true }).send (.recallDrain d)).repairAt 3)
/-- Is every clerk of the die in WAIT or HALTED? -/
def State.dieParked (s : State) (d : Nat) : Bool :=
  (List.range 128).all fun c => clerkDie c != d || s.parkedForSleep c
/-- K4's list: the die's OUT list but for its moves, which K5 is to perform; it waits while an envelope is APPLYING (R462, R465). -/
def State.listK4 (s : State) (d : Nat) : State :=
  match s.repair with
  | none => s
  | some r =>
    if r.listed ∨ s.envelope.state = .applying then s
    else
      let s1 := s.applyList d true false
      let es := (s.fallback d true).filter fun e => field e.1 14 2 == 3
      let ms := es.filterMap s.moveOf
      { s1.bumpBy Reg.IMG_FBSKIP (es.length - ms.length) with
        moves := s1.moves ++ ms.map fun m => (m.1, m.2, s.now), repair := some { r with at_ := s.now, listed := true } }
/-- K4 begins. -/
def State.enterK4 (s : State) (d : Nat) : State := (s.repairAt 4).listK4 d
/-- K3 ends when every clerk of the die is parked. -/
def State.stepK3 (s : State) (d : Nat) : State := if s.dieParked d then s.enterK4 d else s
/-- K4 ends 20 µs after the list, when parcels in flight have arrived. -/
def State.stepK4 (s : State) (r : RepairRun) (d : Nat) : State :=
  if !r.listed then s.listK4 d else if r.at_ + 4000 ≤ s.now then s.repairAt 5 else s
/-- K5 ends when no move is left to perform. -/
def State.stepK5 (s : State) : State := if s.moves.isEmpty then s.repairAt 6 else s
/-- Sheets left in the source mailbags of the die's moves when it is emptied, and the outbox entries that DISPATCH discards
(R463, R467). -/
def State.leftSheets (s : State) (d : Nat) : Nat :=
  let srcs := ((s.fallback d true).filterMap fun e =>
    if field e.1 14 2 = 3 then some (128 * field e.1 11 3 + field e.2.1 0 7) else none).eraseDups
  let sheets := ((srcs.filter fun n => bagDie n == d).map fun n => (s.bag n).visible).sum
  if d = 7 then sheets + s.outbox.count + s.outbox.spCount else sheets
/-- K6: the die stops and its reset is asserted; DEVICE_DIES.IN clears without OUT_EVER. -/
def State.stepK6 (s : State) (d : Nat) : State :=
  let s1 := s.bumpBy Reg.IMG_RPDISC (s.leftSheets d)
  let s2 := s1.modReg Reg.DEVICE_DIES fun w => putField w d 1 0
  let s3 := if d = 7 then s2.dispatchOut else s2
  let s4 := (s3.clearDie d).repairAt 7
  if s4.lstate = 0 then s4.setLstate 2 else s4
/-- A failure from K7 on: the die is declared out, and the repair ends in DEGRADED (R465, R492). -/
def State.repairFail (s : State) (d cause : Nat) : State :=
  let s1 := if (s.die d).state = .out then s else { s.dieOut d 5 with fbPend := s.fbPend }
  (s1.bump Reg.IMG_RPFAIL).endRepair 2 cause 5
/-- K7: the loader, once it stages no image and its route has a stamp, reads, checks and applies the die's slice. -/
def State.stepK7 (s : State) (r : RepairRun) (d : Nat) : State :=
  let b := s.repairBank r
  if s.lstate = 1 then s
  else match s.loaderPays (s.sliceBursts b d) with
    | none => s.noteWait s.loaderRoute 1
    | some u =>
      let c := if u.hasSlice (u.bankKey b) d then u.configureDie d b else (u, 3)
      let v := c.1.setLstate 0
      if c.2 ≠ 0 then v.repairFail d c.2 else v.repairAt 8
/-- K8: the self-test passes or fails (R466); then the die's reset is released. -/
def State.stepK8 (s : State) (d : Nat) (ok : Bool) : State :=
  if ok then (s.releaseDies [d]).repairAt 9 else s.repairFail d 4
/-- K9 ends when the die is in service; one that a quarantine declared out, or that cannot link, has failed. -/
def State.stepK9 (s : State) (d : Nat) : State :=
  if s.inService d then
    (if s.envelope.state = .applying then s
     else ((s.setMode 6 true).applyList d false true).repairAt 10)
  else if (s.die d).state = .out ∨ !s.linking then s.repairFail d 5
  else s
/-- K10: the BACK list with its moves is applied, and REPAIR ends in RUN if no die is out, else in DEGRADED. -/
def State.stepK10 (s : State) : State :=
  if !s.moves.isEmpty then s
  else (s.bump Reg.IMG_RPCNT).endRepair 1 0 (if field (s.reg Reg.DEVICE_DIES) 0 8 = 0xFF then 4 else 5)
/-- REPAIR_STEP_COMPLETE: the step in progress completes, fails, or does not complete yet. `ok`: the self-test of K8. K1 waits
for the acknowledgements of the mode change. -/
def State.repairStep (s : State) (ok : Bool) : State :=
  match s.repair with
  | none => s
  | some r =>
    let d := s.rpDie
    match s.rpStep with
    | 1 => if s.trans then s else s.stepK1 r d
    | 2 => s.stepK2 d
    | 3 => s.stepK3 d
    | 4 => s.stepK4 r d
    | 5 => s.stepK5
    | 6 => s.stepK6 d
    | 7 => s.stepK7 r d
    | 8 => s.stepK8 d ok
    | 9 => s.stepK9 d
    | _ => s.stepK10
/-- DRAIN_TIMEOUT: IMG_DRAINT milliseconds of REF time end K3 (R465). -/
def State.drainTimeout (s : State) : State :=
  match s.repair with
  | none => s
  | some r =>
    if s.rpStep = 3 ∧ r.at_ + max 1 (s.reg Reg.IMG_DRAINT).toNat * 200000 ≤ s.now then s.enterK4 s.rpDie else s

end Sys2Proof.Machine
end

