-- ==== Sys2Proof/Machine/Operands.lean ====
section
/-!
DEFINITION. Operand forms of clerk instructions: data and port addresses with their base updates (R143, R144), the words and
halves of an access (R107, R108), what the data windows reach (R96 to R98), and what one instruction comes to.
-/
namespace Sys2Proof.Machine

/-- What one unit of an instruction comes to: an instruction, or one iteration of a repeated one. -/
inductive Out where
  | done (s : State)                                       -- complete; PC goes to the next instruction
  | jump (s : State) (t : CodeAddr)                        -- complete; PC goes to `t`
  | entered (s : State)                                    -- RETI: complete, retired and PC set by the unit itself
  | stop (s : State)                                       -- not complete, at a boundary between units (R125)
  | prefixed (s : State)                                   -- a repeat prefix, which retires with its instruction (R76)
  | wait (k : WaitKind) (s : State)                        -- not complete: it waits and then executes again
  | exc (cause arg : Nat) (half : Bool) (s : State)        -- raises an exception (R128)

/-- A register operation: it completes with clerk `c` changed by `f`. -/
def regOp (c : Nat) (f : Clerk → Clerk) (s : State) : Out := .done (s.modClerk c f)

/-! ## Addresses (R143, R144) -/

/-- An address with the base update that the instruction makes when it retires. -/
structure EA where
  addr : Word
  upd : Option (Reg4 × Word)
deriving DecidableEq, Repr

/-- Data address of LD, ST (step 1), LDS and STS (step 8); with base W0 there is no update, and the address is the displacement
or D:0000h (R143). -/
def Clerk.dataEA (k : Clerk) (m : AddrMode) (step : Word) : EA :=
  match m with
  | .ind b => ⟨k.rw b, none⟩
  | .disp b x => ⟨k.rw b + x, none⟩
  | .postInc b => ⟨k.rw b, some (b, k.rw b + step)⟩
  | .postDec b => ⟨k.rw b, some (b, k.rw b - step)⟩
  | .preDec b => if b = 0 then ⟨0, none⟩ else ⟨k.rw b - step, some (b, k.rw b - step)⟩
/-- Port number of IN, OUT (step 1), INS and OUTS (step 8) (R144). -/
def Clerk.portEA (k : Clerk) (m : PortMode) (step : Word) : EA :=
  match m with
  | .ind b => ⟨k.rw b, none⟩
  | .disp b x => ⟨k.rw b + x, none⟩
  | .postInc b => ⟨k.rw b, some (b, k.rw b + step)⟩
/-- The base update; W0 takes none (R89, R143). -/
def Clerk.updBase (k : Clerk) (e : EA) : Clerk :=
  match e.upd with
  | none => k
  | some (b, v) => k.ww b v
/-- Words of an instruction with a data address: a displacement word follows (R134, R143). -/
def AddrMode.len : AddrMode → Nat
  | .disp _ _ => 2
  | _ => 1
/-- Words of an instruction with a port number (R144). -/
def PortMode.len : PortMode → Nat
  | .disp _ _ => 2
  | _ => 1

/-! ## Accesses (R107, R108) -/

/-- The parts in which an access is made: a start address and a number of words. -/
abbrev Halves := List (Nat × Nat)
/-- A word access. -/
def wordAt (a : Word) : Halves := [(a.toNat, 1)]
/-- A sheet access: one part where the address is a multiple of 8, else two, split at the 8-word boundary (R108). -/
def sheetAt (a : Word) : Halves :=
  let n := 8 - a.toNat % 8
  if n = 8 then [(a.toNat, 8)] else [(a.toNat, n), ((a.toNat + n) % 65536, 8 - n)]

/-! ## Data windows (R96 to R98) -/

/-- Key of the `i`-th word from a target. -/
def Target.key (c : Nat) : Target → Nat → Nat
  | .priv a, i => privKey c (a + i)
  | .shared d a, i => sharedKey d (a + i)
  | .ddr a, i => ddrKey (a + i)
  | .peer p a, i => privKey p (a + i)
/-- Does the target lie in a window? -/
def Target.isWindow : Target → Bool
  | .priv _ => false
  | _ => true
/-- Is the target DDR5? -/
def Target.isDdr : Target → Bool
  | .ddr _ => true
  | _ => false

/-- The target of data address `a` of clerk `c`; none where R98 denies the access. A PEER value that names no clerk of HUB
reaches nothing either. -/
def State.dataTarget (s : State) (c a : Nat) : Option Target :=
  if a < 0x8000 then some (.priv a)
  else
    let n := (a - 0x8000) / 0x1000 % 8
    let off := a % 0x1000
    let cfg := s.reg (Reg.CLK_WIN_CFG c n)
    let lo := (s.reg (Reg.CLK_WIN_BASEL c n)).toNat
    match field cfg 14 2 with
    | 1 => if isPm c then none else some (.shared (clerkDie c) (lo % 512 * 4096 + off))
    | 2 =>
      let w := (field (s.reg (Reg.CLK_WIN_BASEH c n)) 0 10 * 65536 + lo) * 4096 + off
      if w < s.ddrCap then some (.ddr w) else none
    | 3 =>
      let p := field cfg 0 5
      if (isPm c && decide (2 ≤ p)) || clerkOf (clerkDie c) p == c then none
      else some (.peer (clerkOf (clerkDie c) p) (lo % 8 * 4096 + off))
    | _ => none
/-- May clerk `c` store at data address `a`: the private store, and SHARED and DDR windows with WR = 1 (R97, R98)? -/
def State.storeTarget (s : State) (c a : Nat) : Option Target :=
  match s.dataTarget c a with
  | some (.priv w) => some (.priv w)
  | some (.peer _ _) => none
  | some t => if bit (s.reg (Reg.CLK_WIN_CFG c ((a - 0x8000) / 0x1000 % 8))) 13 then some t else none
  | none => none

/-- The targets of the parts of an access, or the first part that is denied (R109). -/
def allTargets (f : Nat → Option Target) : Halves → Nat → Except Nat (List (Target × Nat))
  | [], _ => .ok []
  | (a, n) :: t, i =>
    match f a with
    | none => .error i
    | some x =>
      match allTargets f t (i + 1) with
      | .error j => .error j
      | .ok l => .ok ((x, n) :: l)

end Sys2Proof.Machine
end

