-- ==== Sys2Proof/Machine/ClerkMem.lean ====
section
/-!
DEFINITION. Data accesses of a clerk: loads and stores of words and sheets, windows with their waits and errors, the undo
journal (R96 to R100, R106 to R110, R143, R173, R174, R380, R442 to R445).
-/
namespace Sys2Proof.Machine

/-- What a read access comes to. -/
inductive Loaded where
  | vals (ws : List Word) (s : State)
  | wait (k : WaitKind) (s : State)
  | exc (cause : Nat) (half : Bool) (s : State)
/-- What a write access comes to. -/
inductive Stored where
  | ok (s : State)
  | wait (k : WaitKind) (s : State)
  | exc (cause : Nat) (half : Bool) (s : State)

/-- Goes on with the words read. -/
def Loaded.bind (l : Loaded) (f : List Word → State → Out) : Out :=
  match l with
  | .vals ws s => f ws s
  | .wait k s => .wait k s
  | .exc e h s => .exc e 0 h s
/-- Goes on after the write. -/
def Stored.bind (l : Stored) (f : State → Out) : Out :=
  match l with
  | .ok s => f s
  | .wait k s => .wait k s
  | .exc e h s => .exc e 0 h s

/-! ## Loads -/

/-- Takes `n` DDR stamps of the clerk's route at HUB's meter; none if the route has fewer left (R443, R444). -/
def State.ddrStamps (s : State) (rt : Nat) : Nat → Option State
  | 0 => some s
  | n + 1 => if s.hasStamp 0 rt 1 then (s.takeStamp 0 rt 1).ddrStamps rt n else none
/-- Words of a DDR request parcel of clerk `c` (R248, R491). -/
def ddrWords (c : Nat) (wr : Bool) : List Word := [0x0800, originWord c wr 0, 0, 0, 0, 0]
/-- Is a shared-store bank poisoned, with RETAIN_LOST still to be raised by its first read (R380)? -/
def State.retainDue (s : State) : Target → Bool
  | .shared d a => s.poisoned d (a / 65536) && !(bit (s.reg (Reg.SS_RLRAISED d (a / 65536 / 16))) (a / 65536 % 16))
  | _ => false
/-- RETAIN_LOST is raised by a read of the bank (R380). -/
def State.retainRaised (s : State) : Target → State
  | .shared d a => s.setBits (Reg.SS_RLRAISED d (a / 65536 / 16)) (word (2 ^ (a / 65536 % 16)))
  | _ => s
/-- The words of one part: a poisoned bank reads as 0000h (R380). -/
def State.partWords (s : State) (c : Nat) (x : Target × Nat) : List Word :=
  match x.1 with
  | .shared d a => if s.poisoned d (a / 65536) then List.replicate x.2 0 else s.peeks (x.1.key c 0) x.2
  | .priv _ => (List.range x.2).map fun i => s.peek (x.1.key c i)
  | _ => s.peeks (x.1.key c 0) x.2
/-- Is a part uncorrectable: as the reply says, or because its burst is (R100, R400)? -/
def State.partBad (s : State) (bad : Bool) (x : Target × Nat) : Bool :=
  x.1.isWindow && (bad || (match x.1 with
    | .ddr a => s.ddrUe a x.2
    | _ => false))
/-- An uncorrectable part counts in the fault window of its shared-store bank, an event SHSTORE, or is a detection of its DDR5 burst
(R100, R328, R400, R403, R488). -/
def State.partFault (s : State) (x : Target × Nat) : State :=
  match x.1 with
  | .shared d a => (s.faultEvent 1 (32 * (d - 3) + a / 65536)).raiseLocal d 0x61 1
  | .ddr a => s.ddrDemand a x.2 true
  | _ => s
/-- Every uncorrectable part counts. The spec names only the exception of a load with two bad halves; that each counts is the
model's choice (R109, log 75). -/
def State.partFaults (s : State) (bad : List Bool) (ts : List (Target × Nat)) : State :=
  (ts.zip bad).foldl (fun t e => if s.partBad e.2 e.1 then t.partFault e.1 else t) s
/-- Every poisoned bank that a load reads for the first time raises RETAIN_LOST by it (R109, R380). -/
def State.partsRaised (s : State) (ts : List (Target × Nat)) : State := ts.foldl (fun t e => if s.retainDue e.1 then t.retainRaised e.1 else t) s
/-- The first part, with its number, that `p` names. -/
def findPart (p : Target × Nat → Nat → Bool) : List (Target × Nat) → Nat → Option (Target × Nat × Nat)
  | [], _ => none
  | x :: t, i => if p x i then some (x.1, x.2, i) else findPart p t (i + 1)
/-- The replies of a window load are in: DATA_ERR before RETAIN_LOST, and each naming the first part that failed; else the
words (R100, R109, R129, R380). -/
def State.finishLoad (s : State) (c : Nat) (ts : List (Target × Nat)) (g : Grant) : Loaded :=
  match findPart (fun x i => s.partBad (if i = 0 then g.bad0 else g.bad1) x) ts 0 with
  | some (_, _, i) => .exc 8 (decide (0 < i)) (s.partFaults [g.bad0, g.bad1] ts)
  | none =>
    match findPart (fun x _ => s.retainDue x.1) ts 0 with
    | some (_, _, i) => .exc 9 (decide (0 < i)) (s.partsRaised ts)
    | none => .vals (if g.val.isEmpty then (ts.map (s.partWords c)).flatten else g.val) s
/-- A window load is issued into a free read-buffer entry, which keeps the parts it was issued to: DDR parts need the way to HUB
and a stamp each (R71, R262, R263, R445, R537). -/
def State.issueLoad (s : State) (c : Nat) (ts : List (Target × Nat)) : Loaded :=
  let nd := (ts.filter fun x => x.1.isDdr).length
  let nw := (ts.filter fun x => x.1.isWindow).length
  if 8 ≤ (s.clerk c).bufferUsed then .wait .buffer s
  else match (if nd = 0 then none else s.undeliverable (clerkDie c) 0) with
  | some cause =>
    let i := ts.findIdx fun x => x.1.isDdr
    .exc 8 (decide (0 < i)) (s.dropParcel cause (clerkDie c) 0 (ddrWords c false))
  | none =>
    match s.ddrStamps (s.clerkRoute c) nd with
    | none => .wait .ddrStamp (s.noteWait (s.clerkRoute c) 1)
    | some s1 =>
      let s2 := ts.foldl (fun t x => match x.1 with | .ddr a => t.ddrServe a | _ => t) s1
      .wait .window (((s2.passN nd (clerkDie c) 0).modClerk c fun k => { k with loadBuf := ts }).pcnt c 0x0B nw)
/-- A load of clerk `c`: permissions of every part first; a load that touches a window is issued and waits for its reply, which
is from the parts it was issued to, whatever the windows map since (R71, R98, R109, R537). -/
def State.load (s : State) (c : Nat) (hs : Halves) (g : Option Grant) : Loaded :=
  match (match g with
    | some r => if r.ts.isEmpty then none else some r
    | none => none) with
  | some r => s.finishLoad c r.ts r
  | none =>
    match allTargets (s.dataTarget c) hs 0 with
    | .error i => .exc 5 (decide (0 < i)) s
    | .ok ts =>
      if ts.all fun x => !x.1.isWindow then .vals (ts.map (s.partWords c)).flatten s
      else s.issueLoad c ts

/-! ## Stores -/

/-- Writes words to the shared store; a poisoned bank ignores and counts the write (R380). -/
def State.sharedWrite (s : State) (d a : Nat) (ws : List Word) : State :=
  if s.poisoned d (a / 65536) then s.bump (Reg.SS_POISONWR d) else s.pokes (sharedKey d a) ws
/-- One part of a store is performed; a DDR write that cannot reach HUB is dropped as a dead letter (R99, R262). -/
def State.storePart (s : State) (c : Nat) (t : Target) (ws : List Word) : State :=
  match t with
  | .priv a => s.privWrite c [((List.range ws.length).zip ws).map fun e => (a + e.1, e.2)]
  | .shared d a => s.sharedWrite d a ws
  | .ddr a =>
    s.parcel (clerkDie c) 0 (ddrWords c true) (fun u => (u.passN (ddrParcels a ws.length - 1) (clerkDie c) 0).ddrWrite a ws) (fun u => u)
  | .peer _ _ => s
/-- The parts of a store, each with its share of the words. -/
def State.storeParts (s : State) (c : Nat) : List (Target × Nat) → List Word → State
  | [], _ => s
  | (t, n) :: r, ws => (s.storePart c t (ws.take n)).storeParts c r (ws.drop n)
/-- A store of clerk `c`, performed at retire: permissions first, then the epoch's rule for windows and the journal's room, then
the stamps of its DDR parts (R98, R109, R129, R173, R174, R445). -/
def State.store (s : State) (c : Nat) (hs : Halves) (ws : List Word) : Stored :=
  let k := s.clerk c
  match allTargets (s.storeTarget c) hs 0 with
  | .error i => .exc 5 (decide (0 < i)) s
  | .ok ts =>
    let nw := (ts.filter fun x => x.1.isWindow).length
    if k.ep && decide (0 < nw) then .exc 0xC (ts.headD (.priv 0, 0)).1.isWindow.not s
    else if k.ep && !(k.journalRoom ts.length) then .wait .journal s
    else match s.ddrStamps (s.clerkRoute c)
        (if (s.undeliverable (clerkDie c) 0).isSome then 0 else (ts.filter fun x => x.1.isDdr).length) with
      | none => .wait .ddrStamp (s.noteWait (s.clerkRoute c) 1)
      | some s1 => .ok (s1.storeParts c ts ws)

/-! ## LD, ST, LDS, STS, STI (R143, R146) -/

/-- LD. -/
def bodyLd (c : Nat) (d : Reg4) (m : AddrMode) (g : Option Grant) (s : State) : Out :=
  let e := (s.clerk c).dataEA m 1
  (s.load c (wordAt e.addr) g).bind fun ws t =>
    regOp c (fun k => { (k.updBase e).ww d (ws.getD 0 0) with
      lastLoad := if e.addr.toNat < 0x8000 then [d.val] else [] }) t
/-- ST: the value stored is the one held before any base update. -/
def bodySt (c : Nat) (r : Reg4) (m : AddrMode) (s : State) : Out :=
  let e := (s.clerk c).dataEA m 1
  (s.store c (wordAt e.addr) [(s.clerk c).rw r]).bind fun t => regOp c (fun k => k.updBase e) t
/-- LDS. -/
def bodyLds (c : Nat) (d : Reg4) (m : AddrMode) (g : Option Grant) (s : State) : Out :=
  let e := (s.clerk c).dataEA m 8
  (s.load c (sheetAt e.addr) g).bind fun ws t =>
    regOp c (fun k => { (k.updBase e).ws d (Sheet.ofList ws) with
      lastLoad := if (sheetAt e.addr).all fun h => decide (h.1 < 0x8000) then [16 + d.val] else [] }) t
/-- STS. -/
def bodySts (c : Nat) (r : Reg4) (m : AddrMode) (s : State) : Out :=
  let e := (s.clerk c).dataEA m 8
  (s.store c (sheetAt e.addr) ((s.clerk c).rs r).toList).bind fun t => regOp c (fun k => k.updBase e) t
/-- STI. -/
def bodySti (c : Nat) (b : Reg4) (x imm : Word) (s : State) : Out :=
  (s.store c (wordAt ((s.clerk c).rw b + x)) [imm]).bind fun t => .done t

end Sys2Proof.Machine
end

