-- ==== Sys2Proof/Machine/Flags.lean ====
section
/-!
DEFINITION. Condition results: the device has no flags, and a compare writes 0001h or 0000h (R113, R139); the shifts and
products that scalar and sheet instructions share.
-/
namespace Sys2Proof.Machine

/-- A word from a relation (R113). -/
def truth (b : Bool) : Word := if b then 1 else 0
/-- A condition: any nonzero register is true (R113). -/
def holds (w : Word) : Bool := w != 0
/-- Does an exact result lie outside the signed word range (R139)? -/
def overflows (n : Int) : Bool := decide (n < -32768) || decide (32767 < n)
/-- Carry out of a sum (R139). -/
def carries (a b : Word) : Bool := decide (0x10000 ≤ a.toNat + b.toNat)
/-- Signed saturation to a word (R147, R150). -/
def sat16 (n : Int) : Word := BitVec.ofInt 16 (max (-32768) (min 32767 n))
/-- Shift left; 16 and more give 0000h (R137). -/
def shlW (d : Word) (n : Nat) : Word := d <<< n
/-- Logical shift right (R137). -/
def shrW (d : Word) (n : Nat) : Word := d >>> n
/-- Arithmetic shift right (R137). -/
def sarW (d : Word) (n : Nat) : Word := d.sshiftRight n
/-- Rotation left (R137). -/
def rolW (d : Word) (n : Nat) : Word := d.rotateLeft n
/-- The 32-bit product of two words, signed. -/
def mulS (a b : Word) : BitVec 32 := BitVec.ofInt 32 (a.toInt * b.toInt)
/-- The 32-bit product of two words, unsigned. -/
def mulU (a b : Word) : BitVec 32 := BitVec.ofNat 32 (a.toNat * b.toNat)
/-- Low word of a product. -/
def loW (p : BitVec 32) : Word := p.setWidth 16
/-- High word of a product. -/
def hiW (p : BitVec 32) : Word := (p >>> 16).setWidth 16

end Sys2Proof.Machine
end

