-- ==== Sys2Proof/Machine/Scalar.lean ====
section
/-!
DEFINITION. Scalar arithmetic and logic, multiplies, selections and compares (R137 to R139).
-/
namespace Sys2Proof.Machine

/-- d := f(d, s) on W registers: what every instruction of 10h to 1Bh does (R137). -/
def binW (c : Nat) (d r : Reg4) (f : Word → Word → Word) (s : State) : Out :=
  regOp c (fun k => k.ww d (f (k.rw d) (k.rw r))) s
/-- d := f(d): the short immediates (R137). -/
def unW (c : Nat) (d : Reg4) (f : Word → Word) (s : State) : Out := regOp c (fun k => k.ww d (f (k.rw d))) s
/-- d := f(s): the 16-bit immediates (R137). -/
def immW (c : Nat) (d r : Reg4) (f : Word → Word) (s : State) : Out := regOp c (fun k => k.ww d (f (k.rw r))) s
/-- A compare: d := 0001h where the relation of a and b holds, else 0000h (R139). -/
def cmpW (c : Nat) (d a b : Reg4) (f : Word → Word → Bool) (s : State) : Out :=
  regOp c (fun k => k.ww d (truth (f (k.rw a) (k.rw b)))) s
/-- A compare with an immediate (R139). -/
def cmpI (c : Nat) (d a : Reg4) (f : Word → Bool) (s : State) : Out := regOp c (fun k => k.ww d (truth (f (k.rw a)))) s
/-- A product starts on its way to PH:PL: the second instruction after the multiply is the first to see it (R114, R138). -/
def Clerk.startMul (k : Clerk) (p : BitVec 32) : Clerk := { k with mulPend := k.mulPend ++ [(2, loW p, hiW p)] }

/-- MOV. -/
def bodyMov (c : Nat) (d r : Reg4) (s : State) : Out := binW c d r (fun _ b => b) s
/-- ADD. -/
def bodyAdd (c : Nat) (d r : Reg4) (s : State) : Out := binW c d r (fun a b => a + b) s
/-- SUB. -/
def bodySub (c : Nat) (d r : Reg4) (s : State) : Out := binW c d r (fun a b => a - b) s
/-- AND. -/
def bodyAnd (c : Nat) (d r : Reg4) (s : State) : Out := binW c d r (fun a b => a &&& b) s
/-- OR. -/
def bodyOr (c : Nat) (d r : Reg4) (s : State) : Out := binW c d r (fun a b => a ||| b) s
/-- XOR. -/
def bodyXor (c : Nat) (d r : Reg4) (s : State) : Out := binW c d r (fun a b => a ^^^ b) s
/-- SHL: the count is s[4:0]. -/
def bodyShl (c : Nat) (d r : Reg4) (s : State) : Out := binW c d r (fun a b => shlW a (field b 0 5)) s
/-- SHR. -/
def bodyShr (c : Nat) (d r : Reg4) (s : State) : Out := binW c d r (fun a b => shrW a (field b 0 5)) s
/-- SAR. -/
def bodySar (c : Nat) (d r : Reg4) (s : State) : Out := binW c d r (fun a b => sarW a (field b 0 5)) s
/-- ROL: the count is s[3:0]. -/
def bodyRol (c : Nat) (d r : Reg4) (s : State) : Out := binW c d r (fun a b => rolW a (field b 0 4)) s
/-- NOT. -/
def bodyNot (c : Nat) (d r : Reg4) (s : State) : Out := binW c d r (fun _ b => ~~~b) s
/-- NEG. -/
def bodyNeg (c : Nat) (d r : Reg4) (s : State) : Out := binW c d r (fun _ b => 0 - b) s
/-- MOVQ. -/
def bodyMovq (c : Nat) (d : Reg4) (u : Fin 16) (s : State) : Out := unW c d (fun _ => word u.val) s
/-- ADDQ. -/
def bodyAddq (c : Nat) (d : Reg4) (u : Fin 16) (s : State) : Out := unW c d (fun a => a + word u.val) s
/-- SUBQ. -/
def bodySubq (c : Nat) (d : Reg4) (u : Fin 16) (s : State) : Out := unW c d (fun a => a - word u.val) s
/-- SHLQ. -/
def bodyShlq (c : Nat) (d : Reg4) (u : Fin 16) (s : State) : Out := unW c d (fun a => shlW a u.val) s
/-- SHRQ. -/
def bodyShrq (c : Nat) (d : Reg4) (u : Fin 16) (s : State) : Out := unW c d (fun a => shrW a u.val) s
/-- SARQ. -/
def bodySarq (c : Nat) (d : Reg4) (u : Fin 16) (s : State) : Out := unW c d (fun a => sarW a u.val) s
/-- ROLQ. -/
def bodyRolq (c : Nat) (d : Reg4) (u : Fin 16) (s : State) : Out := unW c d (fun a => rolW a u.val) s
/-- MOVI. -/
def bodyMovi (c : Nat) (d : Reg4) (imm : Word) (s : State) : Out := unW c d (fun _ => imm) s
/-- ADDI. -/
def bodyAddi (c : Nat) (d r : Reg4) (imm : Word) (s : State) : Out := immW c d r (fun a => a + imm) s
/-- ANDI. -/
def bodyAndi (c : Nat) (d r : Reg4) (imm : Word) (s : State) : Out := immW c d r (fun a => a &&& imm) s
/-- ORI. -/
def bodyOri (c : Nat) (d r : Reg4) (imm : Word) (s : State) : Out := immW c d r (fun a => a ||| imm) s
/-- XORI. -/
def bodyXori (c : Nat) (d r : Reg4) (imm : Word) (s : State) : Out := immW c d r (fun a => a ^^^ imm) s

/-- MUL. -/
def bodyMul (c : Nat) (a b : Reg4) (s : State) : Out := regOp c (fun k => k.startMul (mulS (k.rw a) (k.rw b))) s
/-- MULU. -/
def bodyMulu (c : Nat) (a b : Reg4) (s : State) : Out := regOp c (fun k => k.startMul (mulU (k.rw a) (k.rw b))) s
/-- MULI. -/
def bodyMuli (c : Nat) (r : Reg4) (imm : Word) (s : State) : Out := regOp c (fun k => k.startMul (mulS (k.rw r) imm)) s
/-- MULUI. -/
def bodyMului (c : Nat) (r : Reg4) (imm : Word) (s : State) : Out := regOp c (fun k => k.startMul (mulU (k.rw r) imm)) s
/-- CMOVNZ. -/
def bodyCmovnz (c : Nat) (d r q : Reg4) (s : State) : Out :=
  regOp c (fun k => if holds (k.rw q) then k.ww d (k.rw r) else k) s
/-- CMOVZ. -/
def bodyCmovz (c : Nat) (d r q : Reg4) (s : State) : Out :=
  regOp c (fun k => if holds (k.rw q) then k else k.ww d (k.rw r)) s
/-- SEL. -/
def bodySel (c : Nat) (d q a b : Reg4) (s : State) : Out :=
  regOp c (fun k => k.ww d (if holds (k.rw q) then k.rw a else k.rw b)) s

/-- CEQ. -/
def bodyCeq (c : Nat) (d a b : Reg4) (s : State) : Out := cmpW c d a b (fun x y => x == y) s
/-- CNE. -/
def bodyCne (c : Nat) (d a b : Reg4) (s : State) : Out := cmpW c d a b (fun x y => x != y) s
/-- CLT. -/
def bodyClt (c : Nat) (d a b : Reg4) (s : State) : Out := cmpW c d a b (fun x y => x.slt y) s
/-- CLE. -/
def bodyCle (c : Nat) (d a b : Reg4) (s : State) : Out := cmpW c d a b (fun x y => x.sle y) s
/-- CLTU. -/
def bodyCltu (c : Nat) (d a b : Reg4) (s : State) : Out := cmpW c d a b (fun x y => x.ult y) s
/-- CLEU. -/
def bodyCleu (c : Nat) (d a b : Reg4) (s : State) : Out := cmpW c d a b (fun x y => x.ule y) s
/-- CADC. -/
def bodyCadc (c : Nat) (d a b : Reg4) (s : State) : Out := cmpW c d a b carries s
/-- COVA. -/
def bodyCova (c : Nat) (d a b : Reg4) (s : State) : Out := cmpW c d a b (fun x y => overflows (x.toInt + y.toInt)) s
/-- COVS. -/
def bodyCovs (c : Nat) (d a b : Reg4) (s : State) : Out := cmpW c d a b (fun x y => overflows (x.toInt - y.toInt)) s
/-- CBIT. -/
def bodyCbit (c : Nat) (d a b : Reg4) (s : State) : Out := cmpW c d a b (fun x y => bit x (field y 0 4)) s
/-- CEQI. -/
def bodyCeqi (c : Nat) (d a : Reg4) (imm : Word) (s : State) : Out := cmpI c d a (fun x => x == imm) s
/-- CNEI. -/
def bodyCnei (c : Nat) (d a : Reg4) (imm : Word) (s : State) : Out := cmpI c d a (fun x => x != imm) s
/-- CLTI. -/
def bodyClti (c : Nat) (d a : Reg4) (imm : Word) (s : State) : Out := cmpI c d a (fun x => x.slt imm) s
/-- CGTI. -/
def bodyCgti (c : Nat) (d a : Reg4) (imm : Word) (s : State) : Out := cmpI c d a (fun x => imm.slt x) s
/-- CLTUI. -/
def bodyCltui (c : Nat) (d a : Reg4) (imm : Word) (s : State) : Out := cmpI c d a (fun x => x.ult imm) s
/-- CGTUI. -/
def bodyCgtui (c : Nat) (d a : Reg4) (imm : Word) (s : State) : Out := cmpI c d a (fun x => imm.ult x) s

end Sys2Proof.Machine
end

