-- ==== Sys2Proof/Machine/Sheets.lean ====
section
/-!
DEFINITION. Sheet arithmetic under the lane mode, sheet products and accumulators, reductions and permutes (R147 to R151).
-/
namespace Sys2Proof

/-- Lane `k` of an accumulator. -/
def Acc.lane (x : Acc) : Nat → BitVec 40
  | 0 => x.l0 | 1 => x.l1 | 2 => x.l2 | 3 => x.l3 | 4 => x.l4 | 5 => x.l5 | 6 => x.l6 | _ => x.l7
/-- The accumulator whose lane `k` is `f k`. -/
def Acc.gen (f : Nat → BitVec 40) : Acc := ⟨f 0, f 1, f 2, f 3, f 4, f 5, f 6, f 7⟩
/-- 32-bit lane `j` of a sheet in PAIR mode: lane 2j is its low word (R147). -/
def Sheet.pair (x : Sheet) (j : Nat) : BitVec 32 := x.lane (2 * j + 1) ++ x.lane (2 * j)
/-- The sheet whose 32-bit lane `j` is `f j`. -/
def Sheet.ofPairs (f : Nat → BitVec 32) : Sheet :=
  Sheet.gen fun i => if i % 2 = 0 then (f (i / 2)).setWidth 16 else (f (i / 2) >>> 16).setWidth 16

end Sys2Proof

namespace Sys2Proof.Machine

/-- Lane by lane on two sheets. -/
def lanes2 (f : Word → Word → Word) (a b : Sheet) : Sheet := Sheet.gen fun i => f (a.lane i) (b.lane i)
/-- 32-bit lane by lane on two sheets. -/
def pairs2 (f : BitVec 32 → BitVec 32 → BitVec 32) (a b : Sheet) : Sheet := Sheet.ofPairs fun j => f (a.pair j) (b.pair j)
/-- The larger or smaller of two values, signed: `b` where `c` holds of (a, b), else `a`. -/
def pick {n : Nat} (c : BitVec n → BitVec n → Bool) (a b : BitVec n) : BitVec n := if c a b then b else a
/-- |a − b|, unsigned. -/
def absDiff {n : Nat} (a b : BitVec n) : BitVec n := if a.ult b then b - a else a - b
/-- 1 or 0 as a lane. -/
def laneTruth (n : Nat) (b : Bool) : BitVec n := if b then 1#n else 0#n

/-- An operation that STATUS.LM governs: WRAP, SAT or PAIR (R147). Under the reserved LM 11b, which only a frame can restore,
the spec states no result: the lanes are free values (log 36). -/
def lmOp (c : Nat) (d : Reg4) (wrap sat pair : Sheet → Sheet) (s : State) : Out :=
  let k := s.clerk c
  match k.lm with
  | 0 => .done (s.setClerk c (k.ws d (wrap (k.rs d))))
  | 1 => .done (s.setClerk c (k.ws d (sat (k.rs d))))
  | 2 => .done (s.setClerk c (k.ws d (pair (k.rs d))))
  | _ => .done (({ s with free := s.free + 8 }).setClerk c (k.ws d (Sheet.gen fun i => Config.freeWord (s.free + i))))
/-- Such an operation on two registers. -/
def lmBin (c : Nat) (d r : Reg4) (wrap sat : Word → Word → Word) (pair : BitVec 32 → BitVec 32 → BitVec 32) (s : State) : Out :=
  let b := (s.clerk c).rs r
  lmOp c d (fun a => lanes2 wrap a b) (fun a => lanes2 sat a b) (fun a => pairs2 pair a b) s
/-- Such a shift. -/
def lmShift (c : Nat) (d : Reg4) (wrap sat : Word → Word) (pair : BitVec 32 → BitVec 32) (s : State) : Out :=
  lmOp c d (fun a => Sheet.gen fun i => wrap (a.lane i)) (fun a => Sheet.gen fun i => sat (a.lane i))
    (fun a => Sheet.ofPairs fun j => pair (a.pair j)) s
/-- d := f(d, s) lane by lane, whatever LM holds. -/
def laneOp (c : Nat) (d r : Reg4) (f : Word → Word → Word) (s : State) : Out :=
  regOp c (fun k => k.ws d (lanes2 f (k.rs d) (k.rs r))) s

/-! ## Sheet arithmetic (R148) -/

/-- SMOV. -/
def bodySmov (c : Nat) (d r : Reg4) (s : State) : Out := laneOp c d r (fun _ b => b) s
/-- SADD. -/
def bodySadd (c : Nat) (d r : Reg4) (s : State) : Out :=
  lmBin c d r (fun a b => a + b) (fun a b => sat16 (a.toInt + b.toInt)) (fun a b => a + b) s
/-- SSUB. -/
def bodySsub (c : Nat) (d r : Reg4) (s : State) : Out :=
  lmBin c d r (fun a b => a - b) (fun a b => sat16 (a.toInt - b.toInt)) (fun a b => a - b) s
/-- SAND. -/
def bodySand (c : Nat) (d r : Reg4) (s : State) : Out := laneOp c d r (fun a b => a &&& b) s
/-- SOR. -/
def bodySor (c : Nat) (d r : Reg4) (s : State) : Out := laneOp c d r (fun a b => a ||| b) s
/-- SXOR. -/
def bodySxor (c : Nat) (d r : Reg4) (s : State) : Out := laneOp c d r (fun a b => a ^^^ b) s
/-- SMIN, signed. -/
def bodySmin (c : Nat) (d r : Reg4) (s : State) : Out :=
  lmBin c d r (pick fun a b => b.slt a) (pick fun a b => b.slt a) (pick fun a b => b.slt a) s
/-- SMAX, signed. -/
def bodySmax (c : Nat) (d r : Reg4) (s : State) : Out :=
  lmBin c d r (pick fun a b => a.slt b) (pick fun a b => a.slt b) (pick fun a b => a.slt b) s
/-- SABD, unsigned. -/
def bodySabd (c : Nat) (d r : Reg4) (s : State) : Out := lmBin c d r absDiff absDiff absDiff s
/-- SSHL. -/
def bodySshl (c : Nat) (d : Reg4) (u : Fin 16) (s : State) : Out :=
  lmShift c d (fun a => a <<< u.val) (fun a => sat16 (a.toInt * 2 ^ u.val)) (fun a => a <<< u.val) s
/-- SSHR. -/
def bodySshr (c : Nat) (d : Reg4) (u : Fin 16) (s : State) : Out :=
  lmShift c d (fun a => a >>> u.val) (fun a => a >>> u.val) (fun a => a >>> u.val) s
/-- SSAR. -/
def bodySsar (c : Nat) (d : Reg4) (u : Fin 16) (s : State) : Out :=
  lmShift c d (fun a => a.sshiftRight u.val) (fun a => a.sshiftRight u.val) (fun a => a.sshiftRight u.val) s
/-- SCEQ. -/
def bodySceq (c : Nat) (d r : Reg4) (s : State) : Out :=
  lmBin c d r (fun a b => laneTruth 16 (a == b)) (fun a b => laneTruth 16 (a == b)) (fun a b => laneTruth 32 (a == b)) s
/-- SCLT. -/
def bodySclt (c : Nat) (d r : Reg4) (s : State) : Out :=
  lmBin c d r (fun a b => laneTruth 16 (a.slt b)) (fun a b => laneTruth 16 (a.slt b)) (fun a b => laneTruth 32 (a.slt b)) s
/-- SCLTU. -/
def bodyScltu (c : Nat) (d r : Reg4) (s : State) : Out :=
  lmBin c d r (fun a b => laneTruth 16 (a.ult b)) (fun a b => laneTruth 16 (a.ult b)) (fun a b => laneTruth 32 (a.ult b)) s
/-- SANDN. -/
def bodySandn (c : Nat) (d r : Reg4) (s : State) : Out := laneOp c d r (fun a b => a &&& ~~~b) s

/-! ## Sheet multiply and accumulate (R149) -/

/-- Lane products start on their way to SPH:SPL: the third instruction after is the first to see them (R114). -/
def Clerk.startSmul (k : Clerk) (f : Word → Word → BitVec 32) (a b : Sheet) : Clerk :=
  { k with smulPend := k.smulPend ++ [(3, lanes2 (fun x y => loW (f x y)) a b, lanes2 (fun x y => hiW (f x y)) a b)] }
/-- SMUL. -/
def bodySmul (c : Nat) (a b : Reg4) (s : State) : Out := regOp c (fun k => k.startSmul mulS (k.rs a) (k.rs b)) s
/-- SMULU. -/
def bodySmulu (c : Nat) (a b : Reg4) (s : State) : Out := regOp c (fun k => k.startSmul mulU (k.rs a) (k.rs b)) s
/-- Adds a product to each lane of an accumulator, modulo 2^40. -/
def Acc.addProducts (x : Acc) (f : Nat → Int) : Acc := Acc.gen fun i => x.lane i + BitVec.ofInt 40 (f i)
/-- SMAC. -/
def bodySmac (c : Nat) (n : Fin 4) (a b : Reg4) (s : State) : Out :=
  regOp c (fun k => k.wa n (Acc.addProducts (k.ra n) fun i => ((k.rs a).lane i).toInt * ((k.rs b).lane i).toInt)) s
/-- SMACW. -/
def bodySmacw (c : Nat) (n : Fin 4) (a b : Reg4) (s : State) : Out :=
  regOp c (fun k => k.wa n (Acc.addProducts (k.ra n) fun i => ((k.rs a).lane i).toInt * (k.rw b).toInt)) s
/-- SMACUW. -/
def bodySmacuw (c : Nat) (n : Fin 4) (a b : Reg4) (s : State) : Out :=
  regOp c (fun k => k.wa n (Acc.addProducts (k.ra n) fun i => (((k.rs a).lane i).toNat : Int) * (k.rw b).toInt)) s

/-! ## Accumulators and reductions (R150) -/

/-- ACLR. -/
def bodyAclr (c : Nat) (n : Fin 4) (s : State) : Out := regOp c (fun k => k.wa n Acc.zero) s
/-- AHSUM. -/
def bodyAhsum (c : Nat) (n : Fin 4) (s : State) : Out :=
  regOp c (fun k => k.wa n { Acc.zero with l0 := (List.range 8).foldl (fun t i => t + (k.ra n).lane i) 0 }) s
/-- Part `p` of an accumulator lane: bits 15:0, 31:16, or the sign-extended bits 39:32. -/
def accPart (x : BitVec 40) (p : Nat) : Word :=
  match p with
  | 0 => x.setWidth 16
  | 1 => (x >>> 16).setWidth 16
  | _ => ((x >>> 32).setWidth 8).signExtend 16
/-- An accumulator lane with part `p` replaced. -/
def setAccPart (x : BitVec 40) (p : Nat) (v : Word) : BitVec 40 :=
  match p with
  | 0 => (x >>> 16).setWidth 24 ++ v
  | 1 => (x >>> 32).setWidth 8 ++ (v ++ x.setWidth 16)
  | _ => v.setWidth 8 ++ x.setWidth 32
/-- AGET. -/
def bodyAget (c : Nat) (d : Reg4) (n : Fin 4) (p : Fin 3) (s : State) : Out :=
  regOp c (fun k => k.ws d (Sheet.gen fun i => accPart ((k.ra n).lane i) p.val)) s
/-- ASET. -/
def bodyAset (c : Nat) (r : Reg4) (n : Fin 4) (p : Fin 3) (s : State) : Out :=
  regOp c (fun k => k.wa n (Acc.gen fun i => setAccPart ((k.ra n).lane i) p.val ((k.rs r).lane i))) s
/-- A lane shifted right with rounding, floored and saturated. -/
def aoutLane (x : BitVec 40) (u : Nat) : Word := sat16 ((x.toInt + (if 0 < u then 2 ^ (u - 1) else 0)) / 2 ^ u)
/-- AOUT. -/
def bodyAout (c : Nat) (d : Reg4) (n : Fin 4) (u : Fin 16) (s : State) : Out :=
  regOp c (fun k => k.ws d (Sheet.gen fun i => aoutLane ((k.ra n).lane i) u.val)) s
/-- APUT. -/
def bodyAput (c : Nat) (n : Fin 4) (r : Reg4) (s : State) : Out :=
  regOp c (fun k => k.wa n (Acc.gen fun i => ((k.rs r).lane i).signExtend 40)) s
/-- SSUM. -/
def bodySsum (c : Nat) (d r : Reg4) (s : State) : Out :=
  regOp c (fun k => k.ww d (sat16 (((k.rs r).toList.map fun x => x.toInt).sum))) s
/-- SMAXR. -/
def bodySmaxr (c : Nat) (d r : Reg4) (s : State) : Out :=
  regOp c (fun k => k.ww d ((k.rs r).toList.foldl (pick fun a b => a.slt b) (k.rs r).l0)) s
/-- SMINR. -/
def bodySminr (c : Nat) (d r : Reg4) (s : State) : Out :=
  regOp c (fun k => k.ww d ((k.rs r).toList.foldl (pick fun a b => b.slt a) (k.rs r).l0)) s

/-! ## Sheet permute (R151) -/

/-- SBCAST. -/
def bodySbcast (c : Nat) (d r : Reg4) (s : State) : Out := regOp c (fun k => k.ws d (Sheet.gen fun _ => k.rw r)) s
/-- SROT. -/
def bodySrot (c : Nat) (d : Reg4) (n : Fin 8) (s : State) : Out :=
  regOp c (fun k => k.ws d (Sheet.gen fun i => (k.rs d).lane ((i + n.val) % 8))) s
/-- SCMOV. -/
def bodyScmov (c : Nat) (d r q : Reg4) (s : State) : Out :=
  regOp c (fun k => k.ws d (Sheet.gen fun i => if holds ((k.rs q).lane i) then (k.rs r).lane i else (k.rs d).lane i)) s
/-- SGET. -/
def bodySget (c : Nat) (d r : Reg4) (l : Fin 8) (s : State) : Out := regOp c (fun k => k.ww d ((k.rs r).lane l.val)) s
/-- SPUT. -/
def bodySput (c : Nat) (d r : Reg4) (l : Fin 8) (s : State) : Out :=
  regOp c (fun k => k.ws d (Sheet.gen fun i => if i = l.val then k.rw r else (k.rs d).lane i)) s
/-- SPERM. -/
def bodySperm (c : Nat) (d r p : Reg4) (s : State) : Out :=
  regOp c (fun k => k.ws d (Sheet.gen fun i => (k.rs r).lane (field ((k.rs p).lane i) 0 3))) s

end Sys2Proof.Machine
end

