-- ==== Sys2Proof/Machine/Branch.lean ====
section
/-!
DEFINITION. Branches, calls and returns (R140 to R142), with what they leave in the predictor when they retire (R66 to R69).
-/
namespace Sys2Proof.Machine

/-- Address of the word after an instruction of `len` words (R134). -/
def Clerk.next (k : Clerk) (len : Nat) : CodeAddr := k.pc + BitVec.ofNat 20 len
/-- Target of a register pair: h[3:0]:l (R140). -/
def pairTarget (h l : Word) : CodeAddr := h.setWidth 4 ++ l
/-- A branch retires, taken to `t` or not: the predictor learns it, and the events of taken branches count (R69, R87). -/
def branchTo (c : Nat) (kind : BranchKind) (taken : Bool) (t : CodeAddr) (len : Nat) (s : State) : Out :=
  let k := s.clerk c
  let missed := taken && kind != .ret && (k.pred.btbHit k.pc k.ctx (k.key c)).isNone
  let s1 := ({ s with free := s.free + 1 }).setClerk c 
    (k.trainBranch c kind taken t (k.next len) (s.peeks (codeKey (clerkDie c) (s.codeWord c t)) 2) s.free)
  let s2 := if taken then s1.pcnt c 0x04 1 else s1
  let s3 := if missed then s2.pcnt c 0x06 1 else s2
  if taken then .jump s3 t else .done s3
/-- The link of a call: W13 and W14 hold the address after it (R141). -/
def Clerk.link (k : Clerk) (len : Nat) : Clerk :=
  (k.ww 13 (word ((k.next len).toNat / 65536))).ww 14 ((k.next len).setWidth 16)
/-- A conditional relative branch of `len` words; with C = 0000b it is resolved at DC (R142). -/
def condBranch (c : Nat) (q : Reg4) (want : Bool) (disp : CodeAddr) (len : Nat) (s : State) : Out :=
  let k := s.clerk c
  branchTo c (if q = 0 then .direct else .cond) (holds (k.rw q) == want) (k.next len + disp) len s

/-- BNZ. -/
def bodyBnz (c : Nat) (q : Reg4) (disp : BitVec 8) (s : State) : Out := condBranch c q true (disp.signExtend 20) 1 s
/-- BZ. -/
def bodyBz (c : Nat) (q : Reg4) (disp : BitVec 8) (s : State) : Out := condBranch c q false (disp.signExtend 20) 1 s
/-- BNZL. -/
def bodyBnzl (c : Nat) (q : Reg4) (disp : Word) (s : State) : Out := condBranch c q true (disp.signExtend 20) 2 s
/-- BZL. -/
def bodyBzl (c : Nat) (q : Reg4) (disp : Word) (s : State) : Out := condBranch c q false (disp.signExtend 20) 2 s
/-- JMP. -/
def bodyJmp (c : Nat) (t : CodeAddr) (s : State) : Out := branchTo c .direct true t 2 s
/-- CALL. -/
def bodyCall (c : Nat) (t : CodeAddr) (s : State) : Out :=
  branchTo c .callDirect true t 2 (s.modClerk c fun k => k.link 2)
/-- JMPR. -/
def bodyJmpr (c : Nat) (h l : Reg4) (s : State) : Out :=
  branchTo c .indirect true (pairTarget ((s.clerk c).rw h) ((s.clerk c).rw l)) 1 s
/-- CALLR: the target is computed before the link (R141). -/
def bodyCallr (c : Nat) (h l : Reg4) (s : State) : Out :=
  let t := pairTarget ((s.clerk c).rw h) ((s.clerk c).rw l)
  branchTo c .callIndirect true t 1 (s.modClerk c fun k => k.link 1)
/-- RET. -/
def bodyRet (c : Nat) (s : State) : Out :=
  branchTo c .ret true (pairTarget ((s.clerk c).rw 13) ((s.clerk c).rw 14)) 1 s

end Sys2Proof.Machine
end

