-- ==== Sys2Proof/Machine/ClerkPort.lean ====
section
/-!
DEFINITION. Port accesses of a clerk: words and sheets, slot pushes and pops, the route's stamps, peeks and held writes (R101,
R102, R106, R111, R144, R145, R173 to R179, R203 to R208, R263).
-/
namespace Sys2Proof.Machine

/-! ## Slots (R203 to R207, R216) -/

/-- Slot whose data ports begin at the port. -/
def slotData (p : Nat) : Option Nat := if 0x100 ≤ p ∧ p < 0x500 ∧ p % 16 = 0 then some ((p - 0x100) / 16) else none
/-- Is the port one of a slot's data ports? -/
def inSlotData (p : Nat) : Bool := decide (0x100 ≤ p) && decide (p < 0x500) && decide (p % 16 < 8)
/-- The sheet that a push of clerk `c` makes: a draft of the current epoch while EP = 1 (R179, R181). -/
def Clerk.pushItem (k : Clerk) (c : Nat) (x : Sheet) : BagItem :=
  match k.young with
  | some i => if k.ep then { data := x, tag := k.slotTag c i, depth := (k.slot i).depth, flips := 0 } else ordinary x
  | none => ordinary x
/-- A stamp of the clerk's route at its die's fabric meter, or the wait for one (R442, R445). -/
def State.fabStamp (s : State) (c : Nat) (f : State → Stored) : Stored :=
  let rt := s.clerkRoute c
  if s.hasStamp (clerkDie c) rt 0 then f (s.takeStamp (clerkDie c) rt 0) else .wait .postage (s.noteWait rt 0)
/-- A push through slot `i`: the own die's engine takes it when it has room, another die's by a charged parcel; a slot that
is not bound to push denies it (R102, R203, R205, R206, R212). -/
def State.slotPush (s : State) (c i : Nat) (x : Sheet) : Stored :=
  match s.slotBag c i 2 with
  | none => .ok (s.portViolation c true (0x100 + 16 * i))
  | some n =>
    let item := (s.clerk c).pushItem c x
    if bagDie n = clerkDie c then
      if !(s.bagRefuses n) && !(s.bagAhead n) && s.bagRoom n item then .ok (s.bagEnter n item) else .wait .push s
    else s.fabStamp c fun u => .ok (u.pushFrom (8 + c) n item)
/-- A pop through slot `i` (R206, R207). -/
def State.slotPop (s : State) (c i : Nat) : Loaded :=
  match s.slotBag c i 1 with
  | none => .vals (List.replicate 8 0) (s.portViolation c false (0x100 + 16 * i))
  | some n =>
    match s.clerkPop c n with
    | .wait k t => .wait k t
    | .got x t => .vals x.toList t

/-! ## One violation for one access -/

/-- A sheet access that is denied counts one violation, which names its first port; a global one has the origin of its PORTS
parcel, with port bits 7:3 in AUX (R249, R431). -/
def State.asOne (s : State) (c p : Nat) (wr : Bool) (f : State → List Word × State) : List Word × State :=
  let old := s.reg Reg.CS_PVCNT
  let r := f s
  let t := r.2
  if old.toNat < (t.reg Reg.CS_PVCNT).toNat then
    (r.1, ((t.setReg Reg.CS_PVCNT (satAdd old 1)).setReg Reg.CS_PVORIGIN
      (originWord c wr (if 0x4000 ≤ p then p / 8 % 32 else 0))).setReg Reg.CS_PVPORT (word p))
  else r
/-- Reads ports `p` to `p + n - 1` in order. -/
def State.readRun (s : State) (f : State → Nat → Word × State) (p : Nat) : Nat → List Word × State
  | 0 => ([], s)
  | n + 1 =>
    let x := f s p
    let r := x.2.readRun f (p + 1) n
    (x.1 :: r.1, r.2)
/-- Writes words to consecutive ports in order. -/
def State.writeRun (s : State) (f : State → Nat → Word → State) (p : Nat) : List Word → State
  | [] => s
  | v :: t => (f s p v).writeRun f (p + 1) t

/-! ## Reads -/

/-- Is the read one whose only purpose is to change state: a pop through MB_DATA (R176)? -/
def popsBox (p : Nat) : Bool :=
  match mbData p with
  | some (_, 0) => true
  | _ => false
/-- A read of clerk-local and die-local ports; inside an epoch a die-local one is a peek (R102, R173, R176). -/
def State.nearReads (s : State) (c p n : Nat) : List Word × State :=
  let quiet := (s.clerk c).ep && decide (0x1000 ≤ p)
  let f := fun (t : State) => t.readRun (fun u q => u.nearRead c q quiet) p n
  if n = 1 then f s else s.asOne c p false f
/-- A global read that has arrived at its block; MB_DATA is read as one pop, whose lanes are the read's (R208). -/
def State.globalReads (s : State) (c p n : Nat) : List Word × State :=
  let quiet := (s.clerk c).ep
  let f := fun (t : State) =>
    if n = 8 ∧ popsBox p then
      (let x := t.popPort c (((mbData p).getD (0, 0)).1)
       (x.1.toList, x.2))
    else t.readRun (fun u q => u.readReg c q quiet) p n
  if n = 1 then f s else s.asOne c p false f
/-- A read of `n` ports from `p` by clerk `c`: a global one needs a stamp, travels, and waits for its reply, which an undelivered
one gets at once as 0000h (R106, R176, R262, R263, R445). -/
def State.portRead (s : State) (c p n : Nat) (g : Option Grant) : Loaded :=
  if p < 0x4000 then
    (match (if n = 8 then slotData p else none) with
      | some i => s.slotPop c i
      | none => let r := s.nearReads c p n; .vals r.1 r.2)
  else if (s.clerk c).ep && popsBox p then .wait .peek s
  else match g with
    | some g => .vals (if g.bad0 then List.replicate n 0 else g.val) s
    | none =>
      let rt := s.clerkRoute c
      if !(s.hasStamp (clerkDie c) rt 0) then .wait .postage (s.noteWait rt 0)
      else
        let s1 := s.takeStamp (clerkDie c) rt 0
        match s1.portFault (clerkDie c) p with
        | some cause =>
          .vals (List.replicate n 0) (s1.dropParcel cause (clerkDie c) (portDie p) (portWords c p n false []))
        | none =>
          let r := (s1.passRoute (clerkDie c) (portDie p)).globalReads c p n
          .wait .portReply (r.2.launch (.portReply c (portDie p) r.1 false))

/-! ## Writes -/

/-- Writes of a clerk as they are performed, with the right of the mode they were made in: one parcel for a word or a sheet (R106,
R175). -/
def State.doWrites (s : State) (sup : Bool) (c p : Nat) (vs : List Word) : State :=
  let f := fun (t : State) =>
    if p < 0x4000 then ([], t.writeRun (fun u q v => u.nearWriteAs sup c q v) p vs)
    else ([], t.travel c p vs (fun u => u.writeRun (fun x q v => x.globalWrite c q v) p vs) (fun u => u))
  if vs.length = 1 then (f s).2 else (s.asOne c p true f).2
/-- Is a write of the port held inside an epoch: not reserved, not an epoch port or a slot's data port, and not denied by the
clerk's mode (R102, R173)? -/
def State.holds (s : State) (c p : Nat) : Bool :=
  if 0x4000 ≤ p then (regRow p).isSome
  else
    !(decide (0xE0 ≤ p) && decide (p ≤ 0xFF)) && !(inSlotData p) && (regRow (nearKey c p)).isSome &&
      ((s.clerk c).sup || (decide (p < 0x1000) && taskMayWrite p))
/-- A write of `vs` to ports from `p` by clerk `c`: a slot push, a held write, or a write performed at retire, a global one
with a stamp (R102, R145, R173, R175, R203, R445). -/
def State.portWrite (s : State) (c p : Nat) (vs : List Word) : Stored :=
  match (if vs.length = 8 then slotData p else none) with
  | some i => s.slotPush c i (Sheet.ofList vs)
  | none =>
    if (s.clerk c).ep && s.holds c p then
      (if (s.clerk c).heldRoom then .ok (s.holdWrite c p vs) else .wait .held s)
    else if p < 0x4000 then .ok (s.doWrites (s.clerk c).sup c p vs)
    else s.fabStamp c fun u => .ok (u.doWrites (s.clerk c).sup c p vs)

/-! ## IN, OUT, INS, OUTS, OUTI (R144 to R146) -/

/-- IN: where the base is the destination, only the value read is written. -/
def bodyIn (c : Nat) (d : Reg4) (m : PortMode) (g : Option Grant) (s : State) : Out :=
  let e := (s.clerk c).portEA m 1
  (s.portRead c e.addr.toNat 1 g).bind fun ws t => regOp c (fun k => (k.updBase e).ww d (ws.getD 0 0)) t
/-- OUT. -/
def bodyOut (c : Nat) (r : Reg4) (m : PortMode) (s : State) : Out :=
  let e := (s.clerk c).portEA m 1
  (s.portWrite c e.addr.toNat [(s.clerk c).rw r]).bind fun t => regOp c (fun k => k.updBase e) t
/-- INS: the port number is a multiple of 8 (R111). -/
def bodyIns (c : Nat) (d : Reg4) (m : PortMode) (g : Option Grant) (s : State) : Out :=
  let e := (s.clerk c).portEA m 8
  if e.addr.toNat % 8 ≠ 0 then .exc 4 0 false s
  else (s.portRead c e.addr.toNat 8 g).bind fun ws t => regOp c (fun k => (k.updBase e).ws d (Sheet.ofList ws)) t
/-- OUTS. -/
def bodyOuts (c : Nat) (r : Reg4) (m : PortMode) (s : State) : Out :=
  let e := (s.clerk c).portEA m 8
  if e.addr.toNat % 8 ≠ 0 then .exc 4 0 false s
  else (s.portWrite c e.addr.toNat ((s.clerk c).rs r).toList).bind fun t => regOp c (fun k => k.updBase e) t
/-- OUTI. -/
def bodyOuti (c : Nat) (b : Reg4) (x imm : Word) (s : State) : Out :=
  (s.portWrite c ((s.clerk c).rw b + x).toNat [imm]).bind fun t => .done t
/-- A pop through slot `i` into Sd, as the INS that SLOT_POP and DRAFT_POP stand for does it (R180, R206). -/
def bodySlotPop (c i : Nat) (d : Reg4) (s : State) : Out :=
  (s.slotPop c i).bind fun ws t => regOp c (fun k => k.ws d (Sheet.ofList ws)) t

end Sys2Proof.Machine
end

