-- ==== Sys2Proof/Machine/CodeSpace.lean ====
section
/-!
DEFINITION. Instruction space: the instruction window, the group line caches, code-store line reads, GETI, PUTI with its queue,
and SYNCI (R63 to R65, R81 to R84, R93 to R95, R132, R146, R493).
-/
namespace Sys2Proof.Machine

/-! ## The instruction window (R94, R95, R132) -/

/-- Do all words of an instruction of `len` words at PC lie in the window (R94, R132)? -/
def State.fetchable (s : State) (c len : Nat) : Bool :=
  (List.range len).all fun i => decide (((s.clerk c).next i).toNat < s.winWords c)
/-- May clerk `c` write line `n` with PUTI at address `t` (R95)? -/
def State.mayPut (s : State) (c : Nat) (t : CodeAddr) : Bool :=
  let n := t.toNat / 16
  let b := (s.reg (Reg.CLK_IWR_BASE c)).toNat
  decide (b ≤ n) && decide (n < b + (s.reg (Reg.CLK_IWR_LEN c)).toNat) && decide (t.toNat < s.winWords c)

/-! ## Group line caches (R63, R64) -/

/-- Key of the line cache of a clerk's group; PM0 and PM1 share one. -/
def groupKey (c : Nat) : Nat := if c < 128 then 8 * clerkDie c + c % 32 / 4 else 0
/-- A group's line cache. -/
def State.lineCache (s : State) (g : Nat) : LineCache := s.lineCaches.getD g LineCache.reset
/-- The words of a line, if the cache holds it. The set index is bits 9:4 of the word address, so bits 5:0 of the line. -/
def LineCache.lookup (x : LineCache) (line : Nat) : Option (List Word) :=
  ((x.sets.getD (line % 64) []).find? fun e => e.line == line).map fun e => e.words
/-- A line access that a clerk of the group makes on a demand: the line becomes the most recently used of its set, displacing
the least recently used of four. -/
def LineCache.demand (x : LineCache) (line : Nat) (ws : List Word) : LineCache :=
  let rest := (x.sets.getD (line % 64) []).filter fun e => e.line != line
  { x with sets := x.sets.set (line % 64) ({ line := line, words := ws, last := some x.count } :: rest.take 3),
           count := x.count + 1 }
/-- A prefetched line enters unless that would displace a line fetched within the last 64 line accesses (R64). DESIGN CHOICE (log
75): it stands as the least recently used of its set. -/
def LineCache.prefetch (x : LineCache) (line : Nat) (ws : List Word) : LineCache :=
  let l := x.sets.getD (line % 64) []
  let e : CacheLine := { line := line, words := ws, last := none }
  if l.length < 4 then { x with sets := x.sets.set (line % 64) (l ++ [e]) }
  else match l.getLast? with
    | some v =>
      if (v.last.getD 0) + 64 < x.count || v.last.isNone then { x with sets := x.sets.set (line % 64) (l.dropLast ++ [e]) } else x
    | none => x
/-- The cache without the lines that `p` names (R84). -/
def LineCache.invalidate (x : LineCache) (p : Nat → Bool) : LineCache :=
  { x with sets := x.sets.map fun e => (e.1, e.2.filter fun l => !(p l.line)) }
/-- The 16 words of a line of a die's code store. -/
def State.lineWords (s : State) (d line : Nat) : List Word := s.peeks (codeKey d (16 * line)) 16
/-- A group's line cache changed by `f`. -/
def State.modCache (s : State) (g : Nat) (f : LineCache → LineCache) : State :=
  { s with lineCaches := s.lineCaches.set g (f (s.lineCache g)) }
/-- After a demand fetch of a line, the next one is requested from the code store if the cache lacks it (R64). -/
def State.prefetchNext (s : State) (c line : Nat) : State :=
  if ((s.lineCache (groupKey c)).lookup (line + 1)).isSome ∨ 262144 ≤ line + 1 then s
  else (s.pcnt c 0x09 1).modCache (groupKey c) fun x => x.prefetch (line + 1) (s.lineWords (clerkDie c) (line + 1))
/-- A demand access of clerk `c` to line `line`, which has the words `ws` (R63, R64). -/
def State.demandLine (s : State) (c line : Nat) (ws : List Word) : State :=
  (s.modCache (groupKey c) fun x => x.demand line ws).prefetchNext c line
/-- FT fetches a line for clerk `c` that the group's cache holds, unless it is the line it delivered last. A line that the cache
lacks comes by CODE_STORE_LINE_READ. -/
def State.fetchLine (s : State) (c line : Nat) : State :=
  let x := s.lineCache (groupKey c)
  match x.lookup line with
  | some ws =>
    if x.ft.find? c = some line then s
    else (s.demandLine c line ws).modCache (groupKey c) fun y => { y with ft := y.ft.set c line }
  | none => s
/-- FT fetches the lines of the instruction of `len` words at PC. -/
def State.fetchLines (s : State) (c len : Nat) : State :=
  (((List.range len).map fun i => s.codeLine c ((s.clerk c).next i)).eraseDups).foldl (fun t l => t.fetchLine c l) s
/-- The word at instruction address `t`, if the group's cache holds its line. -/
def State.cachedWord (s : State) (c : Nat) (t : CodeAddr) : Option Word :=
  ((s.lineCache (groupKey c)).lookup (s.codeLine c t)).bind fun ws => ws[s.codeWord c t % 16]?

/-! ## GETI (R94, R146) -/

/-- The word that the executing clerk's code-write queue holds for a code-store word, if any. -/
def Clerk.queued (k : Clerk) (w : Nat) : Option Word :=
  (k.codeQueue.find? fun e => e.line == w / 16).bind fun e => e.words.find? (w % 16)
/-- GETI and GETIA at address `t`: FETCH above the window or on an uncorrectable line; a queued word from the queue; else
through the group's line cache, waiting for the code store on a miss. -/
def getWord (c : Nat) (d : Reg4) (t : CodeAddr) (g : Option Grant) (s : State) : Out :=
  if s.winWords c ≤ t.toNat then .exc 7 0 false s
  else match (s.clerk c).queued (s.codeWord c t) with
    | some v => regOp c (fun k => k.ww d v) s
    | none =>
      let line := s.codeLine c t
      match (s.lineCache (groupKey c)).lookup line, g with
      | some ws, _ =>
        regOp c (fun k => k.ww d (ws.getD (s.codeWord c t % 16) 0)) (s.demandLine c line ws)
      | none, some gr => if gr.bad0 then .exc 7 0 false s else .wait .codeLine s
      | none, none => .wait .codeLine s
/-- GETI. -/
def bodyGeti (c : Nat) (d h l : Reg4) (g : Option Grant) (s : State) : Out :=
  getWord c d (pairTarget ((s.clerk c).rw h) ((s.clerk c).rw l)) g s
/-- GETIA. -/
def bodyGetia (c : Nat) (d : Reg4) (t : CodeAddr) (g : Option Grant) (s : State) : Out := getWord c d t g s

/-! ## PUTI (R81, R95, R127, R129, R173) -/

/-- A refused PUTI: a code permission violation that names the line; CODE_PERM, or PRIVILEGE in TASK mode (R95, R431). -/
def putRefused (c : Nat) (t : CodeAddr) (s : State) : Out :=
  .exc (if (s.clerk c).sup then 6 else 2) 0 false
    (s.violation Reg.CS_CPVCNT (originWord c true 0) (word (t.toNat / 16)))
/-- Puts a word into a queue: a line already queued takes it into its entry (R81). -/
def queuePut (w : Nat) (v : Word) : List CodeEntry → List CodeEntry
  | [] => [{ line := w / 16, words := [(w % 16, v)] }]
  | e :: t => if e.line = w / 16 then { e with words := e.words.set (w % 16) v } :: t else e :: queuePut w v t
/-- PUTI and PUTIA at address `t`: refused outside R95, forbidden inside an epoch, waiting on a full queue. -/
def putWord (c : Nat) (r : Reg4) (t : CodeAddr) (s : State) : Out :=
  let k := s.clerk c
  let w := s.codeWord c t
  if !(s.mayPut c t) then putRefused c t s
  else if k.ep then .exc 0xC 0 false s
  else if k.codeQueue.length < 8 || k.codeQueue.any fun e => e.line == w / 16 then
    regOp c (fun k => { k with codeQueue := queuePut w (k.rw r) k.codeQueue }) s
  else .wait .codeQueue s
/-- PUTI. -/
def bodyPuti (c : Nat) (r h l : Reg4) (s : State) : Out :=
  putWord c r (pairTarget ((s.clerk c).rw h) ((s.clerk c).rw l)) s
/-- PUTIA. -/
def bodyPutia (c : Nat) (r : Reg4) (t : CodeAddr) (s : State) : Out := putWord c r t s

/-- CODE_WRITE_QUEUE_WRITE: the oldest entry is written to the code store as one line (R81). -/
def State.queueWrite (s : State) (c : Nat) : State :=
  let k := s.clerk c
  match k.codeQueue with
  | [] => s
  | e :: t =>
    let s1 := e.words.foldl (fun (u : State) (w : Nat × Word) => u.poke (codeKey (clerkDie c) (16 * e.line + w.1)) w.2) s
    s1.modClerk c fun k => { k with codeQueue := t, codeDirty := if k.codeDirty.contains e.line then k.codeDirty else e.line :: k.codeDirty }

/-! ## SYNCI (R84, R173) -/

/-- Does a BTB entry of clerk `c` cover one of the lines: the two words of the branch itself, or the two words kept from its target (R66)? -/
def State.btbCovers (s : State) (c : Nat) (lines : List Nat) (e : BtbEntry) (key : BitVec 16) : Bool :=
  let t := btbMask e.target key
  [e.pc, e.pc + 1, t, t + 1].any fun a => lines.contains (s.codeLine c a)
/-- The BTB of clerk `c` without entries that cover the lines. A context's entries are stored under its own key, so each is
read with the key of its context tag. -/
def State.btbInvalidate (s : State) (c : Nat) (lines : List Nat) : State :=
  s.modClerk c fun k =>
    let keyOf := fun (ctx : BitVec 8) =>
      match k.pred.keys.find? fun e => e.1 == ctx.toNat with
      | some e => Config.predKey c e.2
      | none => k.key c
    { k with pred := { k.pred with btb := k.pred.btb.map fun e =>
        (e.1, e.2.filter fun b => !(s.btbCovers c lines b (keyOf b.ctx))) } }
/-- Invalidates the lines in the eight group caches of the die and in the BTBs of its clerks (R84). -/
def State.invalidateLines (s : State) (d : Nat) (lines : List Nat) : State :=
  let s1 : State := { s with lineCaches := s.lineCaches.map fun e =>
    if e.1 / 8 = d then (e.1, e.2.invalidate lines.contains) else e }
  (s1.clerks.filter fun e => clerkDie e.1 == d).foldl (fun (t : State) (e : Nat × Clerk) => t.btbInvalidate e.1 lines) s1
/-- SYNCI: EPOCH inside an epoch; else it waits for an empty queue, and then invalidates what the queue wrote and squashes every
younger instruction. -/
def bodySynci (c : Nat) (s : State) : Out :=
  let k := s.clerk c
  if k.ep then .exc 0xC 0 false s
  else if !k.codeQueue.isEmpty then .wait .synci s
  else
    let s1 := if k.codeDirty.isEmpty then s else s.invalidateLines (clerkDie c) k.codeDirty
    .done (((s1.squash c).modClerk c fun k => { k with codeDirty := [] }).pcnt c 0x13 1)

/-! ## Code-store line reads (R64, R65, R493) -/

/-- A good demand read of clerk `c` fills its group's cache (R64). -/
def State.lineFill (s : State) (c line : Nat) : State := s.demandLine c line (s.lineWords (clerkDie c) line)

end Sys2Proof.Machine
end

