-- ==== Sys2Proof/Machine/System.lean ====
section
/-!
DEFINITION. System instructions, special-register and product moves, and the return from an exception or interrupt (R90 to R92,
R99, R152, R153, R159 to R162, R191, R339, R340, R430).
-/
namespace Sys2Proof.Machine

/-! ## Rights (R92, R127, R159, R430) -/

/-- Is CLASS of clerk `c` locked: its bit of CS_GLOCK or CS_GLOCKPM (R430)? -/
def State.classLocked (s : State) (c : Nat) : Bool :=
  if isPm c then bit (s.reg Reg.CS_GLOCKPM) (c - 128) else bit (s.reg (Reg.CS_GLOCK (c / 16))) (c % 16)
/-- Is a read of special register `sr` denied: the exception registers in TASK (R92)? -/
def Clerk.mfsDenied (k : Clerk) (sr : Nat) : Bool := !k.sup && decide (2 ≤ sr) && decide (sr ≤ 6)
/-- Is a write of `v` to special register `sr` denied (R92, R430)? -/
def State.mtsDenied (s : State) (c sr : Nat) (v : Word) : Bool :=
  let k := s.clerk c
  let diff := v ^^^ k.status
  if sr = 0 then (!k.sup && decide (diff &&& 0xE00F ≠ 0)) || (s.classLocked c && bit diff 13)
  else !k.sup && decide (sr ≤ 7)
/-- Does a write of `v` to STATUS change MODE, CLASS or LM, and so is mode-changing (R91, R160)? -/
def Clerk.statusChanges (k : Clerk) (v : Word) : Bool := decide ((v ^^^ k.status) &&& 0x6C00 ≠ 0)
/-- Is STATUS.IE to be changed in TASK by EI or DI (R159)? -/
def Clerk.ieDenied (k : Clerk) (want : Bool) : Bool := !k.sup && k.ie != want

/-! ## Moves (R116, R152, R153) -/

/-- A special register as it reads; RA and RU of the live STATUS read 0 (R90, R152). -/
def Clerk.special (k : Clerk) (sr : Nat) : Word :=
  match sr with
  | 0 => k.status
  | 1 => k.isp
  | 2 => k.excCause
  | 3 => k.excPc.setWidth 16
  | 4 => word (k.excPc.toNat / 65536)
  | 5 => k.excVec.setWidth 16
  | 6 => word (k.excVec.toNat / 65536)
  | 7 => k.ctx.setWidth 16
  | 8 => k.rpt
  | 9 => k.pl
  | _ => k.ph
/-- A code address with its low word replaced. -/
def putLo (a : CodeAddr) (v : Word) : CodeAddr := (a >>> 16).setWidth 4 ++ v
/-- A code address with bits 19:16 replaced. -/
def putHi (a : CodeAddr) (v : Word) : CodeAddr := v.setWidth 4 ++ a.setWidth 16
/-- A mode change joins the shadows: it takes effect after three further instructions have retired; the 4 counts the writing
instruction's own retire (R76). -/
def Clerk.pushShadow (k : Clerk) (m : ModeChange) : Clerk := { k with shadow := k.shadow ++ [{ left := 4, change := m }] }
/-- A write of STATUS: IE and LVL at once, MODE, CLASS and LM after the shadow (R153). -/
def Clerk.writeStatus (k : Clerk) (v : Word) : Clerk :=
  let k1 := { k with status := (k.status &&& 0x7C00) ||| (v &&& 0x800F) }
  if k.statusChanges v then k1.pushShadow (.status v) else k1
/-- A special register written by MTS (R92, R116, R152, R153). -/
def Clerk.putSpecial (k : Clerk) (sr : Nat) (v : Word) : Clerk :=
  match sr with
  | 0 => k.writeStatus v
  | 1 => { k with isp := v }
  | 2 => { k with excCause := k.excCause &&& ~~~(v &&& 0x8000) }
  | 3 => { k with excPc := putLo k.excPc v }
  | 4 => { k with excPc := putHi k.excPc v }
  | 5 => { k with excVec := putLo k.excVec (v &&& 0xFFF8) }
  | 6 => { k with excVec := putHi k.excVec v }
  | 7 => if v.setWidth 8 = k.ctx then k else k.pushShadow (.ctx (v.setWidth 8))
  | 8 => { k with rpt := v }
  | 9 => { k.completeMul with pl := v }
  | _ => { k.completeMul with ph := v }
/-- Does MTS break an epoch rule: a change of MODE, CLASS or CTX inside an epoch or above a suspended one (R173, R191)? -/
def Clerk.mtsEpoch (k : Clerk) (sr : Nat) (v : Word) : Bool :=
  (k.ep || k.susp) &&
    ((sr == 0 && decide ((v ^^^ k.status) &&& 0x6000 ≠ 0)) || (sr == 7 && v.setWidth 8 != k.ctx))
/-- MFS. -/
def bodyMfs (c : Nat) (d : Reg4) (sr : Fin 11) (s : State) : Out :=
  if (s.clerk c).mfsDenied sr.val then .exc 2 0 false s
  else regOp c (fun k => k.ww d (k.special sr.val)) s
/-- MTS: ILLEGAL, PRIVILEGE and EPOCH in the order of R129. -/
def bodyMts (c : Nat) (sr : Fin 11) (r : Reg4) (s : State) : Out :=
  let k := s.clerk c
  let v := k.rw r
  if sr = 0 ∧ field v 10 2 = 3 then .exc 1 0 false s
  else if s.mtsDenied c sr.val v then .exc 2 0 false s
  else if k.mtsEpoch sr.val v then .exc 0xC 0 false s
  else regOp c (fun k => k.putSpecial sr.val v) s
/-- MFSP. -/
def bodyMfsp (c : Nat) (d : Reg4) (hi : Bool) (s : State) : Out :=
  regOp c (fun k => k.ws d (if hi then k.sph else k.spl)) s
/-- MTSP: outstanding sheet products complete first (R116). -/
def bodyMtsp (c : Nat) (hi : Bool) (r : Reg4) (s : State) : Out :=
  regOp c (fun k =>
    if hi then { k.completeSmul with sph := k.rs r } else { k.completeSmul with spl := k.rs r }) s

/-! ## System instructions (R159) -/

/-- NOP. -/
def bodyNop (_c : Nat) (s : State) : Out := .done s
/-- Events that moderation holds for the sources of a clerk in WAIT set PEND at once (R332). -/
def State.releaseFor (s : State) (c : Nat) : State :=
  { s with icu := s.icu.map fun e =>
      let d := e.1 / 256
      let src := e.1 % 256
      if d = clerkDie c ∧ s.icuTarget d src = c ∧ bit (s.scfg d src) 15 ∧ 0 < e.2.held ∧ !e.2.pend then
        (e.1, { pend := true, held := 0, first := none, last := some s.refUs })
      else e }
/-- WAIT: it retires when a source with EN = 1 and PEND = 1 targets the clerk (R161, R332, R334). -/
def bodyWait (c : Nat) (s : State) : Out :=
  let s1 := s.releaseFor c
  if (s1.pendingFor c).isEmpty then .wait .event s1 else .done s1
/-- Is a posted write of the clerk outstanding that DSYNC waits for: a push on its way, or a held write of a settled epoch;
inside an epoch, its drafts are not (R99, R173)? -/
def State.postedOut (s : State) (c : Nat) : Bool :=
  (s.msgs.any fun m => match m with
    | .push src _ i => src == 8 + c && (i.tag == 0 || !(s.clerk c).ep)
    | _ => false) || ((s.clerk c).held.any fun h => h.tag == 0)
/-- DSYNC. -/
def bodyDsync (c : Nat) (s : State) : Out := if s.postedOut c then .wait .dsync s else .done s
/-- EI. -/
def bodyEi (c : Nat) (s : State) : Out :=
  if (s.clerk c).ieDenied true then .exc 2 0 false s else regOp c (fun k => { k with status := k.status ||| 0x8000 }) s
/-- DI. -/
def bodyDi (c : Nat) (s : State) : Out :=
  if (s.clerk c).ieDenied false then .exc 2 0 false s else regOp c (fun k => { k with status := k.status &&& 0x7FFF }) s
/-- SVC. -/
def bodySvc (_c : Nat) (n : Fin 32) (s : State) : Out := .exc 0xA n.val false s
/-- BREAK: with break-to-halt armed, debug halts the clerk with PC at the next instruction (R497). -/
def bodyBrk (c : Nat) (n : Fin 32) (s : State) : Out :=
  if (s.clerk c).armed then regOp c (fun k => { k with dbgHalt := true }) s else .exc 0xB n.val false s
/-- SETLM: mode-changing where LM changes (R160). -/
def bodySetlm (c : Nat) (m : Fin 3) (s : State) : Out :=
  regOp c (fun k => if k.lm = m.val then k else k.pushShadow (.lm (BitVec.ofNat 2 m.val))) s

/-! ## RETI (R162, R191, R339, R340) -/

/-- The offer that RETI chains to: the frame would restore IE = 1, and the offer is more urgent than its LVL (R339). -/
def State.chainOffer (s : State) (c : Nat) (f : Word) : Option (Nat × Nat) :=
  match s.winner c with
  | some (p, src) => if bit f 15 && decide (p < field f 0 4) then some (p, src) else none
  | none => none
/-- STATUS as a frame word restores it: RA and RU go to 0, and EP is 1 only while an epoch of the clerk is open (R162, R191). -/
def Clerk.restored (k : Clerk) (f : Word) : Word := setEp (f &&& 0xEC0F) (bit f 12 && k.young.isSome)
/-- The repetition that a frame resumes (R120, R123). -/
def resumeRep (f rpt : Word) (pc : CodeAddr) : Option RepState :=
  if bit f 9 then some { left := rpt.toNat, unint := bit f 8, pfx := pc, started := true, issued := false, tooMany := false } else none
/-- The pop of a frame and the return (R162); where a recall was deferred to it, the restart takes the return's place (R191). -/
def retiPop (c : Nat) (s : State) : Out :=
  let k := s.clerk c
  let at_ := fun (j : Nat) => s.peek (privKey c (k.isp.toNat + j))
  let f := at_ 1
  let pc : CodeAddr := pairTarget (at_ 3) (at_ 2)
  let k1 := { k.ww 15 (at_ 0) with isp := k.isp + 4, susp := k.susp && !(bit f 12) }
  let s1 := s.setClerk c k1
  match (if bit f 12 && k.susp then k.deferred else none) with
  | some d => .entered ((s1.modClerk c fun x => { x with deferred := none }).restart c d.tag d.cause true)
  | none =>
    let s2 := s1.enterContext c (k1.restored f) k1.ctx
    .entered (s2.modClerk c fun x => { x with rep := resumeRep f x.rpt pc, pc := pc })
/-- RETI; it retires in the mode it leaves. -/
def bodyReti (c : Nat) (s : State) : Out :=
  if !(s.clerk c).sup then .exc 2 0 false s
  else
    let s0 := ((s.flushShadow c).retireUnit c).retireInsn c
    let k := s0.clerk c
    let f := s0.peek (privKey c (k.isp.toNat + 1))
    match (if k.stepping || (bit f 12 && k.susp && k.deferred.isSome) then none else s0.chainOffer c f) with
    | some (p, src) => .entered ((s0.modClerk c Clerk.completeProducts).acceptSource c p src)
    | none => retiPop c s0

end Sys2Proof.Machine
end

