-- ==== Sys2Proof/Machine/EpochInsn.lean ====
section
/-!
DEFINITION. EOPEN, POST and RECALL (R157, R158, R168 to R171, R187), and the outbox's permission check of a posted entry (R432,
R433).
-/
namespace Sys2Proof.Machine

/-! ## EOPEN (R168 to R171) -/

/-- Is a settle postmark's word 0 ill-formed: DIR = 1, LATE ≠ 0 or a reserved bit (R168)? -/
def settleBad (w0 : Word) : Bool := decide (field w0 0 12 ≠ 0)
/-- Is the die of clerk `c` halting: drained, not in service, or in a sleep entry from its step D1 on (R169, R194)? -/
def State.halting (s : State) (c : Nat) : Bool :=
  let d := clerkDie c
  (s.die d).draining || !(s.inService d) || s.sleep.isSome
/-- The first reason of R169 that refuses an open on axis `a` with mark `m`; 0 for none. -/
def State.refuseReason (s : State) (c a : Nat) (m : Pos) : Nat :=
  let k := s.clerk c
  let d := clerkDie c
  let w := fun (j : Nat) => s.replicaWord d a j
  let dist := (m - markPos (w 0) (w 1) (w 2)).toNat
  let h := (s.reg (Reg.EPOCH_HORIZON a)).toNat
  if k.freeSlot.isNone then 1
  else if k.susp then 2
  else if s.halting c then 3
  else if field (w 3) 0 3 ≠ 2 ∨ bit (w 3) 15 then 4
  else if dist = 0 ∨ 2 ^ 47 ≤ dist then 5
  else if h = 0 ∨ h * 16 * 65536 < dist then 6
  else 0
/-- EOPEN: EPOCH, a refusal with its reason, or the open, whose registration goes to DISPATCH uncharged (R168 to R170). The
checkpoint holds the registers as they stand before, and restarts at the next instruction (R171). -/
def bodyEopen (c : Nat) (d r : Reg4) (s : State) : Out :=
  let k := s.clerk c
  let x := k.rs r
  let a := markAxis x.l0
  if isPm c || settleBad x.l0 || !k.shadow.isEmpty then .exc 0xC 0 false s
  else
    let why := s.refuseReason c a (markPos x.l1 x.l2 x.l3)
    match k.freeSlot, why with
    | some i, 0 =>
      let s1 := s.openSlot c i false 1 (x.l0, x.l1, x.l2, x.l3) d 0 (k.next 1)
      let tag := (s1.clerk c).slotTag c i
      let msg := Msg.registration tag (markPos x.l1 x.l2 x.l3) a (s.replicaWord (clerkDie c) a 4)
      regOp c (fun q => q.ww d tag) (s1.launch msg)
    | _, n => regOp c (fun q => q.ww d 0) (s.setReg (Reg.EP_REFUSE c) (word (0x8000 + n)))

/-! ## POST (R157, R158) -/

/-- May the clerk post an entry with this tag: 0000h outside an epoch, else an open epoch of its own (R158)? -/
def Clerk.mayPost (k : Clerk) (c : Nat) (t : Word) : Bool :=
  if t = 0 then !k.ep else !(isPm c) && (k.slotOfTag c t).isSome
/-- POST: the entry travels to DISPATCH as a parcel charged to the clerk's route. -/
def bodyPost (c : Nat) (r : Reg4) (s : State) : Out :=
  let e := (s.clerk c).rs r
  if !((s.clerk c).mayPost c e.l7) then .exc 0xC 0 false s
  else
    (s.fabStamp c fun u =>
      .ok (u.launch (.entry c e))).bind
      fun t => .done t

/-! ## RECALL (R158, R187) -/

/-- RECALL: of an open epoch of its own, the request goes to DISPATCH, and the clerk then waits for the answer; of one no longer
open, nothing; of another clerk's, EPOCH. -/
def bodyRecall (c : Nat) (r : Reg4) (s : State) : Out :=
  let t := (s.clerk c).rw r
  if isPm c || tagClerk t != c then .exc 0xC 0 false s
  else match (s.clerk c).slotOfTag c t with
    | none => .done s
    | some _ =>
      let msg := Msg.recallReq t
      let w : Waiting := { kind := .recall, insn := .recall ⟨c % 130, Nat.mod_lt _ (by decide)⟩ r }
      regOp c (fun k => { k with waiting := some w })
        (s.launch msg)

/-! ## Permission at the outbox (R431 to R433, R490) -/

/-- OUTBOX_ARRIVAL: an entry that a sorting clerk posts passes the checks of R276 and then needs an enabled OUTBOX entry of the
permission table; without one it is dropped as OUTBOX_PERM, and counted as a port permission violation. -/
def State.outboxArrives (s : State) : State :=
  match s.nextIn isEntry with
  | (some (.entry who e), u) =>
    if !u.obHolding && u.entryOk (decide (128 ≤ who)) e && !(u.permitted who 4 e.l4.toNat) then
      (((u.takeOut (.entry who e)).deadLetter 0xA 7 (entryWords e)).violation Reg.CS_PVCNT
        (originWord who true 0) e.l4)
    else s.outboxArrival
  | (_, u) => u

end Sys2Proof.Machine
end

