-- ==== Sys2Proof/Machine/Block.lean ====
section
/-!
DEFINITION. The Tsuant-16 block group: each instruction moves or tests a block word by word, its progress in W7 to W12 (R124 to
R126, R156).
-/
namespace Sys2Proof.Machine

/-- What one word of a block comes to. -/
inductive WordRes where
  | next (s : State)           -- the word is processed
  | found (s : State)          -- BMATCH has found its word
  | wait (k : WaitKind) (s : State)
  | exc (cause : Nat) (s : State)

/-- Goes on with the word read. -/
def Loaded.word (l : Loaded) (f : Word → State → WordRes) : WordRes :=
  match l with
  | .vals ws s => f (ws.getD 0 0) s
  | .wait k s => .wait k s
  | .exc e _ s => .exc e s
/-- Goes on after the write. -/
def Stored.word (l : Stored) (f : State → WordRes) : WordRes :=
  match l with
  | .ok s => f s
  | .wait k s => .wait k s
  | .exc e _ s => .exc e s
/-- A word is processed: the pointers move and W10 falls by 1 (R124). -/
def stepWord (c : Nat) (f : Clerk → Clerk) (s : State) : WordRes :=
  .next (s.modClerk c fun k => let k1 := f k; k1.ww 10 (k1.rw 10 - 1))

/-- May the clerk stop here, between two units of its instruction: for an interrupt it may take, or for a debug halt (R120,
R125, R497)? A REPU repetition never stops (R122). -/
def State.unitStop (s : State) (c : Nat) : Bool :=
  let k := s.clerk c
  let repu := match k.rep with
    | some r => r.unint
    | none => false
  !repu && (s.mayInterrupt c || (k.haltReq && !(k.shadow.any fun m => decide (0 < m.left))))

/-- Processes words until W10 is 0, with a stop between words where one is due; `last` is what the end writes. -/
def blockRun (c : Nat) (w : Option Grant → State → WordRes) (last : Clerk → Clerk) : Nat → Option Grant → State → Out
  | 0, _, s => .done (s.modClerk c last)
  | n + 1, g, s =>
    if (s.clerk c).rw 10 = 0 then .done (s.modClerk c last)
    else match w g s with
      | .found t => .done t
      | .wait k t => .wait k t
      | .exc e t => .exc e 0 false t
      | .next t =>
        if (t.clerk c).rw 10 ≠ 0 ∧ t.unitStop c then .stop t else blockRun c w last n none t
/-- A block instruction; it processes at most as many words as W10 counts. -/
def blockBody (c : Nat) (w : Option Grant → State → WordRes) (last : Clerk → Clerk) (g : Option Grant) (s : State) : Out :=
  blockRun c w last (((s.clerk c).rw 10).toNat + 1) g s

/-- Copies D:[W8] to D:[W9]: permissions of the read, checked when it is issued, then what the write meets, then the two accesses
(R129, R537). -/
def copyWord (c : Nat) (f : Clerk → Clerk) (g : Option Grant) (s : State) : WordRes :=
  let k := s.clerk c
  let dst := wordAt (k.rw 9)
  if g.isNone && (s.dataTarget c (k.rw 8).toNat).isNone then .exc 5 s
  else (s.store c dst [0]).word fun _ =>
    (s.load c (wordAt (k.rw 8)) g).word fun v t => (t.store c dst [v]).word (stepWord c f)
/-- BGATH. -/
def bodyBgath (c : Nat) (g : Option Grant) (s : State) : Out :=
  blockBody c (copyWord c fun k => (k.ww 8 (k.rw 8 + k.rw 11)).ww 9 (k.rw 9 + 1)) id g s
/-- BSCAT. -/
def bodyBscat (c : Nat) (g : Option Grant) (s : State) : Out :=
  blockBody c (copyWord c fun k => (k.ww 8 (k.rw 8 + 1)).ww 9 (k.rw 9 + k.rw 11)) id g s
/-- BRAMP. -/
def bodyBramp (c : Nat) (s : State) : Out :=
  blockBody c (fun _ t =>
    (t.store c (wordAt ((t.clerk c).rw 9)) [(t.clerk c).rw 11]).word
      (stepWord c fun k => (k.ww 11 (k.rw 11 + k.rw 12)).ww 9 (k.rw 9 + 1))) id none s
/-- BMATCH: W7 := 1 with W8 at the word and W10 counting it, else W7 := 0. -/
def bodyBmatch (c : Nat) (g : Option Grant) (s : State) : Out :=
  blockBody c (fun g t =>
    let k := t.clerk c
    (t.load c (wordAt (k.rw 8)) g).word fun v u =>
      if v &&& k.rw 12 = k.rw 11 then .found (u.modClerk c fun k => k.ww 7 1)
      else stepWord c (fun k => k.ww 8 (k.rw 8 + 1)) u) (fun k => k.ww 7 0) g s
/-- The ones'-complement sum: the carry out of bit 15 is added back into bit 0. -/
def onesAdd (a b : Word) : Word := if carries a b then a + b + 1 else a + b
/-- BSUM. -/
def bodyBsum (c : Nat) (g : Option Grant) (s : State) : Out :=
  blockBody c (fun g t =>
    (t.load c (wordAt ((t.clerk c).rw 8)) g).word fun v u =>
      stepWord c (fun k => (k.ww 7 (onesAdd (k.rw 7) v)).ww 8 (k.rw 8 + 1)) u) id g s
/-- BPGET: what the write would meet comes before the port is read. -/
def bodyBpget (c : Nat) (g : Option Grant) (s : State) : Out :=
  blockBody c (fun g t =>
    let k := t.clerk c
    let dst := wordAt (k.rw 9)
    (t.store c dst [0]).word fun _ =>
      (t.portRead c (k.rw 8).toNat 1 g).word fun v u =>
        (u.store c dst [v]).word (stepWord c fun k => (k.ww 8 (k.rw 8 + 1)).ww 9 (k.rw 9 + 1))) id g s
/-- BPPUT. -/
def bodyBpput (c : Nat) (g : Option Grant) (s : State) : Out :=
  blockBody c (fun g t =>
    let k := t.clerk c
    (t.load c (wordAt (k.rw 8)) g).word fun v u =>
      (u.portWrite c (k.rw 9).toNat [v]).word (stepWord c fun k => (k.ww 8 (k.rw 8 + 1)).ww 9 (k.rw 9 + 1))) id g s

end Sys2Proof.Machine
end

