-- ==== Sys2Proof/Machine/Run.lean ====
section
/-!
DEFINITION. How a clerk runs one instruction: the issue limiter, repeat prefixes, retire, exceptions and waits (R56 to R59, R70,
R76, R87, R117 to R129, R132, R154, R161, R497).
-/
namespace Sys2Proof.Machine

/-! ## Repeat prefixes (R117, R118, R154) -/

/-- The count of a prefix. -/
def RepCount.value (k : Clerk) : RepCount → Nat
  | .reg r => (k.rw r).toNat
  | .imm n => n.val
/-- A prefix: the repetition stands, and the next instruction is repeated. REPU takes at most 16; a larger count is judged with the
instruction it stands before, after what R129 puts before PREFIX. -/
def bodyPrefix (unint : Bool) (c : Nat) (n : RepCount) (s : State) : Out :=
  let k := s.clerk c
  let v := RepCount.value k n
  .prefixed (s.modClerk c fun k =>
    { k with rep := some { left := v, unint := unint, pfx := k.pc, started := false, issued := true,
                           tooMany := unint && decide (16 < v) }, pc := k.next 1 })
/-- REPI, and REP, which is its other name. -/
def bodyRepi (c : Nat) (n : RepCount) (s : State) : Out := bodyPrefix false c n s
/-- REPU. -/
def bodyRepu (c : Nat) (n : RepCount) (s : State) : Out := bodyPrefix true c n s

/-- Registers that a data address reads: W r as r. -/
def AddrMode.reads : AddrMode → List Nat
  | .ind b | .postInc b | .postDec b | .preDec b | .disp b _ => [b.val]
/-- Registers that a port number reads. -/
def PortMode.reads : PortMode → List Nat
  | .ind b | .disp b _ | .postInc b => [b.val]
/-- Registers that a repeat count reads. -/
def RepCount.reads : RepCount → List Nat
  | .reg r => [r.val]
  | .imm _ => []

/-! ## The instructions -/

/-- Words of an instruction (R134). -/
def insnLen : Instr → Nat
  | .movi _ _ _
  | .addi _ _ _ _
  | .andi _ _ _ _
  | .ori _ _ _ _
  | .xori _ _ _ _
  | .muli _ _ _
  | .mului _ _ _
  | .cmovnz _ _ _ _
  | .cmovz _ _ _ _
  | .sel _ _ _ _ _
  | .ceq _ _ _ _
  | .cne _ _ _ _
  | .clt _ _ _ _
  | .cle _ _ _ _
  | .cltu _ _ _ _
  | .cleu _ _ _ _
  | .cadc _ _ _ _
  | .cova _ _ _ _
  | .covs _ _ _ _
  | .cbit _ _ _ _
  | .ceqi _ _ _ _
  | .cnei _ _ _ _
  | .clti _ _ _ _
  | .cgti _ _ _ _
  | .cltui _ _ _ _
  | .cgtui _ _ _ _
  | .bnzl _ _ _
  | .bzl _ _ _
  | .jmp _ _
  | .call _ _
  | .geti _ _ _ _
  | .getia _ _ _
  | .puti _ _ _ _
  | .putia _ _ _
  | .scmov _ _ _ _
  | .sget _ _ _ _
  | .sput _ _ _ _
  | .sperm _ _ _ _ => 2
  | .sti _ _ _ _
  | .outi _ _ _ _ => 3
  | .ld _ _ m | .st _ _ m | .lds _ _ m | .sts _ _ m => AddrMode.len m
  | .inPort _ _ m | .outPort _ _ m | .ins _ _ m | .outs _ _ m => PortMode.len m
  | _ => 1

/-- Registers that an instruction reads at OP, W r as r and S r as 16 + r (R70). -/
def insnReads : Instr → List Nat
  | .mts _ _ r | .mov _ _ r | .not _ _ r | .neg _ _ r | .addi _ _ r _ | .andi _ _ r _ | .ori _ _ r _
  | .xori _ _ r _ | .muli _ r _ | .mului _ r _ | .putia _ r _ | .sbcast _ _ r | .recall _ r => [r.val]
  | .mtsp _ _ r | .smov _ _ r | .aset _ r _ _ | .aput _ _ r | .ssum _ _ r | .smaxr _ _ r | .sminr _ _ r
  | .sget _ _ r _ | .eopen _ _ r | .post _ r => [16 + r.val]
  | .add _ d r | .sub _ d r | .and _ d r | .or _ d r | .xor _ d r | .shl _ d r | .shr _ d r | .sar _ d r
  | .rol _ d r => [d.val, r.val]
  | .addq _ d _ | .subq _ d _ | .shlq _ d _ | .shrq _ d _ | .sarq _ d _ | .rolq _ d _ => [d.val]
  | .mul _ a b | .mulu _ a b | .ceq _ _ a b | .cne _ _ a b | .clt _ _ a b | .cle _ _ a b | .cltu _ _ a b
  | .cleu _ _ a b | .cadc _ _ a b | .cova _ _ a b | .covs _ _ a b | .cbit _ _ a b => [a.val, b.val]
  | .cmovnz _ d r q | .cmovz _ d r q => [d.val, r.val, q.val]
  | .sel _ _ q a b => [q.val, a.val, b.val]
  | .ceqi _ _ a _ | .cnei _ _ a _ | .clti _ _ a _ | .cgti _ _ a _ | .cltui _ _ a _ | .cgtui _ _ a _ => [a.val]
  | .bnz _ q _ | .bz _ q _ | .bnzl _ q _ | .bzl _ q _ => [q.val]
  | .jmpr _ h l | .callr _ h l | .geti _ _ h l => [h.val, l.val]
  | .ld _ _ m | .lds _ _ m => AddrMode.reads m
  | .inPort _ _ m | .ins _ _ m => PortMode.reads m
  | .st _ r m => r.val :: AddrMode.reads m
  | .outPort _ r m => r.val :: PortMode.reads m
  | .sts _ r m => (16 + r.val) :: AddrMode.reads m
  | .outs _ r m => (16 + r.val) :: PortMode.reads m
  | .puti _ r h l => [r.val, h.val, l.val]
  | .sti _ b _ _ | .outi _ b _ _ => [b.val]
  | .sadd _ d r | .ssub _ d r | .sand _ d r | .sor _ d r | .sxor _ d r | .smin _ d r | .smax _ d r | .sabd _ d r
  | .sceq _ d r | .sclt _ d r | .scltu _ d r | .sandn _ d r => [16 + d.val, 16 + r.val]
  | .sshl _ d _ | .sshr _ d _ | .ssar _ d _ | .srot _ d _ => [16 + d.val]
  | .smul _ a b | .smulu _ a b | .smac _ _ a b => [16 + a.val, 16 + b.val]
  | .smacw _ _ a b | .smacuw _ _ a b => [16 + a.val, b.val]
  | .scmov _ d r q => [16 + d.val, 16 + r.val, 16 + q.val]
  | .sput _ d r _ => [r.val, 16 + d.val]
  | .sperm _ _ r p => [16 + r.val, 16 + p.val]
  | .ret _ => [13, 14]
  | .repi _ n | .repu _ n => RepCount.reads n
  | .bgath _ | .bscat _ => [8, 9, 10, 11]
  | .bramp _ => [9, 10, 11, 12]
  | .bmatch _ => [8, 10, 11, 12]
  | .bsum _ => [7, 8, 10]
  | .bpget _ | .bpput _ => [8, 9, 10]
  | _ => []

/-- One unit of an instruction: the whole of it, or one iteration where it is repeated. `g` is the answer to what it waited
for. -/
def insnBody (i : Instr) (g : Option Grant) (s : State) : Out :=
  match i with
  | .nop c => bodyNop c.val s
  | .wait c => bodyWait c.val s
  | .synci c => bodySynci c.val s
  | .dsync c => bodyDsync c.val s
  | .reti c => bodyReti c.val s
  | .ret c => bodyRet c.val s
  | .ei c => bodyEi c.val s
  | .di c => bodyDi c.val s
  | .svc c n => bodySvc c.val n s
  | .brk c n => bodyBrk c.val n s
  | .setlm c m => bodySetlm c.val m s
  | .mfs c d sr => bodyMfs c.val d sr s
  | .mts c sr r => bodyMts c.val sr r s
  | .mfsp c d hi => bodyMfsp c.val d hi s
  | .mtsp c hi r => bodyMtsp c.val hi r s
  | .repi c n => bodyRepi c.val n s
  | .repu c n => bodyRepu c.val n s
  | .bgath c => bodyBgath c.val g s
  | .bscat c => bodyBscat c.val g s
  | .bramp c => bodyBramp c.val s
  | .bmatch c => bodyBmatch c.val g s
  | .bsum c => bodyBsum c.val g s
  | .bpget c => bodyBpget c.val g s
  | .bpput c => bodyBpput c.val g s
  | .mov c d r => bodyMov c.val d r s
  | .add c d r => bodyAdd c.val d r s
  | .sub c d r => bodySub c.val d r s
  | .and c d r => bodyAnd c.val d r s
  | .or c d r => bodyOr c.val d r s
  | .xor c d r => bodyXor c.val d r s
  | .shl c d r => bodyShl c.val d r s
  | .shr c d r => bodyShr c.val d r s
  | .sar c d r => bodySar c.val d r s
  | .rol c d r => bodyRol c.val d r s
  | .not c d r => bodyNot c.val d r s
  | .neg c d r => bodyNeg c.val d r s
  | .movq c d u => bodyMovq c.val d u s
  | .addq c d u => bodyAddq c.val d u s
  | .subq c d u => bodySubq c.val d u s
  | .shlq c d u => bodyShlq c.val d u s
  | .shrq c d u => bodyShrq c.val d u s
  | .sarq c d u => bodySarq c.val d u s
  | .rolq c d u => bodyRolq c.val d u s
  | .movi c d imm => bodyMovi c.val d imm s
  | .addi c d r imm => bodyAddi c.val d r imm s
  | .andi c d r imm => bodyAndi c.val d r imm s
  | .ori c d r imm => bodyOri c.val d r imm s
  | .xori c d r imm => bodyXori c.val d r imm s
  | .mul c a b => bodyMul c.val a b s
  | .mulu c a b => bodyMulu c.val a b s
  | .muli c r imm => bodyMuli c.val r imm s
  | .mului c r imm => bodyMului c.val r imm s
  | .cmovnz c d r q => bodyCmovnz c.val d r q s
  | .cmovz c d r q => bodyCmovz c.val d r q s
  | .sel c d q a b => bodySel c.val d q a b s
  | .ceq c d a b => bodyCeq c.val d a b s
  | .cne c d a b => bodyCne c.val d a b s
  | .clt c d a b => bodyClt c.val d a b s
  | .cle c d a b => bodyCle c.val d a b s
  | .cltu c d a b => bodyCltu c.val d a b s
  | .cleu c d a b => bodyCleu c.val d a b s
  | .cadc c d a b => bodyCadc c.val d a b s
  | .cova c d a b => bodyCova c.val d a b s
  | .covs c d a b => bodyCovs c.val d a b s
  | .cbit c d a b => bodyCbit c.val d a b s
  | .ceqi c d a imm => bodyCeqi c.val d a imm s
  | .cnei c d a imm => bodyCnei c.val d a imm s
  | .clti c d a imm => bodyClti c.val d a imm s
  | .cgti c d a imm => bodyCgti c.val d a imm s
  | .cltui c d a imm => bodyCltui c.val d a imm s
  | .cgtui c d a imm => bodyCgtui c.val d a imm s
  | .bnz c q disp => bodyBnz c.val q disp s
  | .bz c q disp => bodyBz c.val q disp s
  | .bnzl c q disp => bodyBnzl c.val q disp s
  | .bzl c q disp => bodyBzl c.val q disp s
  | .jmp c t => bodyJmp c.val t s
  | .call c t => bodyCall c.val t s
  | .jmpr c h l => bodyJmpr c.val h l s
  | .callr c h l => bodyCallr c.val h l s
  | .ld c d m => bodyLd c.val d m g s
  | .st c r m => bodySt c.val r m s
  | .lds c d m => bodyLds c.val d m g s
  | .sts c r m => bodySts c.val r m s
  | .inPort c d m => bodyIn c.val d m g s
  | .outPort c r m => bodyOut c.val r m s
  | .ins c d m => bodyIns c.val d m g s
  | .outs c r m => bodyOuts c.val r m s
  | .geti c d h l => bodyGeti c.val d h l g s
  | .getia c d t => bodyGetia c.val d t g s
  | .puti c r h l => bodyPuti c.val r h l s
  | .putia c r t => bodyPutia c.val r t s
  | .sti c b x imm => bodySti c.val b x imm s
  | .outi c b x imm => bodyOuti c.val b x imm s
  | .smov c d r => bodySmov c.val d r s
  | .sadd c d r => bodySadd c.val d r s
  | .ssub c d r => bodySsub c.val d r s
  | .sand c d r => bodySand c.val d r s
  | .sor c d r => bodySor c.val d r s
  | .sxor c d r => bodySxor c.val d r s
  | .smin c d r => bodySmin c.val d r s
  | .smax c d r => bodySmax c.val d r s
  | .sabd c d r => bodySabd c.val d r s
  | .sshl c d u => bodySshl c.val d u s
  | .sshr c d u => bodySshr c.val d u s
  | .ssar c d u => bodySsar c.val d u s
  | .sceq c d r => bodySceq c.val d r s
  | .sclt c d r => bodySclt c.val d r s
  | .scltu c d r => bodyScltu c.val d r s
  | .sandn c d r => bodySandn c.val d r s
  | .smul c a b => bodySmul c.val a b s
  | .smulu c a b => bodySmulu c.val a b s
  | .smac c k a b => bodySmac c.val k a b s
  | .smacw c k a b => bodySmacw c.val k a b s
  | .smacuw c k a b => bodySmacuw c.val k a b s
  | .aclr c k => bodyAclr c.val k s
  | .ahsum c k => bodyAhsum c.val k s
  | .aget c d k p => bodyAget c.val d k p s
  | .aset c r k p => bodyAset c.val r k p s
  | .aout c d k u => bodyAout c.val d k u s
  | .aput c k r => bodyAput c.val k r s
  | .ssum c d r => bodySsum c.val d r s
  | .smaxr c d r => bodySmaxr c.val d r s
  | .sminr c d r => bodySminr c.val d r s
  | .sbcast c d r => bodySbcast c.val d r s
  | .srot c d n => bodySrot c.val d n s
  | .scmov c d r q => bodyScmov c.val d r q s
  | .sget c d r l => bodySget c.val d r l s
  | .sput c d r l => bodySput c.val d r l s
  | .sperm c d r p => bodySperm c.val d r p s
  | .eopen c d r => bodyEopen c.val d r s
  | .post c r => bodyPost c.val r s
  | .recall c r => bodyRecall c.val r s
  | .slotPop c i d => bodySlotPop c.val i.val d s
  | .draftPop c i d => bodySlotPop c.val i.val d s
  | _ => .done s

/-- Does clerk `c` find the instruction forbidden under a prefix (R118)? SVC and BREAK are another cause, ILLEGAL. -/
def repForbids (k : Clerk) : Instr → Bool
  | .mts _ sr r =>
    sr.val == 8 || (sr.val == 0 && k.statusChanges (k.rw r)) || (sr.val == 7 && (k.rw r).setWidth 8 != k.ctx)
  | .setlm _ m => k.lm != m.val
  | .bnz _ _ _ | .bz _ _ _ | .bnzl _ _ _ | .bzl _ _ _ | .jmp _ _ | .call _ _ | .jmpr _ _ _ | .callr _ _ _ | .ret _ => true
  | .reti _ | .wait _ | .synci _ | .eopen _ _ _ | .post _ _ | .recall _ _ | .repi _ _ | .repu _ _ => true
  | _ => false
/-- Does a cause that R129 puts before PREFIX apply to the instruction: ILLEGAL or PRIVILEGE? -/
def State.causeFirst (s : State) (c : Nat) : Instr → Bool
  | .mfs _ _ sr => (s.clerk c).mfsDenied sr.val
  | .ei _ => (s.clerk c).ieDenied true
  | .di _ => (s.clerk c).ieDenied false
  | .puti _ _ h l => !(s.clerk c).sup && !(s.mayPut c (pairTarget ((s.clerk c).rw h) ((s.clerk c).rw l)))
  | .putia _ _ t => !(s.clerk c).sup && !(s.mayPut c t)
  | .mts _ sr r =>
    let v := (s.clerk c).rw r
    (sr.val == 0 && field v 10 2 == 3) || s.mtsDenied c sr.val v
  | .reti _ => !(s.clerk c).sup
  | _ => false
/-- SVC and BREAK, which are ILLEGAL under a prefix (R128). -/
def isTrap : Instr → Bool
  | .svc _ _ | .brk _ _ => true
  | _ => false

/-! ## Retire -/

/-- Is a mode change pending whose shadow has not ended (R76)? -/
def Clerk.inShadow (k : Clerk) : Bool := k.shadow.any fun m => decide (0 < m.left)
/-- The clerk stops for debug: STEP has run its instruction, or HALT has met its boundary (R497). -/
def State.debugStop (s : State) (c : Nat) : State :=
  ((s.settleShadow c).squash c).modClerk c fun k => { k with dbgHalt := true, haltReq := false, stepping := false }
/-- After an instruction, or at a stop within it: a debug stop that is due. -/
def State.afterUnit (s : State) (c : Nat) : State :=
  let k := s.clerk c
  if k.stepping || (k.haltReq && !k.inShadow) then s.debugStop c else s
/-- An instruction of clerk `c` retires with PC at `t`. -/
def State.retireAt (s : State) (c : Nat) (t : CodeAddr) : State :=
  ((s.modClerk c fun k => { k with pc := t }).retireUnit c).retireInsn c
/-- May HALT stop the clerk now: nothing waits, or only what an interrupt may replace or WAIT; no mode change pends, and no REPU
runs (R336, R497)? -/
def Clerk.haltable (k : Clerk) : Bool :=
  !k.inShadow &&
    (match k.waiting with
      | some w => w.kind.open || w.kind == .event
      | none => true) &&
    (match k.rep with
      | some r => !(r.unint && (r.started || k.waiting.isSome))
      | none => true)
/-- HALT stops the clerk at this boundary: what waits executes again later, and a repetition not begun starts at its prefix. -/
def State.haltHere (s : State) (c : Nat) : State :=
  (s.modClerk c fun k =>
    { k.dropWaiting with
             tokens := if k.waiting.any (fun w => w.kind == .event) then 320 else k.tokens,
             rep := k.rep.filter fun r => r.started,
             pc := match k.rep with
               | some r => if r.started then k.pc else r.pfx
               | none => k.pc }).debugStop c
/-- Code of the duration event that a wait of the oldest instruction counts (R87). -/
def WaitKind.duration : WaitKind → Option Nat
  | .token => some 0x0D
  | .pop => some 0x0F
  | _ => none
/-- A duration event's condition holds at some point of this reference period (R87). -/
def Clerk.during (k : Clerk) (ev : Nat) : Clerk := if k.durs.contains ev then k else { k with durs := ev :: k.durs }
/-- The clerk waits with its instruction; a PUTI that meets a full queue counts once (R81, R87). A HALT that is due stops a wait
that it may stop. -/
def State.waitFor (s : State) (c : Nat) (i : Instr) (kind : WaitKind) (again : Bool) : State :=
  let s1 := s.modClerk c fun k =>
    let k1 := { k with waiting := some { kind := kind, insn := i } }
    match kind.duration with
    | some ev => k1.during ev
    | none => k1
  let s2 := if kind = .codeQueue && !again then s1.pcnt c 0x14 1 else s1
  if (s2.clerk c).haltReq && (s2.clerk c).haltable then s2.haltHere c else s2
/-- An exception is taken: SVC and BREAK retire first and name the next instruction, the others name their own (R128). -/
def State.raiseExc (s : State) (c len cause arg : Nat) (half : Bool) : State :=
  let k := s.clerk c
  if cause = 0xA ∨ cause = 0xB then
    ((s.retireAt c (k.next len)).takeException c cause arg half (k.next len)).afterUnit c
  else (s.takeException c cause arg half k.pc).afterUnit c
/-- An instruction that is not repeated has run to `o`. -/
def State.finish (c : Nat) (i : Instr) (again : Bool) (o : Out) : State :=
  match o with
  | .done t => (t.retireAt c ((t.clerk c).next (insnLen i))).afterUnit c
  | .jump t a => (t.retireAt c a).afterUnit c
  | .entered t => t.afterUnit c
  | .stop t => t.afterUnit c
  | .prefixed t => t
  | .wait k t => t.waitFor c i k again
  | .exc e a h t => t.raiseExc c (insnLen i) e a h

/-! ## Repetition (R117 to R123) -/

/-- The repetition's state changed. -/
def Clerk.modRep (k : Clerk) (f : RepState → RepState) : Clerk := { k with rep := k.rep.map f }
/-- The prefix and its instruction have retired as one (R76, R119). -/
def State.repDone (s : State) (c len : Nat) : State :=
  let k := s.clerk c
  (((s.modClerk c fun x => { x with rep := none, pc := k.next len }).retireInsn c)).afterUnit c
/-- Runs the iterations left; between two of them an interrupt, a halt or a step stops the repetition, but never REPU (R120,
R122, R497). -/
def State.repRun (c : Nat) (i : Instr) (again : Bool) : Nat → Option Grant → State → State
  | 0, _, s => s.repDone c (insnLen i)
  | n + 1, g, s =>
    match insnBody i g s with
    | .done t =>
      let t1 := (t.retireUnit c).modClerk c fun k => k.modRep fun r => { r with left := r.left - 1, started := true }
      let k1 := t1.clerk c
      let unint := match k1.rep with
        | some r => r.unint
        | none => false
      if n = 0 then t1.repDone c (insnLen i)
      else if (k1.stepping && !unint) || t1.unitStop c then t1.afterUnit c
      else State.repRun c i again n none t1
    | .stop t => (t.modClerk c fun k => k.modRep fun r => { r with started := true }).afterUnit c
    | .jump t _ => t
    | .entered t => t
    | .prefixed t => t
    | .wait k t =>
      (t.modClerk c fun x => x.modRep fun r => { r with started := r.started || decide (x.w ≠ (s.clerk c).w) }).waitFor c i k again
    | .exc e a h t => (t.takeException c e a h (t.clerk c).pc).afterUnit c
/-- The instruction after a prefix: what R118 forbids, and REPU with a count above 16, raises PREFIX at the prefix before anything is
executed; a count of 0 retires both with no other effect (R119). -/
def State.runRepeated (s : State) (c : Nat) (i : Instr) (r : RepState) (g : Option Grant) (again : Bool) : State :=
  let atPrefix := fun (cause : Nat) =>
    ((s.modClerk c fun k => { k with rep := none }).takeException c cause 0 false r.pfx).afterUnit c
  if isTrap i then atPrefix 1
  else if (repForbids (s.clerk c) i || r.tooMany) && !(decide (0 < r.left) && s.causeFirst c i) then atPrefix 3
  else State.repRun c i again r.left g s

/-! ## Issue (R58, R59, R87) -/

/-- The instruction executes: FETCH where a word of it lies outside the window; else FT fetches its lines, and it has its own
effect (R56, R94, R129, R132). -/
def State.runInsn (s : State) (c : Nat) (i : Instr) (g : Option Grant) (again : Bool) : State :=
  let s0 := s.modClerk c fun k => { k with waiting := none, grant := none, loadBuf := [], lastLoad := [] }
  let s1 := if again then s0 else s0.fetchLines c (insnLen i)
  if !(s1.fetchable c (insnLen i)) then (s1.takeException c 7 0 false (s1.clerk c).pc).afterUnit c
  else match (s1.clerk c).rep with
    | none => State.finish c i again (insnBody i g s1)
    | some r => s1.runRepeated c i r g again
/-- Does the repetition's prefix cover the issue of its instruction (R154)? -/
def Clerk.issueCovered (k : Clerk) : Bool :=
  match k.rep with
  | some r => r.issued
  | none => false
/-- The instruction issues: it takes a token, or waits for one (R59); events 01h and 0Ah count (R70, R87). -/
def State.issue (s : State) (c : Nat) (i : Instr) : State :=
  let k := s.clerk c
  let s1 := if (insnReads i).any k.lastLoad.contains then s.pcnt c 0x0A 1 else s
  if k.issueCovered then s1.runInsn c i none false
  else if k.tokens < 5 then s.waitFor c i .token false
  else
    ((s1.modClerk c fun x =>
      { x.modRep (fun r => { r with issued := true }) with tokens := x.tokens - 5 }).pcnt c 0x01 1).runInsn c i none false
/-! ## In flight behind the oldest instruction (R58, R70 to R72, R87) -/

/-- Registers that an instruction writes, W r as r, S r as 16 + r, A r as 32 + r; none for one whose results the clerk does not
forward, or that acts on more than registers and the private store. -/
def insnWrites : Instr → Option (List Nat)
  | .mov _ d _ | .add _ d _ | .sub _ d _ | .and _ d _ | .or _ d _ | .xor _ d _ | .shl _ d _ | .shr _ d _ | .sar _ d _
  | .rol _ d _ | .not _ d _ | .neg _ d _ | .movq _ d _ | .addq _ d _ | .subq _ d _ | .shlq _ d _ | .shrq _ d _ | .sarq _ d _
  | .rolq _ d _ | .movi _ d _ | .addi _ d _ _ | .andi _ d _ _ | .ori _ d _ _ | .xori _ d _ _ | .cmovnz _ d _ _
  | .cmovz _ d _ _ | .sel _ d _ _ _ | .ceq _ d _ _ | .cne _ d _ _ | .clt _ d _ _ | .cle _ d _ _ | .cltu _ d _ _
  | .cleu _ d _ _ | .cadc _ d _ _ | .cova _ d _ _ | .covs _ d _ _ | .cbit _ d _ _ | .ceqi _ d _ _ | .cnei _ d _ _
  | .clti _ d _ _ | .cgti _ d _ _ | .cltui _ d _ _ | .cgtui _ d _ _ | .geti _ d _ _ | .getia _ d _ | .ssum _ d _
  | .smaxr _ d _ | .sminr _ d _ | .sget _ d _ _ => some [d.val]
  | .ld _ d m => some (d.val :: AddrMode.reads m)
  | .lds _ d m => some ((16 + d.val) :: AddrMode.reads m)
  | .inPort _ d m => some (d.val :: PortMode.reads m)
  | .ins _ d m => some ((16 + d.val) :: PortMode.reads m)
  | .outPort _ _ m | .outs _ _ m => some (PortMode.reads m)
  | .st _ _ m | .sts _ _ m => some (AddrMode.reads m)
  | .smov _ d _ | .sadd _ d _ | .ssub _ d _ | .sand _ d _ | .sor _ d _ | .sxor _ d _ | .smin _ d _ | .smax _ d _
  | .sabd _ d _ | .sshl _ d _ | .sshr _ d _ | .ssar _ d _ | .sceq _ d _ | .sclt _ d _ | .scltu _ d _ | .sandn _ d _
  | .sbcast _ d _ | .srot _ d _ | .scmov _ d _ _ | .sput _ d _ _ | .sperm _ d _ _ | .slotPop _ _ d
  | .draftPop _ _ d => some [16 + d.val]
  | .call _ _ | .callr _ _ _ => some [13, 14]
  | .nop _ | .sti _ _ _ _ | .outi _ _ _ _ | .jmp _ _ => some []
  | _ => none
/-- Is it performed at retire, or does it wait for the code store, so that its results are not there before (R72, R146)? -/
def atRetire : Instr → Bool
  | .inPort _ _ _ | .ins _ _ _ | .outPort _ _ _ | .outs _ _ _ | .outi _ _ _ _ | .slotPop _ _ _ | .draftPop _ _ _
  | .geti _ _ _ _ | .getia _ _ _ => true
  | _ => false
/-- Does the instruction read a register whose result is still to come? -/
def readsAny (p : List Nat) (i : Instr) : Bool := (insnReads i).any p.contains
/-- Moves PC past an instruction on the path ahead. -/
def State.passOver (s : State) (c len : Nat) : State := s.modClerk c fun k => { k with pc := k.next len }
/-- Does a store's form reach a window (R72)? -/
def State.windowStore (s : State) (c : Nat) : Instr → Bool
  | .st _ _ m => decide (0x8000 ≤ ((s.clerk c).dataEA m 1).addr.toNat)
  | .sts _ _ m => (sheetAt ((s.clerk c).dataEA m 8).addr).any fun h => decide (0x8000 ≤ h.1)
  | .sti _ b x _ => decide (0x8000 ≤ ((s.clerk c).rw b + x).toNat)
  | _ => false
/-- The working registers ahead of the instructions of a list, which have issued and not retired, with the registers still pending
on the scoreboard; none where a branch on a pending register, a window store or an instruction that acts on more than registers
stands between (R58, R70 to R72). The state is a scratch copy: nothing of it becomes architectural. -/
def State.ahead (c : Nat) : List Instr → State → List Nat → Option (State × List Nat)
  | [], s, p => some (s, p)
  | i :: t, s, p =>
    match insnWrites i with
    | none =>
      (match i with
        | .bnz _ _ _ | .bz _ _ _ | .bnzl _ _ _ | .bzl _ _ _ | .jmpr _ _ _ | .ret _ =>
          if readsAny p i then none
          else match insnBody i none s with
            | .jump u a => State.ahead c t (u.modClerk c fun k => { k with pc := a }) p
            | .done u => State.ahead c t (u.passOver c (insnLen i)) p
            | _ => none
        | _ => none)
    | some ds =>
      if s.windowStore c i then none
      else if atRetire i || readsAny p i then State.ahead c t (s.passOver c (insnLen i)) (ds ++ p)
      else match insnBody i none (s.modClerk c fun k => { k with lastLoad := [] }) with
        | .done u => State.ahead c t (u.passOver c (insnLen i)) (p.filter fun r => !(ds.contains r))
        | .jump u a => State.ahead c t (u.modClerk c fun k => { k with pc := a }) p
        | .wait .window u => State.ahead c t (u.passOver c (insnLen i)) (ds ++ p)
        | _ => none
/-- Does an instruction of the window wait at OP on a window load: it reads a register that a load, or an instruction that waits
itself, is still to write (R71, R87)? -/
def opWaits : List Nat → List InFlight → Bool
  | _, [] => false
  | p, e :: t =>
    let ds := (insnWrites e.insn).getD []
    if readsAny p e.insn then true
    else if e.outstanding then opWaits (ds ++ p) t else opWaits (p.filter fun r => !(ds.contains r)) t
/-- Is an instruction waiting at OP on a window load? -/
def Clerk.waitsAtOp (k : Clerk) : Bool :=
  match k.waiting with
  | some w =>
    opWaits (if w.kind == .window || w.kind == .buffer || w.kind == .ddrStamp then (insnWrites w.insn).getD [] else []) k.window
  | none => false
/-- May instructions issue behind one that waits so? Not behind one that has not issued itself, or after which the clerk fetches
nothing until it is answered. -/
def WaitKind.behind : WaitKind → Bool
  | .token | .event | .recall => false
  | _ => true
/-- Does nothing issue behind the instruction, since its successor is known only once it retires? -/
def endsPath : Instr → Bool
  | .reti _ | .svc _ _ | .brk _ _ | .wait _ | .recall _ _ => true
  | _ => false
/-- Is the instruction a prefix, with which the next one issues (R154)? -/
def isPrefix : Instr → Bool
  | .repi _ _ | .repu _ _ => true
  | _ => false
/-- The parts that a load ahead of the oldest instruction may be issued to now: a window load whose base is there. -/
def State.loadParts (s : State) (c : Nat) (i : Instr) : List (Target × Nat) :=
  let k := s.clerk c
  let hs := match i with
    | .ld _ _ m => wordAt (k.dataEA m 1).addr
    | .lds _ _ m => sheetAt (k.dataEA m 8).addr
    | _ => []
  match allTargets (s.dataTarget c) hs 0 with
  | .ok ts => if ts.any fun x => x.1.isWindow then ts else []
  | .error _ => []
/-- The instruction joins the window; as a window load whose address is known it is issued at once (R58, R71). -/
def State.enterWindow (s : State) (c : Nat) (i : Instr) (older : List Instr) : State :=
  let add := fun (t : State) (ts : List (Target × Nat)) =>
    t.modClerk c fun k => { k with window := k.window ++ [{ insn := i, ts := ts, grant := none }] }
  match (if (s.clerk c).rep.isSome then none else s.ahead c older []) with
  | none => add s []
  | some (u, p) =>
    let s1 := if (insnReads i).any (u.clerk c).lastLoad.contains then s.pcnt c 0x0A 1 else s
    match (if readsAny p i then [] else u.loadParts c i) with
    | [] => add s1 []
    | ts =>
      match s1.issueLoad c ts with
      | .wait .window t => add (t.modClerk c fun k => { k with loadBuf := (s1.clerk c).loadBuf }) ts
      | _ => add s1 []
/-- An instruction comes to DC while an older one cannot retire: it issues behind it with a token, at most 63 so (R58, R59). One that
DC cannot take now is not taken. -/
def State.behind (s : State) (c : Nat) (w : Waiting) (i : Instr) : State :=
  let k := s.clerk c
  let older := w.insn :: k.window.map fun e => e.insn
  let last := older.getLastD w.insn
  let covered := isPrefix last
  if !w.kind.behind || endsPath last then s
  else if 63 ≤ k.window.length then s.setClerk c (k.during 0x0E)
  else if !covered && decide (k.tokens < 5) then s.setClerk c (k.during 0x0D)
  else
    let s1 := if covered then s else (s.setClerk c { k with tokens := k.tokens - 5 }).pcnt c 0x01 1
    let s2 := s1.enterWindow c i older
    if (s2.clerk c).waitsAtOp then s2.modClerk c fun x => x.during 0x0C else s2
/-- The instructions of the window execute in order once the oldest has retired, until one waits or squashes the rest (R58). -/
def State.drain (c : Nat) : List InFlight → State → State
  | [], s => s
  | e :: t, s0 =>
    let s := s0.shadowEnd c
    if (s.clerk c).waiting.isSome || (s.clerk c).window.isEmpty || !(s.clerkRuns c) then s
    else
      let s1 := s.modClerk c fun k => { k with window := t, entry := none }
      if e.outstanding then
        s1.modClerk c fun k => { k with waiting := some { kind := .window, insn := e.insn }, loadBuf := e.ts }
      else State.drain c t (s1.runInsn c e.insn e.grant false)
/-- What was in flight behind an instruction that has retired goes on. -/
def State.drained (s : State) (c : Nat) : State := State.drain c (s.clerk c).window s

/-- Clerk `c` executes instruction `i` at its PC, if it runs (log 5), or issues it behind one that waits. A mode change whose shadow
has ended takes effect first, and a request that waited for it is taken in the instruction's place (R77, R80). -/
def State.clerkInsn (s : State) (c : Nat) (i : Instr) : State :=
  if !(s.clerkRuns c) then s
  else match (s.clerk c).waiting with
    | some w => s.behind c w i
    | none =>
      let s1 := s.shadowEnd c
      if (s1.clerk c).entry.isSome && (s.clerk c).shadow.isEmpty.not then s1
      else (s1.modClerk c fun k => { k with entry := none }).issue c i

/-! ## Waits that end -/

/-- The instruction that waits for one of the reasons `p` executes again. -/
def State.retry (s : State) (c : Nat) (p : WaitKind → Bool) (g : Option Grant) : State :=
  match (s.clerk c).waiting with
  | none => s
  | some w =>
    if !(p w.kind) || !(s.clerkRuns c) then s
    else if w.kind = .token then (s.modClerk c fun k => { k with waiting := none }).issue c w.insn
    else (s.runInsn c w.insn g true).drained c
/-- Every clerk for which `q` holds tries again. -/
def State.retryAll (s : State) (q : Nat → Bool) (p : WaitKind → Bool) : State :=
  ((List.range 130).filter fun c => q c && (match (s.clerk c).waiting with
    | some w => p w.kind
    | none => false)).foldl (fun (t : State) c => t.retry c p none) s
/-- WAIT ends for every clerk with a source pending: its limiter is full again (R59, R161). -/
def State.wakeWaiters (s : State) : State :=
  ((List.range 130).filter fun c => (s.clerk c).waiting.isSome).foldl (fun (t : State) c =>
    match (t.clerk c).waiting with
    | some w =>
      if w.kind = .event ∧ !(t.pendingFor c).isEmpty ∧ t.clerkRuns c then
        (t.modClerk c fun k => { k with tokens := 320 }).retry c (· == .event) none
      else t
    | none => t) s

end Sys2Proof.Machine
end

