-- ==== Sys2Proof/Machine/ClerkEvents.lean ====
section
/-!
DEFINITION. What happens to a clerk from outside its instruction stream: interrupts, tokens, replies, the ends of waits, and the
debug port (R59, R65, R71, R76, R87, R174, R175, R207, R263, R331, R337, R338, R343, R445, R497).
-/
namespace Sys2Proof.Machine

/-! ## Mode changes, branches, counters -/

/-- MODE_CHANGE_EFFECT: the changes whose shadow has ended take effect, with `n` younger instructions issued and squashed; a request
that waited for them is taken (R76, R77, R80, R85). -/
def State.modeChangeEffect (s : State) (c n : Nat) : State :=
  if s.clerkRuns c && (s.clerk c).waiting.isNone && ((s.clerk c).shadow.any fun m => m.left == 0) then
    (s.wrongPath c n 0 0).shadowEnd c
  else s
/-- BRANCH_MISPREDICTION: the last branch went against its prediction, and `n` younger instructions are squashed, which have stalled
`stalls` times and issued `loads` window loads (R59, R70, R85, R87). -/
def State.mispredicted (s : State) (c n stalls loads : Nat) : State :=
  match (s.clerk c).pred.mispred with
  | none => s
  | some dir =>
    ((s.modClerk c fun k => { k with pred := { k.pred with mispred := none } }).pcnt c (if dir then 0x05 else 0x07) 1).wrongPath c n
      stalls loads

/-! ## The issue limiter (R59, R61) -/

/-- Fifths of a token that one reference period adds at a level (R59). -/
def levelTokens (l : Nat) : Nat := [40, 64, 90, 116, 144, 200, 250, 290].getD l 40
/-- Fifths that one period adds to clerk `c`: the cap of its die's present level, the lower one during a change; PM0 and PM1
have a fixed cap (R61, R359). -/
def State.periodTokens (s : State) (c : Nat) : Nat :=
  if isPm c then 180 else levelTokens (field (s.reg (Reg.PWR_PL (clerkDie c - 3))) 4 3)
/-- The duration events of the period that ends, with those whose condition holds now (R87). -/
def Clerk.stillHolds (k : Clerk) : Clerk :=
  let k1 := match k.waiting.bind fun w => w.kind.duration with
    | some ev => k.during ev
    | none => k
  if k1.waitsAtOp then k1.during 0x0C else k1
/-- TOKEN_ARRIVAL: a period of the reference ends for clerk `c`: each duration event whose condition held at any point of it counts,
its bucket fills up to 64 tokens, and what waits for a token issues (R59, R87). -/
def State.tokenArrival (s : State) (c : Nat) : State :=
  if !(s.live && (s.die (clerkDie c)).running) then s
  else
    let k := (s.clerk c).stillHolds
    let s1 := k.durs.foldl (fun t ev => t.pcnt c ev 1) s
    (s1.modClerk c fun x => { x with tokens := min 320 (x.tokens + s.periodTokens c), durs := [] }).retry c (· == .token) none

/-! ## Replies (R65, R71, R263) -/

/-- The data of a load in the window is in: its buffer entry keeps the words and whether each part is uncorrectable (R71, R100). -/
def State.loadAnswer (s : State) (c : Nat) (bad0 bad1 : Bool) (ts : List (Target × Nat)) : Grant :=
  { bad0 := (ts.take 1).any (s.partBad bad0), bad1 := (ts.drop 1).any (s.partBad bad1), ts := ts,
    val := (ts.map (s.partWords c)).flatten }
/-- The data of the `n`-th outstanding load of a window is in. -/
def State.answerNth (s : State) (c : Nat) (bad0 bad1 : Bool) : Nat → List InFlight → List InFlight
  | _, [] => []
  | n, e :: t =>
    if e.outstanding then
      (match n with
        | 0 => { e with grant := some (s.loadAnswer c bad0 bad1 e.ts) } :: t
        | m + 1 => e :: s.answerNth c bad0 bad1 m t)
    else e :: s.answerNth c bad0 bad1 n t
/-- The DDR parcels that bring a load's data from HUB (R249). -/
def State.dataParcels (s : State) (c : Nat) (ts : List (Target × Nat)) : State :=
  s.passN ((ts.map fun x => match x.1 with
    | .ddr a => ddrParcels a x.2
    | _ => 0).sum) 0 (clerkDie c)
/-- WINDOW_LOAD_RETURN: the data of the `n`-th outstanding window load, in program order, is in; a part may be uncorrectable. After
the loads in flight count the squashed ones, whose entries it frees (R71, R100). -/
def State.windowReturn (s : State) (c n : Nat) (bad0 bad1 : Bool) : State :=
  let k := s.clerk c
  let head := flag k.loadOut 0
  let out := (k.window.filter InFlight.outstanding).length
  if n < head then (s.dataParcels c k.loadBuf).retry c (· == .window) (some { bad0 := bad0, bad1 := bad1, ts := k.loadBuf, val := [] })
  else
    let s1 :=
      if n < head + out then (s.dataParcels c (((k.window.filter InFlight.outstanding)[n - head]?).elim [] (·.ts))).setClerk c { k with window := s.answerNth c bad0 bad1 (n - head) k.window }
      else s.setClerk c { k with stray := k.stray - 1 }
    s1.retry c (· == .buffer) none
/-- GLOBAL_PORT_READ_REPLY: the reply to a global read by clerk `c`; with ERR it returns 0000h (R263). -/
def State.portReplied (s : State) (c : Nat) (err : Bool) : State :=
  s.take (fun m => match m with
      | .portReply who _ _ _ => who == c
      | _ => false) fun m u =>
    match m with
    | .portReply _ _ vals e => u.retry c (· == .portReply) (some { Grant.reply (err || e) with val := vals })
    | _ => u
/-- UNDELIVERABLE_PARCEL: the router drops it; a window load whose request it was gets ERR in place of its data (R262, R263). -/
def State.parcelUndeliverable (s : State) (at_ : Nat) (post ctl : Word) (x : Sheet) : State :=
  let t := s.undeliverableParcel at_ post ctl x
  let c := originRequester ctl
  if (s.parcelFault at_ post x.l0 ctl).isSome ∧ field post 8 5 = 8 ∧ !(bit ctl 6) ∧ c < 130 ∧ 0 < (s.clerk c).bufferUsed then
    t.windowReturn c 0 true false
  else t
/-- CODE_WRITE_QUEUE_WRITE: the oldest queued line is written, and a PUTI or SYNCI that waits on the queue tries again (R81,
R84). -/
def State.codeQueueWrite (s : State) (c : Nat) : State :=
  if s.live && (s.die (clerkDie c)).running then (s.queueWrite c).retry c (fun k => k == .codeQueue || k == .synci) none else s
/-- Does a GETI of clerk `c` wait for code-store line `l`? -/
def State.getiWaits (s : State) (c l : Nat) : Bool :=
  match (s.clerk c).waiting with
  | some w =>
    w.kind == .codeLine && (match w.insn with
      | .geti _ _ h k => s.codeLine c (pairTarget ((s.clerk c).rw h) ((s.clerk c).rw k)) == l
      | .getia _ _ t => s.codeLine c t == l
      | _ => false)
  | none => false
/-- The instruction words at PC, as far as the group's cache holds their lines and the window holds them: word 0 and the words that
it calls for (R132, R134). -/
def State.wordsAtPc (s : State) (c : Nat) : Option (List Word) :=
  let k := s.clerk c
  match s.cachedWord c k.pc with
  | none => none
  | some w0 => if s.fetchable c (wordCount w0) then (List.range (wordCount w0)).mapM fun i => s.cachedWord c (k.next i) else none
/-- Is what stands at PC an encoding that raises ILLEGAL (R133)? -/
def State.undefinedAtPc (s : State) (c : Nat) : Bool :=
  match s.wordsAtPc c with
  | some ws =>
    (decodeInsn ⟨c % 130, Nat.mod_lt _ (by decide)⟩ (ws.getD 0 0) (ws.getD 1 0) (ws.getD 2 0)).isNone
  | none => false
/-- The instruction at PC raises an exception of its fetch or of its encoding: FETCH or ILLEGAL (R94, R128, R133). -/
def State.fetchRaises (s : State) (c cause : Nat) : State :=
  let s1 := s.shadowEnd c
  if (s1.clerk c).entry.isSome && (s.clerk c).shadow.isEmpty.not then s1
  else
    let s2 := s1.modClerk c fun k => { k with entry := none }
    (s2.takeException c cause 0 false (s2.clerk c).pc).afterUnit c
/-- What a good read of line `l` notes: a corrected line counts and is rewritten in place; a cached copy with a parity error is invalidated
and counted (R493). -/
def State.lineNoted (s : State) (c l : Nat) (how : LineRead) : State :=
  let d := clerkDie c
  match how with
  | .corrected => if isSort d then (s.bump (Reg.CST_CE d)).setBits (Reg.CST_STAT d) 0x8000 else s
  | .refetch =>
    let s1 : State := { s with lineCaches := s.lineCaches.set (groupKey c) ((s.lineCache (groupKey c)).invalidate (· == l)) }
    if isSort d then s1.bump (Reg.CST_LCPAR d) else s1
  | _ => s
/-- CODE_STORE_LINE_READ: a demand read of line `l` for clerk `c` completes. Good, it fills the group's cache, a GETI that waits goes
on, and an undefined encoding that it brings to PC raises ILLEGAL; uncorrectable, it is recorded, and the GETI or the instruction
at PC raises FETCH (R64, R65, R133, R493). -/
def State.lineRead (s : State) (c l : Nat) (how : LineRead) : State :=
  if !(s.clerkRuns c) ∨ 262144 ≤ l then s
  else
    let s1 := s.pcnt c 0x08 1
    if how ≠ .uncorrectable then
      (let s2 := (s1.lineNoted c l how).lineFill c l
       if s2.getiWaits c l then s2.retry c (· == .codeLine) none
       else if (s2.clerk c).waiting.isNone && s2.undefinedAtPc c then s2.fetchRaises c 1
       else s2)
    else
      let s2 := s1.codeLineBad (clerkDie c) l
      if s2.getiWaits c l then s2.retry c (· == .codeLine) (some (Grant.reply true))
      else if (s2.clerk c).waiting.isNone ∧ s2.codeLine c (s2.clerk c).pc = l then
        s2.fetchRaises c 7
      else s2

/-! ## Waits of the epoch rules, pops and postage (R174, R175, R205, R207, R212, R445) -/

/-- HELD_WRITE_PERFORMED: the oldest held write, of a settled epoch, is performed as a posted write, a global one once a stamp is
there (R173, R175). -/
def State.heldPerformed (s : State) (c : Nat) : State :=
  match (s.clerk c).held with
  | [] => s
  | h :: t =>
    if h.tag != 0 ∨ !(s.live && (s.die (clerkDie c)).running) then s
    else
      let s1 := s.modClerk c fun k => { k with held := t }
      let go := fun (u : State) => (u.doWrites h.sup c h.port h.vals).retry c (fun k => k == .held || k == .dsync) none
      if h.port < 0x4000 then go s1
      else
        let rt := s.clerkRoute c
        if s.hasStamp (clerkDie c) rt 0 then go (s1.takeStamp (clerkDie c) rt 0) else s.noteWait rt 0
/-- JOURNAL_WAIT_END: a store, pop or write that waits for room proceeds where room is (R174, R175). -/
def State.journalWaitEnd (s : State) (c : Nat) : State := s.retry c (fun k => k == .journal || k == .held) none
/-- POP_WAIT_END: a waiting pop ends where a sheet is there for it, or its slot's binding has changed (R207, R215). -/
def State.popWaitEnd (s : State) (c : Nat) : State := s.retry c (· == .pop) none
/-- CLERK_SETTLE, with the waits that it can end: journal and held-write room, the peek of a settled epoch (R174 to R176, R185). -/
def State.settleReaches (s : State) (c : Nat) : State :=
  if (s.clerk c).parked then s
  else (s.clerkSettled c).retry c (fun k => k == .journal || k == .held || k == .peek) none
/-- CLERK_RECALL; a clerk in WAIT leaves it with its limiter full (R59, R187, R189). -/
def State.recallArrives (s : State) (c : Nat) : State :=
  if (s.clerk c).parked then s
  else
    let t := s.clerkRecalled c
    if s.inWait c && !(t.inWait c) then t.modClerk c fun k => { k with tokens := 320 } else t

/-! ## Interrupts (R331 to R338, R343) -/

/-- LOCAL_EVENT: a local event reaches its die's controller (R331). -/
def State.localEvent (s : State) (d src : Nat) : State :=
  (s.take (fun m => match m with
      | .localEv e x _ => e == d && x == src
      | _ => false) fun m u =>
    match m with
    | .localEv _ _ n => u.icuEvent d src n false
    | _ => u).wakeWaiters
/-- Source that carries global event `g` on die `d` (R328). -/
def globalSource (d g : Nat) : Nat := if d = 0 then g else 0x80 + g
/-- GLOBAL_EVENT_PARCEL: an ICU parcel reaches a die's controller; on HUB the HOST block sees the event too (R330, R331, R415). -/
def State.globalEvent (s : State) (d g : Nat) : State :=
  (s.take (fun m => match m with
      | .globalEv e x _ _ => e == d && x == globalSource d g
      | _ => false) fun m u =>
    match m with
    | .globalEv _ x n edge => if d = 0 then (u.icuEvent d x n edge).hostGlobal g else u.icuEvent d x n edge
    | _ => u).wakeWaiters
/-- MODERATION_RELEASE: the times of MINT and COALT are looked at again (R331). -/
def State.moderationRelease (s : State) (d src : Nat) : State := if s.live then (s.icuRelease d src).wakeWaiters else s
/-- ALARM_FIRE: an armed alarm of a sorting clerk whose mark AX15 has reached (R343). -/
def State.alarmFire (s : State) (c : Nat) : State :=
  let mark := s.reg2 (Reg.LIC_ALML c) (Reg.LIC_ALMH c)
  if s.live ∧ c < 128 ∧ bit (s.reg (Reg.LIC_ALMCTL c)) 15 ∧ (s.refUs + 2 ^ 32 - mark) % 2 ^ 32 < 2 ^ 31 then
    (s.clrBits (Reg.LIC_ALMCTL c) 0x8000).raiseLocal (clerkDie c) (0x20 + clerkLocal c) 1
  else s
/-- INTERRUPT_ENTRY: the clerk accepts the offer, with `n` younger instructions issued and squashed, or a more urgent one replaces the
accepted one before the first handler instruction is fetched (R85, R336 to R338). -/
def State.interruptArrives (s : State) (c n : Nat) : State :=
  if !(s.clerkRuns c) then s
  else
    let s1 := s.settleShadow c
    let k := s1.clerk c
    match s1.winner c, k.entry with
    | some (p, src), some old => if decide (p < k.lvl) && !k.stepping then s1.replaceEntry c p src old else s1
    | some (p, src), none => if k.accepts p then (s1.wrongPath c n 0 0).interruptEntry c p src else s1
    | none, _ => s1

end Sys2Proof.Machine
end

