-- ==== Sys2Proof/Machine/Debug.lean ====
section
/-!
DEFINITION. The debug port: clerk control, register, memory and port accesses, and boundary scan (R290, R296, R497).
-/
namespace Sys2Proof.Machine

/-! ## Commands (R497) -/

/-- A DBG_CMD has been performed: DONE, ERR and the data that DBG_DATA returns. -/
def State.dbgDone (s : State) (err : Bool) (v : Word) : State :=
  { s with tap := { s.tap with ir := 0x10, done := true, err := err, data := v } }
/-- The mode is READY or SERVICE. -/
def State.dbgMode (s : State) : Bool := s.live && (s.mode == 3 || s.mode == 7)
/-- A command that changes a clerk: `f`, or ERR where `ok` fails; a clerk in HALTED accepts reads only. -/
def State.dbgAct (s : State) (c : Nat) (ok : Bool) (f : State → State) : State :=
  if s.live && ok && !(s.clerk c).halted then (f s).dbgDone false 0 else s.dbgDone true 0
/-- A recall that waits for RESUME or STEP is performed, unless a suspended epoch keeps it for RETI (R189, R191, R497). -/
def State.dbgRecall (s : State) (c : Nat) : State :=
  let k := s.clerk c
  match k.deferred with
  | some d =>
    if k.susp then s
    else (s.modClerk c fun x => { x with deferred := none }).restart c d.tag d.cause false
  | none => s
/-- HALT: at once at a boundary, else at the next one. -/
def State.dbgHaltClerk (s : State) (c : Nat) : State :=
  s.dbgAct c s.dbgMode fun t =>
    let k := t.clerk c
    if k.dbgHalt then t
    else if k.haltable then t.haltHere c
    else t.modClerk c fun x => { x with haltReq := true }
/-- RESUME. -/
def State.dbgResume (s : State) (c : Nat) : State :=
  s.dbgAct c (s.clerk c).dbgHalt fun t =>
    (t.dbgRecall c).modClerk c fun k => { k with dbgHalt := false, haltReq := false }
/-- STEP: the clerk's next instruction runs, with no interrupt accepted, and the clerk halts again. -/
def State.dbgStep (s : State) (c : Nat) : State :=
  s.dbgAct c (s.dbgMode && (s.clerk c).dbgHalt) fun t =>
    (t.dbgRecall c).modClerk c fun k => { k with dbgHalt := false, haltReq := false, stepping := true }
/-- ARM and DISARM. -/
def State.dbgArm (s : State) (c : Nat) (on : Bool) : State :=
  s.dbgAct c s.dbgMode fun t => t.modClerk c fun k => { k with armed := on }

/-! ## Registers, memory, ports (R497) -/

/-- A register as RDREG and WRREG name it. -/
inductive DbgReg where
  | w (r : Reg4)
  | s (r : Reg4) (lane : Nat)
  | a (k : Fin 4) (lane part : Nat)
  | special (n : Nat)
  | pcLow
  | pcHigh
  | sp (hi : Bool) (lane : Nat)
deriving DecidableEq, Repr
/-- The register that ARG names, if any. -/
def dbgReg (arg : Word) : Option DbgReg :=
  let n := arg.toNat
  if n < 0x10 then some (.w ⟨n % 16, Nat.mod_lt _ (by decide)⟩)
  else if n < 0x90 then some (.s ⟨(n - 0x10) / 8 % 16, Nat.mod_lt _ (by decide)⟩ ((n - 0x10) % 8))
  else if n < 0xF0 then
    some (.a ⟨(n - 0x90) / 24 % 4, Nat.mod_lt _ (by decide)⟩ ((n - 0x90) % 24 / 3) ((n - 0x90) % 3))
  else if n < 0xFB then some (.special (n - 0xF0))
  else if n = 0xFB then some .pcLow
  else if n = 0xFC then some .pcHigh
  else if 0x100 ≤ n ∧ n < 0x110 then some (.sp (decide (0x108 ≤ n)) (n % 8))
  else none
/-- A register's value. -/
def Clerk.dbgRead (k : Clerk) : DbgReg → Word
  | .w r => k.rw r
  | .s r l => (k.rs r).lane l
  | .a n l p => accPart ((k.ra n).lane l) p
  | .special n => k.special n
  | .pcLow => k.pc.setWidth 16
  | .pcHigh => word (k.pc.toNat / 65536)
  | .sp hi l => (if hi then k.sph else k.spl).lane l
/-- A sheet with a lane replaced. -/
def setSheetLane (x : Sheet) (l : Nat) (v : Word) : Sheet := Sheet.gen fun i => if i = l then v else x.lane i
/-- STATUS and CTX written by debug: at once, with no mode shadow. -/
def State.dbgStatus (s : State) (c : Nat) (v : Word) : State :=
  let k := s.clerk c
  ((s.setClerk c { k with status := (k.status &&& 0x7C00) ||| (v &&& 0x800F) }).applyMode c (.status v))
/-- WRREG's effect on a register; a new PC ends a repetition. -/
def State.dbgWrite (s : State) (c : Nat) (v : Word) : DbgReg → State
  | .w r => s.modClerk c fun k => k.ww r v
  | .s r l => s.modClerk c fun k => k.ws r (setSheetLane (k.rs r) l v)
  | .a n l p => s.modClerk c fun k => k.wa n (Acc.gen fun i => if i = l then setAccPart ((k.ra n).lane i) p v else (k.ra n).lane i)
  | .special n =>
    if n = 0 then s.dbgStatus c v
    else if n = 7 then s.applyMode c (.ctx (v.setWidth 8))
    else s.modClerk c fun k => k.putSpecial n v
  | .pcLow => s.modClerk c fun k => { k with pc := putLo k.pc v, rep := none }
  | .pcHigh => s.modClerk c fun k => { k with pc := putHi k.pc v, rep := none }
  | .sp hi l => s.modClerk c fun k =>
    if hi then { k.completeSmul with sph := setSheetLane k.completeSmul.sph l v }
    else { k.completeSmul with spl := setSheetLane k.completeSmul.spl l v }
/-- Is the clerk halted, by debug or in HALTED? -/
def Clerk.stopped (k : Clerk) : Bool := k.dbgHalt || k.halted
/-- RDREG. -/
def State.dbgRdreg (s : State) (c : Nat) (arg : Word) : State :=
  let k := s.clerk c
  match dbgReg arg with
  | some r => if s.live && k.stopped then s.dbgDone false (k.dbgRead r) else s.dbgDone true 0
  | none => s.dbgDone true 0
/-- WRREG: STATUS.LM = 11b is written nowhere (R91). -/
def State.dbgWrreg (s : State) (c : Nat) (arg v : Word) : State :=
  match dbgReg arg with
  | some r =>
    s.dbgAct c (s.dbgMode && (s.clerk c).dbgHalt && !(r == .special 0 && field v 10 2 == 3)) fun t => t.dbgWrite c v r
  | none => s.dbgDone true 0
/-- RDMEM: a private-store word. -/
def State.dbgRdmem (s : State) (c : Nat) (a : Word) : State :=
  if s.live && (s.clerk c).stopped && decide (a.toNat < 0x8000) then s.dbgDone false (s.peek (privKey c a.toNat))
  else s.dbgDone true 0
/-- WRMEM: the write is not journalled. -/
def State.dbgWrmem (s : State) (c : Nat) (a v : Word) : State :=
  s.dbgAct c (s.dbgMode && (s.clerk c).dbgHalt && decide (a.toNat < 0x8000)) fun t => t.poke (privKey c a.toNat) v
/-- RDPORT: a clerk-local port, without side effects. -/
def State.dbgRdport (s : State) (c : Nat) (p : Word) : State :=
  if s.live && (s.clerk c).stopped && decide (p.toNat < 0x1000) then
    s.dbgDone false (s.readReg debugId (clerkKey c p.toNat) true).1
  else s.dbgDone true 0

/-! ## Boundary scan (R290, R497) -/

/-- Does the instruction drive the pads from the boundary register: EXTEST and CLAMP? -/
def Tap.drives (t : Tap) : Bool := t.ir == 0 || t.ir == 4
/-- Level at a firing pad: the TAP's, unless the safe gate forces it (R290). -/
def State.firePin (s : State) (n : Nat) : Option Bool :=
  if s.forced then s.padLevel n
  else if s.tap.drives then some (s.tap.boundary.getD n false)
  else if s.tap.ir = 5 then none
  else s.padLevel n
/-- Level at a GPIO pad: driven by the TAP or as an output, else what the outside applies. -/
def State.gpioPin (s : State) (i : Nat) : Option Bool :=
  if s.tap.drives then some (s.tap.boundary.getD (64 + i) false)
  else if s.tap.ir = 5 then some (s.fe.gpioIn.getLsbD i)
  else match s.gpioPad i with
    | some b => some b
    | none => some (s.fe.gpioIn.getLsbD i)
/-- What the boundary register captures. -/
def State.capture (s : State) : Tbl (Option Bool) :=
  (List.range 96).map fun n => (n, if n < 64 then s.firePin n else s.gpioPin (n - 64))
/-- A TAP instruction takes effect. -/
def State.tapInsn (s : State) (ir : Nat) : State := { s with tap := { s.tap with ir := ir } }
/-- EXTEST: the boundary register drives the pads, and has captured what they held. -/
def State.tapExtest (s : State) : State := { s with tap := { s.tap with ir := 0, captured := s.capture } }
/-- IDCODE: version 2h, part 9640h, manufacturer 3A5h. -/
def State.tapIdcode (s : State) : State := { s with tap := { s.tap with ir := 1, idcode := some 0x2964074B#32 } }
/-- SAMPLE/PRELOAD: the pads are sampled, and the boundary register takes the values shifted in. -/
def State.tapSample (s : State) (fire : BitVec 64) (gpio : BitVec 32) : State :=
  { s with tap := { s.tap with ir := 2, captured := s.capture,
                               boundary := (List.range 96).map fun n => (n, if n < 64 then fire.getLsbD n else gpio.getLsbD (n - 64)) } }

end Sys2Proof.Machine
end

