-- ==== Sys2Proof/Machine/ExecBase.lean ====
section
/-!
DEFINITION. What the meanings of several commands share: an access to a register as one command, what follows a command that can
let other work go on, and when the device is up at all.
-/
namespace Sys2Proof.Machine

/-! ## What a command lets go on -/

/-- Local pushes that wait try again once a mailbag engine may have room (R205, R212). -/
def State.retryPush (s : State) : State := s.retryAll (fun _ => true) (· == .push)
/-- DSYNC ends for a clerk whose pushes have all arrived or been lost (R99). -/
def State.retryFlight (s : State) : State := s.retryAll (fun _ => true) (· == .dsync)
/-- After a command that may write ports or take sheets: fallback lists that are owed are applied, WAIT ends where a source is
pending, and waiting pushes try again (R161, R205, R462). -/
def State.after (s : State) : State := (s.runFallback.wakeWaiters).retryPush

/-- An event of the running device: nothing while it is unpowered or asleep (R368, R473). -/
def State.whileLive (s : State) (f : State → State) : State := if s.live then f s else s
/-- An event of the running device that a sleep entry pauses (R370). -/
def State.unlessPaused (s : State) (f : State → State) : State := if s.live && !s.paused then f s else s
/-- A spill transfer: paused too, but in D2 only once the parcels in flight have been delivered (R219, R371). -/
def State.unlessSaving (s : State) (f : State → State) : State :=
  let d2 := match s.sleep with
    | some r => r.step == 2
    | none => false
  if s.live && (!s.paused || (d2 && s.d2Waits)) then f s else s

/-! ## Register accesses as commands -/

/-- A write of `port` by `who`, with what it lets go on. -/
def State.rowWrite (s : State) (who port : Nat) (v : Word) : State := (s.registerWrite who (word port) v).after
/-- A read of a global port by `who`; inside an epoch of the clerk it is a peek, and a pop waits for the epoch's end (R176). -/
def State.rowRead (s : State) (who port : Nat) : State :=
  let inEpoch := decide (who < 130) && (s.clerk who).ep
  if !s.live || (inEpoch && popsBox port) then s else (s.globalRead who port inEpoch).2.1
/-- A read, or a write of the word given. -/
def State.rowAccess (s : State) (who port : Nat) (wr : Option Word) : State :=
  match wr with
  | some v => s.rowWrite who port v
  | none => s.rowRead who port

/-! ## Events with several parts -/

/-- ENCODER_TRANSITION: the pads of encoder `e` take levels `a` and `b` for `hold` ticks; a pad not in use reads 0 (R27, R383,
R508). -/
def State.encoderEvent (s : State) (e : Nat) (a b : Bool) (hold : Nat) : State :=
  let p := s.encoderPads e (a, b)
  (s.encoderSeen e a b).whileLive fun t => t.onEncoder e fun u n => u.encoderLevels n p.1 p.2 hold
/-- INDEX_EDGE: a rising edge on the index pad of encoder `e`, if it is in use (R40, R508). -/
def State.indexEvent (s : State) (e hold : Nat) : State :=
  s.whileLive fun t => if t.padEn (0x142 + 3 * e) then t.onEncoder e fun u n => u.indexOn n hold else t
/-- MAILBAG_PUSH: the oldest push on its way to a mailbag arrives, unless its engine holds its links; `flips` of its bits have
flipped in the store (R203, R204, R210). -/
def State.pushArrives (s : State) (n flips : Nat) : State :=
  if !s.live || !(s.bagAccepts (bagDie n)) then s
  else
    s.take (fun m => match m with
      | .push _ b _ => b == n
      | _ => false) fun m u =>
      match m with
      | .push _ _ i => u.bagArrive n { i with flips := flips }
      | _ => u
/-- The meter where a requester's item waits: die, route and class (R442, R443, R445). -/
def State.waitsAt (s : State) : PostageWaiter → Option (Nat × Nat × Nat)
  | .clerk c =>
    (match (s.clerk c.val).waiting with
      | some w =>
        if w.kind == .postage then some (clerkDie c.val, s.clerkRoute c.val, 0)
        else if w.kind == .ddrStamp then some (0, s.clerkRoute c.val, 1) else none
      | none => none)
  | .camera i k =>
    (match (s.cam i.val k.val).out with
      | .sheet rt _ _ :: _ => some (i.val + 1, rt, 0)
      | .burst rt _ _ :: _ => some (0, rt, 1)
      | _ => none)
  | .host => s.hostQ.head?.bind fun a => a.cls.map fun cls => (0, s.hostRoute, cls)
/-- The place of a requester in the round of those that a meter serves. -/
def waiterPlace : PostageWaiter → Nat
  | .clerk c => c.val
  | .camera i k => 130 + 16 * i.val + k.val
  | .host => 162
/-- The requester at a place. -/
def waiterAt (n : Nat) : PostageWaiter :=
  if h : n < 130 then .clerk ⟨n, h⟩
  else if n < 162 then .camera ⟨(n - 130) / 16 % 2, Nat.mod_lt _ (by decide)⟩ ⟨(n - 130) % 16, Nat.mod_lt _ (by decide)⟩
  else .host
/-- The place whose turn it is at a meter: the next that waits there after the one served last, round-robin (R445). -/
def State.turnAt (s : State) (q : Nat × Nat × Nat) : Option Nat :=
  let from_ := s.served.getD (512 * q.1 + 2 * q.2.1 + q.2.2) 162
  ((List.range 163).map fun i => (from_ + 1 + i) % 163).find? fun n => s.waitsAt (waiterAt n) == some q
/-- A requester's item tries again. -/
def State.serveWaiter (s : State) (w : PostageWaiter) : State :=
  match w with
  | .clerk c => s.retry c.val (fun k => k == .postage || k == .ddrStamp) none
  | .camera i k => s.camSend i.val k.val []
  | .host => s.drainHost
/-- POSTAGE_WAIT_END: an item that waits for a stamp goes where its route has one again and it is its requester's turn (R202, R239,
R413, R445). -/
def State.postageServed (s : State) (w : PostageWaiter) : State :=
  match s.waitsAt w with
  | none => s.serveWaiter w
  | some q =>
    if !(s.hasStamp q.1 q.2.1 q.2.2) then s.serveWaiter w
    else if s.turnAt q = some (waiterPlace w) then
      ({ s with served := s.served.set (512 * q.1 + 2 * q.2.1 + q.2.2) (waiterPlace w) }).serveWaiter w
    else s
/-- The device that a burst read names. -/
def readDev : BurstRead → Nat
  | .good => 0
  | .corrected d | .uncorrectable d => d.val
/-- Is the read corrected? -/
def readCe : BurstRead → Bool
  | .corrected _ => true
  | _ => false
/-- Is it uncorrectable? -/
def readUe : BurstRead → Bool
  | .uncorrectable _ => true
  | _ => false

end Sys2Proof.Machine
end

