-- ==== Sys2Proof/Machine/ExecSystem.lean ====
section
/-!
DEFINITION. The meanings of the commands: system instructions, special-register moves and repeat prefixes (R152 to R155, R159 to R162). Each is one call of the operation that its rule describes.
-/
namespace Sys2Proof.Machine

/-- NOP (R159): Does nothing and retires. -/
def execNop (c : ClerkId) (s : State) : Host.Outcome State Fault Refusal :=
  .next (s.clerkInsn c.val (.nop c))
/-- WAIT (R161): Waits until an interrupt source enabled for the clerk is pending, then retires. -/
def execWait (c : ClerkId) (s : State) : Host.Outcome State Fault Refusal :=
  .next (s.clerkInsn c.val (.wait c))
/-- SYNCI (R84): Retires once the code-write queue is empty and the line cache and BTB invalidation is complete, then squashes
and refetches. -/
def execSynci (c : ClerkId) (s : State) : Host.Outcome State Fault Refusal :=
  .next (s.clerkInsn c.val (.synci c))
/-- DSYNC (R99): Retires only when every window store and posted port write of the clerk has been performed. -/
def execDsync (c : ClerkId) (s : State) : Host.Outcome State Fault Refusal :=
  .next (s.clerkInsn c.val (.dsync c))
/-- RETI (R162): Pops the frame and returns, or chains into a pending offer. -/
def execReti (c : ClerkId) (s : State) : Host.Outcome State Fault Refusal :=
  .next (s.clerkInsn c.val (.reti c))
/-- EI (R159): Sets STATUS.IE to 1 at retire. -/
def execEi (c : ClerkId) (s : State) : Host.Outcome State Fault Refusal :=
  .next (s.clerkInsn c.val (.ei c))
/-- DI (R159): Sets STATUS.IE to 0 at retire. -/
def execDi (c : ClerkId) (s : State) : Host.Outcome State Fault Refusal :=
  .next (s.clerkInsn c.val (.di c))
/-- SVC (R159): Raises the SVC exception with its number in EXC_CAUSE.ARG. -/
def execSvc (c : ClerkId) (n : Fin 32) (s : State) : Host.Outcome State Fault Refusal :=
  .next (s.clerkInsn c.val (.svc c n))
/-- BREAK (R159): Raises BREAK, or halts the clerk when debug has armed break-to-halt. -/
def execBrk (c : ClerkId) (n : Fin 32) (s : State) : Host.Outcome State Fault Refusal :=
  .next (s.clerkInsn c.val (.brk c n))
/-- SETLM (R159): Sets STATUS.LM, as a mode-changing instruction when LM changes. -/
def execSetlm (c : ClerkId) (m : Fin 3) (s : State) : Host.Outcome State Fault Refusal :=
  .next (s.clerkInsn c.val (.setlm c m))
/-- MFS (R152): Moves a special register into a W register. -/
def execMfs (c : ClerkId) (d : Reg4) (sr : Fin 11) (s : State) : Host.Outcome State Fault Refusal :=
  .next (s.clerkInsn c.val (.mfs c d sr))
/-- MTS (R153): Moves a W register into a special register, with privilege and mode-change rules. -/
def execMts (c : ClerkId) (sr : Fin 11) (r : Reg4) (s : State) : Host.Outcome State Fault Refusal :=
  .next (s.clerkInsn c.val (.mts c sr r))
/-- MFSP (R152): Moves SPL or SPH into a sheet register. -/
def execMfsp (c : ClerkId) (d : Reg4) (hi : Bool) (s : State) : Host.Outcome State Fault Refusal :=
  .next (s.clerkInsn c.val (.mfsp c d hi))
/-- MTSP (R152): Moves a sheet register into SPL or SPH once the outstanding sheet products have completed. -/
def execMtsp (c : ClerkId) (hi : Bool) (r : Reg4) (s : State) : Host.Outcome State Fault Refusal :=
  .next (s.clerkInsn c.val (.mtsp c hi r))
/-- REPI (R120): Runs the next instruction a counted number of times, interruptibly between iterations. -/
def execRepi (c : ClerkId) (n : RepCount) (s : State) : Host.Outcome State Fault Refusal :=
  .next (s.clerkInsn c.val (.repi c n))
/-- REPU (R122): Runs the next instruction up to 16 times, with no interrupt taken between iterations. -/
def execRepu (c : ClerkId) (n : RepCount) (s : State) : Host.Outcome State Fault Refusal :=
  .next (s.clerkInsn c.val (.repu c n))

end Sys2Proof.Machine
end

