-- ==== Sys2Proof/Machine/ExecBlock.lean ====
section
/-!
DEFINITION. The meanings of the commands: block instructions (R156). Each is one call of the operation that its rule describes.
-/
namespace Sys2Proof.Machine

/-- BGATH (R124): Gathers words from a strided source into a contiguous destination. -/
def execBgath (c : ClerkId) (s : State) : Host.Outcome State Fault Refusal :=
  .next (s.clerkInsn c.val (.bgath c))
/-- BSCAT (R124): Scatters contiguous words to a strided destination. -/
def execBscat (c : ClerkId) (s : State) : Host.Outcome State Fault Refusal :=
  .next (s.clerkInsn c.val (.bscat c))
/-- BRAMP (R124): Writes a ramp of values to a block of words. -/
def execBramp (c : ClerkId) (s : State) : Host.Outcome State Fault Refusal :=
  .next (s.clerkInsn c.val (.bramp c))
/-- BMATCH (R124): Searches a block for a word that matches a key under a mask. -/
def execBmatch (c : ClerkId) (s : State) : Host.Outcome State Fault Refusal :=
  .next (s.clerkInsn c.val (.bmatch c))
/-- BSUM (R124): Forms the ones'-complement sum of a block of words. -/
def execBsum (c : ClerkId) (s : State) : Host.Outcome State Fault Refusal :=
  .next (s.clerkInsn c.val (.bsum c))
/-- BPGET (R124): Copies consecutive ports into data space. -/
def execBpget (c : ClerkId) (s : State) : Host.Outcome State Fault Refusal :=
  .next ((s.clerkInsn c.val (.bpget c)).after)
/-- BPPUT (R124): Copies data words to consecutive ports. -/
def execBpput (c : ClerkId) (s : State) : Host.Outcome State Fault Refusal :=
  .next ((s.clerkInsn c.val (.bpput c)).after)

end Sys2Proof.Machine
end

