-- ==== Sys2Proof/Machine/ExecScalar.lean ====
section
/-!
DEFINITION. The meanings of the commands: scalar arithmetic, logic, products and conditions (R135 to R139). Each is one call of the operation that its rule describes.
-/
namespace Sys2Proof.Machine

/-- MOV (R137): Copies one W register into another. -/
def execMov (c : ClerkId) (d r : Reg4) (s : State) : Host.Outcome State Fault Refusal :=
  .next (s.clerkInsn c.val (.mov c d r))
/-- ADD (R137): Adds two W registers. -/
def execAdd (c : ClerkId) (d r : Reg4) (s : State) : Host.Outcome State Fault Refusal :=
  .next (s.clerkInsn c.val (.add c d r))
/-- SUB (R137): Subtracts two W registers. -/
def execSub (c : ClerkId) (d r : Reg4) (s : State) : Host.Outcome State Fault Refusal :=
  .next (s.clerkInsn c.val (.sub c d r))
/-- AND (R137): Forms the bitwise AND of two W registers. -/
def execAnd (c : ClerkId) (d r : Reg4) (s : State) : Host.Outcome State Fault Refusal :=
  .next (s.clerkInsn c.val (.and c d r))
/-- OR (R137): Forms the bitwise OR of two W registers. -/
def execOr (c : ClerkId) (d r : Reg4) (s : State) : Host.Outcome State Fault Refusal :=
  .next (s.clerkInsn c.val (.or c d r))
/-- XOR (R137): Forms the bitwise XOR of two W registers. -/
def execXor (c : ClerkId) (d r : Reg4) (s : State) : Host.Outcome State Fault Refusal :=
  .next (s.clerkInsn c.val (.xor c d r))
/-- SHL (R137): Shifts a W register left by a register count. -/
def execShl (c : ClerkId) (d r : Reg4) (s : State) : Host.Outcome State Fault Refusal :=
  .next (s.clerkInsn c.val (.shl c d r))
/-- SHR (R137): Shifts a W register right, logically, by a register count. -/
def execShr (c : ClerkId) (d r : Reg4) (s : State) : Host.Outcome State Fault Refusal :=
  .next (s.clerkInsn c.val (.shr c d r))
/-- SAR (R137): Shifts a W register right, arithmetically, by a register count. -/
def execSar (c : ClerkId) (d r : Reg4) (s : State) : Host.Outcome State Fault Refusal :=
  .next (s.clerkInsn c.val (.sar c d r))
/-- ROL (R137): Rotates a W register left. -/
def execRol (c : ClerkId) (d r : Reg4) (s : State) : Host.Outcome State Fault Refusal :=
  .next (s.clerkInsn c.val (.rol c d r))
/-- NOT (R137): Writes the bitwise complement of a W register. -/
def execNot (c : ClerkId) (d r : Reg4) (s : State) : Host.Outcome State Fault Refusal :=
  .next (s.clerkInsn c.val (.not c d r))
/-- NEG (R137): Writes the negation of a W register. -/
def execNeg (c : ClerkId) (d r : Reg4) (s : State) : Host.Outcome State Fault Refusal :=
  .next (s.clerkInsn c.val (.neg c d r))
/-- MOVQ (R137): Loads a 4-bit immediate. -/
def execMovq (c : ClerkId) (d : Reg4) (u : Fin 16) (s : State) : Host.Outcome State Fault Refusal :=
  .next (s.clerkInsn c.val (.movq c d u))
/-- ADDQ (R137): Adds a 4-bit immediate. -/
def execAddq (c : ClerkId) (d : Reg4) (u : Fin 16) (s : State) : Host.Outcome State Fault Refusal :=
  .next (s.clerkInsn c.val (.addq c d u))
/-- SUBQ (R137): Subtracts a 4-bit immediate. -/
def execSubq (c : ClerkId) (d : Reg4) (u : Fin 16) (s : State) : Host.Outcome State Fault Refusal :=
  .next (s.clerkInsn c.val (.subq c d u))
/-- SHLQ (R137): Shifts left by an immediate count. -/
def execShlq (c : ClerkId) (d : Reg4) (u : Fin 16) (s : State) : Host.Outcome State Fault Refusal :=
  .next (s.clerkInsn c.val (.shlq c d u))
/-- SHRQ (R137): Shifts right, logically, by an immediate count. -/
def execShrq (c : ClerkId) (d : Reg4) (u : Fin 16) (s : State) : Host.Outcome State Fault Refusal :=
  .next (s.clerkInsn c.val (.shrq c d u))
/-- SARQ (R137): Shifts right, arithmetically, by an immediate count. -/
def execSarq (c : ClerkId) (d : Reg4) (u : Fin 16) (s : State) : Host.Outcome State Fault Refusal :=
  .next (s.clerkInsn c.val (.sarq c d u))
/-- ROLQ (R137): Rotates left by an immediate count. -/
def execRolq (c : ClerkId) (d : Reg4) (u : Fin 16) (s : State) : Host.Outcome State Fault Refusal :=
  .next (s.clerkInsn c.val (.rolq c d u))
/-- MOVI (R137): Loads a 16-bit immediate. -/
def execMovi (c : ClerkId) (d : Reg4) (imm : Word) (s : State) : Host.Outcome State Fault Refusal :=
  .next (s.clerkInsn c.val (.movi c d imm))
/-- ADDI (R137): Adds a 16-bit immediate. -/
def execAddi (c : ClerkId) (d r : Reg4) (imm : Word) (s : State) : Host.Outcome State Fault Refusal :=
  .next (s.clerkInsn c.val (.addi c d r imm))
/-- ANDI (R137): Forms the AND with a 16-bit immediate. -/
def execAndi (c : ClerkId) (d r : Reg4) (imm : Word) (s : State) : Host.Outcome State Fault Refusal :=
  .next (s.clerkInsn c.val (.andi c d r imm))
/-- ORI (R137): Forms the OR with a 16-bit immediate. -/
def execOri (c : ClerkId) (d r : Reg4) (imm : Word) (s : State) : Host.Outcome State Fault Refusal :=
  .next (s.clerkInsn c.val (.ori c d r imm))
/-- XORI (R137): Forms the XOR with a 16-bit immediate. -/
def execXori (c : ClerkId) (d r : Reg4) (imm : Word) (s : State) : Host.Outcome State Fault Refusal :=
  .next (s.clerkInsn c.val (.xori c d r imm))
/-- MUL (R138): Writes the signed product to PH:PL, with the exposed latency. -/
def execMul (c : ClerkId) (a b : Reg4) (s : State) : Host.Outcome State Fault Refusal :=
  .next (s.clerkInsn c.val (.mul c a b))
/-- MULU (R138): Writes the unsigned product to PH:PL. -/
def execMulu (c : ClerkId) (a b : Reg4) (s : State) : Host.Outcome State Fault Refusal :=
  .next (s.clerkInsn c.val (.mulu c a b))
/-- MULI (R138): Writes the signed product with an immediate to PH:PL. -/
def execMuli (c : ClerkId) (r : Reg4) (imm : Word) (s : State) : Host.Outcome State Fault Refusal :=
  .next (s.clerkInsn c.val (.muli c r imm))
/-- MULUI (R138): Writes the unsigned product with an immediate to PH:PL. -/
def execMului (c : ClerkId) (r : Reg4) (imm : Word) (s : State) : Host.Outcome State Fault Refusal :=
  .next (s.clerkInsn c.val (.mului c r imm))
/-- CMOVNZ (R138): Moves when the condition register is nonzero. -/
def execCmovnz (c : ClerkId) (d r q : Reg4) (s : State) : Host.Outcome State Fault Refusal :=
  .next (s.clerkInsn c.val (.cmovnz c d r q))
/-- CMOVZ (R138): Moves when the condition register is zero. -/
def execCmovz (c : ClerkId) (d r q : Reg4) (s : State) : Host.Outcome State Fault Refusal :=
  .next (s.clerkInsn c.val (.cmovz c d r q))
/-- SEL (R138): Selects one of two registers by a condition. -/
def execSel (c : ClerkId) (d q a b : Reg4) (s : State) : Host.Outcome State Fault Refusal :=
  .next (s.clerkInsn c.val (.sel c d q a b))
/-- CEQ (R139): Writes 1 if two registers are equal. -/
def execCeq (c : ClerkId) (d a b : Reg4) (s : State) : Host.Outcome State Fault Refusal :=
  .next (s.clerkInsn c.val (.ceq c d a b))
/-- CNE (R139): Writes 1 if two registers differ. -/
def execCne (c : ClerkId) (d a b : Reg4) (s : State) : Host.Outcome State Fault Refusal :=
  .next (s.clerkInsn c.val (.cne c d a b))
/-- CLT (R139): Signed less-than compare. -/
def execClt (c : ClerkId) (d a b : Reg4) (s : State) : Host.Outcome State Fault Refusal :=
  .next (s.clerkInsn c.val (.clt c d a b))
/-- CLE (R139): Signed less-or-equal compare. -/
def execCle (c : ClerkId) (d a b : Reg4) (s : State) : Host.Outcome State Fault Refusal :=
  .next (s.clerkInsn c.val (.cle c d a b))
/-- CLTU (R139): Unsigned less-than compare. -/
def execCltu (c : ClerkId) (d a b : Reg4) (s : State) : Host.Outcome State Fault Refusal :=
  .next (s.clerkInsn c.val (.cltu c d a b))
/-- CLEU (R139): Unsigned less-or-equal compare. -/
def execCleu (c : ClerkId) (d a b : Reg4) (s : State) : Host.Outcome State Fault Refusal :=
  .next (s.clerkInsn c.val (.cleu c d a b))
/-- CADC (R139): Writes the carry out of an addition. -/
def execCadc (c : ClerkId) (d a b : Reg4) (s : State) : Host.Outcome State Fault Refusal :=
  .next (s.clerkInsn c.val (.cadc c d a b))
/-- COVA (R139): Writes the signed overflow of an addition. -/
def execCova (c : ClerkId) (d a b : Reg4) (s : State) : Host.Outcome State Fault Refusal :=
  .next (s.clerkInsn c.val (.cova c d a b))
/-- COVS (R139): Writes the signed overflow of a subtraction. -/
def execCovs (c : ClerkId) (d a b : Reg4) (s : State) : Host.Outcome State Fault Refusal :=
  .next (s.clerkInsn c.val (.covs c d a b))
/-- CBIT (R139): Tests one bit of a register. -/
def execCbit (c : ClerkId) (d a b : Reg4) (s : State) : Host.Outcome State Fault Refusal :=
  .next (s.clerkInsn c.val (.cbit c d a b))
/-- CEQI (R139): Equality compare with an immediate. -/
def execCeqi (c : ClerkId) (d a : Reg4) (imm : Word) (s : State) : Host.Outcome State Fault Refusal :=
  .next (s.clerkInsn c.val (.ceqi c d a imm))
/-- CNEI (R139): Inequality compare with an immediate. -/
def execCnei (c : ClerkId) (d a : Reg4) (imm : Word) (s : State) : Host.Outcome State Fault Refusal :=
  .next (s.clerkInsn c.val (.cnei c d a imm))
/-- CLTI (R139): Signed less-than compare with an immediate. -/
def execClti (c : ClerkId) (d a : Reg4) (imm : Word) (s : State) : Host.Outcome State Fault Refusal :=
  .next (s.clerkInsn c.val (.clti c d a imm))
/-- CGTI (R139): Signed greater-than compare with an immediate. -/
def execCgti (c : ClerkId) (d a : Reg4) (imm : Word) (s : State) : Host.Outcome State Fault Refusal :=
  .next (s.clerkInsn c.val (.cgti c d a imm))
/-- CLTUI (R139): Unsigned less-than compare with an immediate. -/
def execCltui (c : ClerkId) (d a : Reg4) (imm : Word) (s : State) : Host.Outcome State Fault Refusal :=
  .next (s.clerkInsn c.val (.cltui c d a imm))
/-- CGTUI (R139): Unsigned greater-than compare with an immediate. -/
def execCgtui (c : ClerkId) (d a : Reg4) (imm : Word) (s : State) : Host.Outcome State Fault Refusal :=
  .next (s.clerkInsn c.val (.cgtui c d a imm))

end Sys2Proof.Machine
end

