-- ==== Sys2Proof/Machine/ExecBranch.lean ====
section
/-!
DEFINITION. The meanings of the commands: branches, calls and returns (R140 to R142). Each is one call of the operation that its rule describes.
-/
namespace Sys2Proof.Machine

/-- RET (R140): Returns to the address held in W13 and W14. -/
def execRet (c : ClerkId) (s : State) : Host.Outcome State Fault Refusal :=
  .next (s.clerkInsn c.val (.ret c))
/-- BNZ (R140): Short branch if the register is nonzero. -/
def execBnz (c : ClerkId) (q : Reg4) (disp : BitVec 8) (s : State) : Host.Outcome State Fault Refusal :=
  .next (s.clerkInsn c.val (.bnz c q disp))
/-- BZ (R140): Short branch if the register is zero. -/
def execBz (c : ClerkId) (q : Reg4) (disp : BitVec 8) (s : State) : Host.Outcome State Fault Refusal :=
  .next (s.clerkInsn c.val (.bz c q disp))
/-- BNZL (R140): Long branch if the register is nonzero. -/
def execBnzl (c : ClerkId) (q : Reg4) (disp : Word) (s : State) : Host.Outcome State Fault Refusal :=
  .next (s.clerkInsn c.val (.bnzl c q disp))
/-- BZL (R140): Long branch if the register is zero. -/
def execBzl (c : ClerkId) (q : Reg4) (disp : Word) (s : State) : Host.Outcome State Fault Refusal :=
  .next (s.clerkInsn c.val (.bzl c q disp))
/-- JMP (R140): Jumps to an absolute address. -/
def execJmp (c : ClerkId) (t : CodeAddr) (s : State) : Host.Outcome State Fault Refusal :=
  .next (s.clerkInsn c.val (.jmp c t))
/-- CALL (R141): Links in W13 and W14, then jumps to an absolute address. -/
def execCall (c : ClerkId) (t : CodeAddr) (s : State) : Host.Outcome State Fault Refusal :=
  .next (s.clerkInsn c.val (.call c t))
/-- JMPR (R140): Jumps to an address held in two registers. -/
def execJmpr (c : ClerkId) (h l : Reg4) (s : State) : Host.Outcome State Fault Refusal :=
  .next (s.clerkInsn c.val (.jmpr c h l))
/-- CALLR (R141): Links, then jumps to an address held in two registers. -/
def execCallr (c : ClerkId) (h l : Reg4) (s : State) : Host.Outcome State Fault Refusal :=
  .next (s.clerkInsn c.val (.callr c h l))

end Sys2Proof.Machine
end

