-- ==== Sys2Proof/Machine/ExecMem.lean ====
section
/-!
DEFINITION. The meanings of the commands: loads, stores, port and code accesses (R143 to R146). Each is one call of the operation that its rule describes.
-/
namespace Sys2Proof.Machine

/-- LD (R143): Loads a data word, with addressing mode and base update. -/
def execLd (c : ClerkId) (d : Reg4) (m : AddrMode) (s : State) : Host.Outcome State Fault Refusal :=
  .next (s.clerkInsn c.val (.ld c d m))
/-- ST (R143): Stores a data word at retire. -/
def execSt (c : ClerkId) (r : Reg4) (m : AddrMode) (s : State) : Host.Outcome State Fault Refusal :=
  .next (s.clerkInsn c.val (.st c r m))
/-- LDS (R143): Loads a sheet, split at an 8-word boundary where needed. -/
def execLds (c : ClerkId) (d : Reg4) (m : AddrMode) (s : State) : Host.Outcome State Fault Refusal :=
  .next (s.clerkInsn c.val (.lds c d m))
/-- STS (R143): Stores a sheet at retire. -/
def execSts (c : ClerkId) (r : Reg4) (m : AddrMode) (s : State) : Host.Outcome State Fault Refusal :=
  .next (s.clerkInsn c.val (.sts c r m))
/-- IN (R145): Reads a port once the instruction is oldest. -/
def execInPort (c : ClerkId) (d : Reg4) (m : PortMode) (s : State) : Host.Outcome State Fault Refusal :=
  .next ((s.clerkInsn c.val (.inPort c d m)).after)
/-- OUT (R145): Writes a port at retire. -/
def execOutPort (c : ClerkId) (r : Reg4) (m : PortMode) (s : State) : Host.Outcome State Fault Refusal :=
  .next ((s.clerkInsn c.val (.outPort c r m)).after)
/-- INS (R145): Reads eight aligned ports as one sheet access. -/
def execIns (c : ClerkId) (d : Reg4) (m : PortMode) (s : State) : Host.Outcome State Fault Refusal :=
  .next ((s.clerkInsn c.val (.ins c d m)).after)
/-- OUTS (R145): Writes eight aligned ports as one sheet access. -/
def execOuts (c : ClerkId) (r : Reg4) (m : PortMode) (s : State) : Host.Outcome State Fault Refusal :=
  .next ((s.clerkInsn c.val (.outs c r m)).after)
/-- GETI (R146): Reads an instruction-space word at an address held in registers. -/
def execGeti (c : ClerkId) (d h l : Reg4) (s : State) : Host.Outcome State Fault Refusal :=
  .next (s.clerkInsn c.val (.geti c d h l))
/-- GETIA (R146): Reads an instruction-space word at an absolute address. -/
def execGetia (c : ClerkId) (d : Reg4) (t : CodeAddr) (s : State) : Host.Outcome State Fault Refusal :=
  .next (s.clerkInsn c.val (.getia c d t))
/-- PUTI (R95): Writes an instruction-space word into the code-write queue at retire, under the IWR rules. -/
def execPuti (c : ClerkId) (r h l : Reg4) (s : State) : Host.Outcome State Fault Refusal :=
  .next (s.clerkInsn c.val (.puti c r h l))
/-- PUTIA (R146): As PUTI, at an absolute address. -/
def execPutia (c : ClerkId) (r : Reg4) (t : CodeAddr) (s : State) : Host.Outcome State Fault Refusal :=
  .next (s.clerkInsn c.val (.putia c r t))
/-- STI (R146): Stores an immediate to data space at retire. -/
def execSti (c : ClerkId) (b : Reg4) (x imm : Word) (s : State) : Host.Outcome State Fault Refusal :=
  .next (s.clerkInsn c.val (.sti c b x imm))
/-- OUTI (R146): Writes an immediate to a port at retire. -/
def execOuti (c : ClerkId) (b : Reg4) (x imm : Word) (s : State) : Host.Outcome State Fault Refusal :=
  .next ((s.clerkInsn c.val (.outi c b x imm)).after)

end Sys2Proof.Machine
end

