-- ==== Sys2Proof/Machine/ExecSheet.lean ====
section
/-!
DEFINITION. The meanings of the commands: sheet and accumulator instructions (R147 to R151). Each is one call of the operation that its rule describes.
-/
namespace Sys2Proof.Machine

/-- SMOV (R148): Copies one sheet into another. -/
def execSmov (c : ClerkId) (d r : Reg4) (s : State) : Host.Outcome State Fault Refusal :=
  .next (s.clerkInsn c.val (.smov c d r))
/-- SADD (R147): Adds per lane, under the lane mode. -/
def execSadd (c : ClerkId) (d r : Reg4) (s : State) : Host.Outcome State Fault Refusal :=
  .next (s.clerkInsn c.val (.sadd c d r))
/-- SSUB (R147): Subtracts per lane, under the lane mode. -/
def execSsub (c : ClerkId) (d r : Reg4) (s : State) : Host.Outcome State Fault Refusal :=
  .next (s.clerkInsn c.val (.ssub c d r))
/-- SAND (R148): Forms the AND per lane. -/
def execSand (c : ClerkId) (d r : Reg4) (s : State) : Host.Outcome State Fault Refusal :=
  .next (s.clerkInsn c.val (.sand c d r))
/-- SOR (R148): Forms the OR per lane. -/
def execSor (c : ClerkId) (d r : Reg4) (s : State) : Host.Outcome State Fault Refusal :=
  .next (s.clerkInsn c.val (.sor c d r))
/-- SXOR (R148): Forms the XOR per lane. -/
def execSxor (c : ClerkId) (d r : Reg4) (s : State) : Host.Outcome State Fault Refusal :=
  .next (s.clerkInsn c.val (.sxor c d r))
/-- SMIN (R147): Forms the minimum per lane. -/
def execSmin (c : ClerkId) (d r : Reg4) (s : State) : Host.Outcome State Fault Refusal :=
  .next (s.clerkInsn c.val (.smin c d r))
/-- SMAX (R147): Forms the maximum per lane. -/
def execSmax (c : ClerkId) (d r : Reg4) (s : State) : Host.Outcome State Fault Refusal :=
  .next (s.clerkInsn c.val (.smax c d r))
/-- SABD (R147): Forms the absolute difference per lane. -/
def execSabd (c : ClerkId) (d r : Reg4) (s : State) : Host.Outcome State Fault Refusal :=
  .next (s.clerkInsn c.val (.sabd c d r))
/-- SSHL (R147): Shifts each lane left. -/
def execSshl (c : ClerkId) (d : Reg4) (u : Fin 16) (s : State) : Host.Outcome State Fault Refusal :=
  .next (s.clerkInsn c.val (.sshl c d u))
/-- SSHR (R147): Shifts each lane right, logically. -/
def execSshr (c : ClerkId) (d : Reg4) (u : Fin 16) (s : State) : Host.Outcome State Fault Refusal :=
  .next (s.clerkInsn c.val (.sshr c d u))
/-- SSAR (R147): Shifts each lane right, arithmetically. -/
def execSsar (c : ClerkId) (d : Reg4) (u : Fin 16) (s : State) : Host.Outcome State Fault Refusal :=
  .next (s.clerkInsn c.val (.ssar c d u))
/-- SCEQ (R147): Equality compare per lane. -/
def execSceq (c : ClerkId) (d r : Reg4) (s : State) : Host.Outcome State Fault Refusal :=
  .next (s.clerkInsn c.val (.sceq c d r))
/-- SCLT (R147): Signed less-than compare per lane. -/
def execSclt (c : ClerkId) (d r : Reg4) (s : State) : Host.Outcome State Fault Refusal :=
  .next (s.clerkInsn c.val (.sclt c d r))
/-- SCLTU (R147): Unsigned less-than compare per lane. -/
def execScltu (c : ClerkId) (d r : Reg4) (s : State) : Host.Outcome State Fault Refusal :=
  .next (s.clerkInsn c.val (.scltu c d r))
/-- SANDN (R148): Forms the AND with the complement per lane. -/
def execSandn (c : ClerkId) (d r : Reg4) (s : State) : Host.Outcome State Fault Refusal :=
  .next (s.clerkInsn c.val (.sandn c d r))
/-- SMUL (R149): Writes the signed lane products to SPH:SPL. -/
def execSmul (c : ClerkId) (a b : Reg4) (s : State) : Host.Outcome State Fault Refusal :=
  .next (s.clerkInsn c.val (.smul c a b))
/-- SMULU (R149): Writes the unsigned lane products to SPH:SPL. -/
def execSmulu (c : ClerkId) (a b : Reg4) (s : State) : Host.Outcome State Fault Refusal :=
  .next (s.clerkInsn c.val (.smulu c a b))
/-- SMAC (R149): Multiplies two sheets and accumulates into Ak. -/
def execSmac (c : ClerkId) (k : Fin 4) (a b : Reg4) (s : State) : Host.Outcome State Fault Refusal :=
  .next (s.clerkInsn c.val (.smac c k a b))
/-- SMACW (R149): Multiplies a sheet by a signed word and accumulates. -/
def execSmacw (c : ClerkId) (k : Fin 4) (a b : Reg4) (s : State) : Host.Outcome State Fault Refusal :=
  .next (s.clerkInsn c.val (.smacw c k a b))
/-- SMACUW (R149): Multiplies an unsigned sheet by a signed word and accumulates. -/
def execSmacuw (c : ClerkId) (k : Fin 4) (a b : Reg4) (s : State) : Host.Outcome State Fault Refusal :=
  .next (s.clerkInsn c.val (.smacuw c k a b))
/-- ACLR (R150): Clears every lane of an accumulator. -/
def execAclr (c : ClerkId) (k : Fin 4) (s : State) : Host.Outcome State Fault Refusal :=
  .next (s.clerkInsn c.val (.aclr c k))
/-- AHSUM (R150): Sums the accumulator lanes into lane 0. -/
def execAhsum (c : ClerkId) (k : Fin 4) (s : State) : Host.Outcome State Fault Refusal :=
  .next (s.clerkInsn c.val (.ahsum c k))
/-- AGET (R150): Reads one part of each accumulator lane into a sheet. -/
def execAget (c : ClerkId) (d : Reg4) (k : Fin 4) (p : Fin 3) (s : State) : Host.Outcome State Fault Refusal :=
  .next (s.clerkInsn c.val (.aget c d k p))
/-- ASET (R150): Writes one part of each accumulator lane from a sheet. -/
def execAset (c : ClerkId) (r : Reg4) (k : Fin 4) (p : Fin 3) (s : State) : Host.Outcome State Fault Refusal :=
  .next (s.clerkInsn c.val (.aset c r k p))
/-- AOUT (R150): Rounds, shifts and saturates the accumulator lanes into a sheet. -/
def execAout (c : ClerkId) (d : Reg4) (k : Fin 4) (u : Fin 16) (s : State) : Host.Outcome State Fault Refusal :=
  .next (s.clerkInsn c.val (.aout c d k u))
/-- APUT (R150): Loads the accumulator lanes, sign-extended, from a sheet. -/
def execAput (c : ClerkId) (k : Fin 4) (r : Reg4) (s : State) : Host.Outcome State Fault Refusal :=
  .next (s.clerkInsn c.val (.aput c k r))
/-- SSUM (R150): Forms the saturated sum of the sheet lanes. -/
def execSsum (c : ClerkId) (d r : Reg4) (s : State) : Host.Outcome State Fault Refusal :=
  .next (s.clerkInsn c.val (.ssum c d r))
/-- SMAXR (R150): Finds the maximum lane of a sheet. -/
def execSmaxr (c : ClerkId) (d r : Reg4) (s : State) : Host.Outcome State Fault Refusal :=
  .next (s.clerkInsn c.val (.smaxr c d r))
/-- SMINR (R150): Finds the minimum lane of a sheet. -/
def execSminr (c : ClerkId) (d r : Reg4) (s : State) : Host.Outcome State Fault Refusal :=
  .next (s.clerkInsn c.val (.sminr c d r))
/-- SBCAST (R151): Broadcasts a word to every lane. -/
def execSbcast (c : ClerkId) (d r : Reg4) (s : State) : Host.Outcome State Fault Refusal :=
  .next (s.clerkInsn c.val (.sbcast c d r))
/-- SROT (R151): Rotates the lanes of a sheet. -/
def execSrot (c : ClerkId) (d : Reg4) (n : Fin 8) (s : State) : Host.Outcome State Fault Refusal :=
  .next (s.clerkInsn c.val (.srot c d n))
/-- SCMOV (R151): Moves lanes conditionally. -/
def execScmov (c : ClerkId) (d r q : Reg4) (s : State) : Host.Outcome State Fault Refusal :=
  .next (s.clerkInsn c.val (.scmov c d r q))
/-- SGET (R151): Extracts one lane into a W register. -/
def execSget (c : ClerkId) (d r : Reg4) (l : Fin 8) (s : State) : Host.Outcome State Fault Refusal :=
  .next (s.clerkInsn c.val (.sget c d r l))
/-- SPUT (R151): Inserts a W register into one lane. -/
def execSput (c : ClerkId) (d r : Reg4) (l : Fin 8) (s : State) : Host.Outcome State Fault Refusal :=
  .next (s.clerkInsn c.val (.sput c d r l))
/-- SPERM (R151): Permutes lanes by an index sheet. -/
def execSperm (c : ClerkId) (d r p : Reg4) (s : State) : Host.Outcome State Fault Refusal :=
  .next (s.clerkInsn c.val (.sperm c d r p))

end Sys2Proof.Machine
end

