-- ==== Sys2Proof/Machine/ExecPipeline.lean ====
section
/-!
DEFINITION. The meanings of the commands: pipeline events of a clerk (spec 03). Each is one call of the operation that its rule describes.
-/
namespace Sys2Proof.Machine

/-- MODE_CHANGE_EFFECT (R76): A pending mode change takes effect after its 3-instruction shadow, squashing younger
instructions and flushing predictors. -/
def execModeChangeEffect (at_ : SquashAt) (s : State) : Host.Outcome State Fault Refusal :=
  .next (s.modeChangeEffect at_.clerk.val at_.squashed.val)
/-- BRANCH_MISPREDICTION (R70): A branch resolved at EX against its prediction squashes the wrong path and refetches. -/
def execBranchMisprediction (c : ClerkId) (path : WrongPath) (s : State) : Host.Outcome State Fault Refusal :=
  .next (s.mispredicted c.val path.squashed.val path.stalls.val path.loads.val)
/-- WINDOW_LOAD_RETURN (R71): Data of a window load returns to the read buffer and clears the scoreboard. -/
def execWindowLoadReturn (c : ClerkId) (n : Fin 8) (bad : Bool × Bool) (s : State) : Host.Outcome State Fault Refusal :=
  .next ((s.windowReturn c.val n.val bad.1 bad.2).after)
/-- CODE_WRITE_QUEUE_WRITE (R81): The oldest code-write queue entry is written to the code store as a line read-modify-write.
-/
def execCodeWriteQueueWrite (c : ClerkId) (s : State) : Host.Outcome State Fault Refusal :=
  .next (s.codeQueueWrite c.val)
/-- TOKEN_ARRIVAL (R59): On each reference period, the issue limiter adds the level's tokens to its bucket. -/
def execTokenArrival (c : ClerkId) (s : State) : Host.Outcome State Fault Refusal :=
  .next ((s.tokenArrival c.val).after)
/-- PCNT_CTL_CLRALL (R86): Clears counters 0 to 7 and PCNT_OVF. -/
def execPcntCtlClrall (c : ClerkId) (s : State) : Host.Outcome State Fault Refusal :=
  .next (s.rowWrite c.val 0xC0 (s.reg (Reg.PCNT_CTL c.val) ||| 0x4000))
/-- CODE_STORE_LINE_READ (R65): A code store line read for a fetch miss, prefetch or GETI completes, delivering a corrected
line, or raising FETCH and CODESTORE on an uncorrectable one. -/
def execCodeStoreLineRead (c : ClerkId) (line : Nat) (how : LineRead) (s : State) : Host.Outcome State Fault Refusal :=
  .next (s.lineRead c.val line how)
/-- GLOBAL_PORT_READ_REPLY (R263): The REPLY parcel of a global port read arrives and delivers its value, or 0000h with ERR,
to the waiting clerk or host TLP. -/
def execGlobalPortReadReply (who : Requester) (err : Bool) (s : State) : Host.Outcome State Fault Refusal :=
  .next ((if who.val < 130 then s.portReplied who.val err else s.hostReplied err).after)

end Sys2Proof.Machine
end

