-- ==== Sys2Proof/Machine/ExecAxis.lean ====
section
/-!
DEFINITION. The meanings of the commands: axes (spec 02). Each is one call of the operation that its rule describes.
-/
namespace Sys2Proof.Machine

/-- ENCODER_TRANSITION (R27): A valid A/B transition counts +1 or -1 and updates TPRED, state and interpolation. -/
def execEncoderTransition (enc : Fin 12) (a b : Bool) (hold : Nat) (s : State) : Host.Outcome State Fault Refusal :=
  .next (s.encoderEvent enc.val a b hold)
/-- INDEX_EDGE (R40): A rising ENCn_Z latches, checks or corrects the position per ZMODE. -/
def execIndexEdge (enc : Fin 12) (hold : Nat) (s : State) : Host.Outcome State Fault Refusal :=
  .next (s.indexEvent enc.val hold)
/-- MAINS_ZERO_CROSS (R30): A counted zero-cross advances the cycle, extends or restarts the run, and may enter TRACK or LOST.
-/
def execMainsZeroCross (m : Fin 6) (falling : Bool) (s : State) : Host.Outcome State Fault Refusal :=
  .next (s.whileLive fun t => t.zeroCross m.val falling)
/-- LATE_TIMEOUT (R34): No edge by the late limit in TRACK raises a LATE deviation. -/
def execLateTimeout (n : AxisId) (s : State) : Host.Outcome State Fault Refusal :=
  .next (s.whileLive fun t => t.lateTimeout n.val)
/-- STOP_TIMEOUT (R33): No encoder edge within the timeout puts the axis in STOPPED. -/
def execStopTimeout (n : AxisId) (s : State) : Host.Outcome State Fault Refusal :=
  .next (s.whileLive fun t => t.stopTimeout n.val)
/-- MAINS_LOST_TIMEOUT (R30): No zero-cross within 1.5 x TPRED puts the mains axis in LOST. -/
def execMainsLostTimeout (n : AxisId) (s : State) : Host.Outcome State Fault Refusal :=
  .next (s.whileLive fun t => t.mainsTimeout n.val)
/-- AXN_CFG_WRITE (R54): An accepted write reconfigures the source, enters ACQUIRE, raises RECONFIG and increments AX_BEPOCH;
a refused one sets CFGERR. -/
def execAxnCfgWrite (who : Requester) (n : AxisId) (v : Word) (s : State) : Host.Outcome State Fault Refusal :=
  .next (s.rowWrite who.val (Reg.AX_CFG n.val) v)
/-- AXN_SET_WRITE (R38): A write of SETH replaces the master position and raises a SET deviation. -/
def execAxnSetWrite (who : Requester) (n : AxisId) (seth : Word) (s : State) : Host.Outcome State Fault Refusal :=
  .next (s.rowWrite who.val (Reg.AX_SETH n.val) seth)
/-- FORCE_DEV (R34): AXn_CTRL.FORCE_DEV raises a FORCED deviation. -/
def execForceDev (who : Requester) (n : AxisId) (s : State) : Host.Outcome State Fault Refusal :=
  .next (s.rowWrite who.val (Reg.AX_CTRL n.val) 0x8000)
/-- AXN_CTRL_CLRCNT (R53): Clears DEVCNT and EDGEERR. -/
def execAxnCtrlClrcnt (who : Requester) (n : AxisId) (s : State) : Host.Outcome State Fault Refusal :=
  .next (s.rowWrite who.val (Reg.AX_CTRL n.val) 0x4000)
/-- AX_BCAST_WRITE (R55): A run-time write of AX_BCAST_CFG or AX_BCAST_MASK changes broadcast and increments AX_BEPOCH. -/
def execAxBcastWrite (who : Requester) (mask : Bool) (v : Word) (s : State) : Host.Outcome State Fault Refusal :=
  .next (s.rowWrite who.val (if mask then Reg.AX_BCAST_MASK else Reg.AX_BCAST_CFG) v)
/-- BROADCAST_SAMPLE (R46): Every BCAST_INT, samples the axes in the mask and sends one parcel per axis. -/
def execBroadcastSample (s : State) : Host.Outcome State Fault Refusal :=
  .next (s.whileLive fun t => t.broadcastSample)
/-- BROADCAST_APPLY (R47): A replica unit applies a broadcast parcel that is newer and in the agreed epoch, or discards it. -/
def execBroadcastApply (d : DieId) (n : AxisId) (s : State) : Host.Outcome State Fault Refusal :=
  .next (s.whileLive fun t => t.broadcastApply d.val n.val)
/-- REPLICA_STALE (R50): After 4 missed broadcasts the replica becomes STALE. -/
def execReplicaStale (d : DieId) (n : AxisId) (s : State) : Host.Outcome State Fault Refusal :=
  .next (s.whileLive fun t => t.replicaStale d.val n.val)
/-- BEPOCH_ANNOUNCEMENT (R267): A die adopts a new broadcast epoch from a REPLICA announcement and acknowledges. -/
def execBepochAnnouncement (d : DieId) (s : State) : Host.Outcome State Fault Refusal :=
  .next (s.whileLive fun t => t.bepochAnnouncement d.val)
/-- BEPOCH_ACK_TIMEOUT (R267): 200 µs after an announcement, broadcast resumes and dies that did not acknowledge are declared
out. -/
def execBepochAckTimeout (s : State) : Host.Outcome State Fault Refusal :=
  .next ((s.whileLive fun t => t.bepochAckTimeout).after)

end Sys2Proof.Machine
end

