-- ==== Sys2Proof/Machine/ExecEpoch.lean ====
section
/-!
DEFINITION. The meanings of the commands: epochs: the instructions, the table, settle and recall (spec 05, 06). Each is one call of the operation that its rule describes.
-/
namespace Sys2Proof.Machine

/-- EOPEN (R169): Opens an ordinary epoch after the refusal checks, takes the checkpoint and sends a registration. -/
def execEopen (c : ClerkId) (d r : Reg4) (s : State) : Host.Outcome State Fault Refusal :=
  .next (s.clerkInsn c.val (.eopen c d r))
/-- POST (R158): Pushes one outbox entry tagged with an epoch, or committed. -/
def execPost (c : ClerkId) (r : Reg4) (s : State) : Host.Outcome State Fault Refusal :=
  .next (s.clerkInsn c.val (.post c r))
/-- RECALL (R187): Requests the recall of an epoch of this clerk and waits for the answer from DISPATCH. -/
def execRecall (c : ClerkId) (r : Reg4) (s : State) : Host.Outcome State Fault Refusal :=
  .next (s.clerkInsn c.val (.recall c r))
/-- EPOCH_REGISTRATION (R172): DISPATCH checks an arriving registration and recalls, settles or holds the epoch. -/
def execEpochRegistration (c : Fin 128) (s : State) : Host.Outcome State Fault Refusal :=
  .next (s.epochRegistration c.val)
/-- LINEAGE_REGISTRATION (R182): DISPATCH registers a lineage epoch, recalling it if its parent is recalled or unknown. -/
def execLineageRegistration (c : Fin 128) (s : State) : Host.Outcome State Fault Refusal :=
  .next (s.lineageRegistration c.val)
/-- EPOCH_SETTLE (R183): DISPATCH decides a settle when the mark is due or the last older epoch or parent settles, and commits
the epoch's entries. -/
def execEpochSettle (c : Fin 128) (slot : Fin 4) (s : State) : Host.Outcome State Fault Refusal :=
  .next (s.epochSettle c.val slot.val)
/-- RECALL_DECISION (R193): DISPATCH decides the recalled set, with LINEAGE and NEST, and revokes entries not yet due. -/
def execRecallDecision (s : State) : Host.Outcome State Fault Refusal :=
  .next ((s.recallDecision).retryFlight)
/-- EPOCH_RECALL (R186): A write of a tag recalls that epoch with cause HOST. -/
def execEpochRecall (who : Requester) (tag : Word) (s : State) : Host.Outcome State Fault Refusal :=
  .next ((s.rowWrite who.val Reg.EPOCH_RECALL tag).retryFlight)
/-- EPOCH_CTL_CLRCNT (R196): Clears the epoch table counters. -/
def execEpochCtlClrcnt (who : Requester) (s : State) : Host.Outcome State Fault Refusal :=
  .next (s.rowWrite who.val Reg.EPOCH_CTL 0x8000)
/-- SETTLE_PARCEL_MBE (R185): A mailbag engine turns the epoch's drafts ordinary and discards its retained copies. -/
def execSettleParcelMbe (d : DieId) (s : State) : Host.Outcome State Fault Refusal :=
  .next ((s.settleParcelMbe d.val).retryPush)
/-- RECALL_PARCEL_MBE (R193): A mailbag engine removes the set's drafts, returns retained pops and acknowledges. -/
def execRecallParcelMbe (d : DieId) (s : State) : Host.Outcome State Fault Refusal :=
  .next ((s.recallParcelMbe d.val).retryPush)
/-- CLERK_SETTLE (R185): The clerk frees the journal entries and slot and starts the held writes. -/
def execClerkSettle (c : Fin 128) (s : State) : Host.Outcome State Fault Refusal :=
  .next ((s.settleReaches c.val).after)
/-- CLERK_RECALL (R189): The clerk squashes, writes back the journal, discards held writes, loads the checkpoint and restarts.
-/
def execClerkRecall (c : Fin 128) (s : State) : Host.Outcome State Fault Refusal :=
  .next (s.recallArrives c.val)
/-- DRAFT_POP (R180): A pop of a draft joins an epoch or opens a lineage epoch. -/
def execDraftPop (c : ClerkId) (slot : Fin 64) (d : Reg4) (s : State) : Host.Outcome State Fault Refusal :=
  .next ((s.clerkInsn c.val (.draftPop c slot d)).retryPush)
/-- JOURNAL_WAIT_END (R174): A write waiting for journal room proceeds once entries free. -/
def execJournalWaitEnd (c : ClerkId) (s : State) : Host.Outcome State Fault Refusal :=
  .next ((s.journalWaitEnd c.val).after)
/-- HELD_WRITE_PERFORMED (R175): A held write of a settled epoch is performed as a posted write. -/
def execHeldWritePerformed (c : ClerkId) (s : State) : Host.Outcome State Fault Refusal :=
  .next ((s.heldPerformed c.val).after)
/-- EP_CTL_CLRCNT (R195): Clears EP_OPENCNT and EP_RECALLCNT. -/
def execEpCtlClrcnt (c : ClerkId) (s : State) : Host.Outcome State Fault Refusal :=
  .next (s.rowWrite c.val 0xE3 0x8000)
/-- EP_REFUSE_NEW_CLEAR (R195): W1C of EP_REFUSE.NEW. -/
def execEpRefuseNewClear (c : ClerkId) (s : State) : Host.Outcome State Fault Refusal :=
  .next (s.rowWrite c.val 0xE1 0x8000)

end Sys2Proof.Machine
end

