-- ==== Sys2Proof/Machine/ExecMailbag.lean ====
section
/-!
DEFINITION. The meanings of the commands: mailbags (spec 07). Each is one call of the operation that its rule describes.
-/
namespace Sys2Proof.Machine

/-- MAILBAG_PUSH (R203): A sheet enters a mailbag from a slot, MB_DATA, region, outbox or other source, or is dropped or
waits. -/
def execMailbagPush (box : Fin 1024) (flips : Fin 3) (s : State) : Host.Outcome State Fault Refusal :=
  .next ((s.pushArrives box.val flips.val).retryFlight)
/-- SLOT_POP (R206): An INS on a POP slot delivers the oldest poppable sheet or waits. -/
def execSlotPop (c : ClerkId) (slot : Fin 64) (d : Reg4) (s : State) : Host.Outcome State Fault Refusal :=
  .next ((s.clerkInsn c.val (.slotPop c slot d)).retryPush)
/-- POP_WAIT_END (R207): A waiting pop ends when a sheet becomes available. -/
def execPopWaitEnd (c : ClerkId) (s : State) : Host.Outcome State Fault Refusal :=
  .next ((s.popWaitEnd c.val).after)
/-- MB_DATA0_READ (R208): A global read of MB_DATA0 pops one sheet and latches lanes 1 to 7. -/
def execMbData0Read (who : Requester) (box : Fin 1024) (s : State) : Host.Outcome State Fault Refusal :=
  .next ((s.rowRead who.val (Reg.MB_DATA box.val 0)).retryPush)
/-- MB_CTL_FLUSH (R220): Discards every ordinary visible sheet of the mailbag. -/
def execMbCtlFlush (who : Requester) (box : Fin 1024) (s : State) : Host.Outcome State Fault Refusal :=
  .next ((s.rowWrite who.val (Reg.MB_CTL box.val) 0x8000).retryPush)
/-- MB_CTL_CLRCNT (R220): Clears the mailbag counters and resets the high-water mark. -/
def execMbCtlClrcnt (who : Requester) (box : Fin 1024) (s : State) : Host.Outcome State Fault Refusal :=
  .next (s.rowWrite who.val (Reg.MB_CTL box.val) 0x4000)
/-- SPILL_BLOCK_WRITE (R200): Three tail sheets are written to the spill as one block once postage and DDR5 allow. -/
def execSpillBlockWrite (box : Fin 1024) (s : State) : Host.Outcome State Fault Refusal :=
  .next ((s.unlessSaving fun t => t.spillWrite box.val).retryPush)
/-- SPILL_BLOCK_READ (R211): The oldest spill block is read into the head and checked. -/
def execSpillBlockRead (box : Fin 1024) (s : State) : Host.Outcome State Fault Refusal :=
  .next (s.unlessSaving fun t => t.spillRead box.val)
/-- ARRIVAL_BUFFER_DRAIN (R204): A parcel waiting in the arrival buffer enters its mailbag and credits return. -/
def execArrivalBufferDrain (d : DieId) (s : State) : Host.Outcome State Fault Refusal :=
  .next ((s.drainArrivals d.val).retryPush)
/-- MBE_STAT_CLEAR (R221): W1C of the engine status bits. -/
def execMbeStatClear (c : ClerkId) (v : Word) (s : State) : Host.Outcome State Fault Refusal :=
  .next (s.rowWrite c.val 0x1300 v)

end Sys2Proof.Machine
end

