-- ==== Sys2Proof/Machine/ExecIntake.lean ====
section
/-!
DEFINITION. The meanings of the commands: camera intake (spec 08). Each is one call of the operation that its rule describes.
-/
namespace Sys2Proof.Machine

/-- CONNECTION_LOSS (R226): Loss of lock or characters puts the connection DOWN and the camera LOST, aborts the frame, and
schedules rediscovery. -/
def execConnectionLoss (die : Fin 2) (cx : Fin 20) (s : State) : Host.Outcome State Fault Refusal :=
  .next (s.whileLive fun t => t.connectionLoss die.val cx.val)
/-- DISCOVERY_STEP (R225): Completion of a discovery step, toward READY or a retry. -/
def execDiscoveryStep (die : Fin 2) (k : Fin 16) (locked : BitVec 8) (ids : List (Fin 8)) (speed : Fin 7) (ok : Bool) (s : State) : Host.Outcome State Fault Refusal :=
  .next (s.whileLive fun t => t.discoveryStep die.val k.val locked.toNat (ids.map fun x => x.val) speed.val ok)
/-- DISCOVERY_RETRY (R225): Every 100 ms a camera in DISCOVER repeats from step 1. -/
def execDiscoveryRetry (die : Fin 2) (k : Fin 16) (s : State) : Host.Outcome State Fault Refusal :=
  .next (s.whileLive fun t => t.discoveryRetry die.val k.val)
/-- REDISCOVERY_DELAY (R226): After RDLY x 100 ms a lost camera starts discovery again. -/
def execRediscoveryDelay (die : Fin 2) (k : Fin 16) (s : State) : Host.Outcome State Fault Refusal :=
  .next (s.whileLive fun t => t.rediscovery die.val k.val)
/-- CAM_CTL_RETRY (R227): Moves a MISWIRED or FAULT camera to DISCOVER. -/
def execCamCtlRetry (who : Requester) (die : Fin 2) (k : Fin 16) (s : State) : Host.Outcome State Fault Refusal :=
  .next (s.rowWrite who.val (Reg.CAM_CTL die.val k.val) 0x8000)
/-- CAM_CTL_CLRCNT (R246): Clears the camera counters. -/
def execCamCtlClrcnt (who : Requester) (die : Fin 2) (k : Fin 16) (s : State) : Host.Outcome State Fault Refusal :=
  .next (s.rowWrite who.val (Reg.CAM_CTL die.val k.val) 0x4000)
/-- CAM_CFG_WRITE (R237): Enables or disables a camera, checking the wiring and line buffer share. -/
def execCamCfgWrite (who : Requester) (die : Fin 2) (k : Fin 16) (v : Word) (s : State) : Host.Outcome State Fault Refusal :=
  .next (s.rowWrite who.val (Reg.CAM_CFG die.val k.val) v)
/-- CC_CMD_GO (R229): Sends a tagged control-channel read or write to the camera. -/
def execCcCmdGo (who : Requester) (die : Fin 2) (v : Word) (s : State) : Host.Outcome State Fault Refusal :=
  .next (s.rowWrite who.val (Reg.CC_CMD die.val) (v ||| 0x8000))
/-- CC_REPLY (R229): A control reply ends the command, or is discarded by tag. -/
def execCcReply (die : Fin 2) (tag : Fin 256) (r : CcReplyKind) (s : State) : Host.Outcome State Fault Refusal :=
  .next (s.whileLive fun t => t.ccReply die.val tag.val r)
/-- CC_TIMEOUT (R229): CC_TOUT ms pass without a reply and the command ends with TIMEOUT. -/
def execCcTimeout (die : Fin 2) (s : State) : Host.Outcome State Fault Refusal :=
  .next (s.whileLive fun t => t.ccTimeout die.val)
/-- EVENT_PACKET (R231): A camera event packet becomes one sheet in the event mailbag, or is dropped. -/
def execEventPacket (die : Fin 2) (k : Fin 16) (crcOk : Bool) (id : Word) (data : List (BitVec 8)) (s : State) : Host.Outcome State Fault Refusal :=
  .next (s.whileLive fun t => t.eventPacket die.val k.val crcOk id data)
/-- STREAM_PACKET (R232): A stream packet is reassembled, checked and placed in the line buffer. -/
def execStreamPacket (die : Fin 2) (cx : Fin 20) (crcOk : Bool) (tag : Fin 256) (sid : Fin 256) (part : StreamPart) (s : State) : Host.Outcome State Fault Refusal :=
  .next (s.whileLive fun t => t.streamPacket die.val cx.val crcOk tag.val sid.val part)
/-- LINE_FRANKED (R235): A completed line is franked and sent to its regions as header and data sheets. -/
def execLineFranked (die : Fin 2) (k : Fin 16) (bad : List Nat) (s : State) : Host.Outcome State Fault Refusal :=
  .next (s.whileLive fun t => t.lineFranked die.val k.val bad)
/-- FRAME_END (R244): After a frame's last line the descriptor is written, followed by FEND and FSDONE. -/
def execFrameEnd (die : Fin 2) (k : Fin 16) (s : State) : Host.Outcome State Fault Refusal :=
  .next (s.whileLive fun t => t.frameEndJob die.val k.val)
/-- INT_CSDATA_ACCESS (R233): Reads or writes a correction-store word and increments the address. -/
def execIntCsdataAccess (who : Requester) (die : Fin 2) (wr : Option Word) (s : State) : Host.Outcome State Fault Refusal :=
  .next (s.rowAccess who.val (Reg.INT_CSDATA die.val) wr)
/-- INT_CTL_CLRCNT (R246): Clears the intake die counters. -/
def execIntCtlClrcnt (who : Requester) (die : Fin 2) (s : State) : Host.Outcome State Fault Refusal :=
  .next (s.rowWrite who.val (Reg.INT_CTL die.val) 0x8000)
/-- CX_CTL_CLRCNT (R246): Clears a connection's counters. -/
def execCxCtlClrcnt (who : Requester) (die : Fin 2) (cx : Fin 20) (s : State) : Host.Outcome State Fault Refusal :=
  .next (s.rowWrite who.val (Reg.CX_CTL die.val cx.val) 0x8000)
/-- RG_W_WRITE (R242): Applies RG_X0 and RG_W at the next output-line boundary. -/
def execRgWWrite (who : Requester) (die : Fin 2) (g : Fin 64) (w : Word) (s : State) : Host.Outcome State Fault Refusal :=
  .next (s.rowWrite who.val (Reg.RG_W die.val g.val) w)
/-- CONNECTION_REGAINS_SIGNAL (R226): A CoaXPress connection gains signal, starting discovery from ABSENT or resetting the
link of a camera in READY. -/
def execConnectionRegainsSignal (die : Fin 2) (cx : Fin 20) (s : State) : Host.Outcome State Fault Refusal :=
  .next (s.whileLive fun t => t.connectionSignal die.val cx.val)

end Sys2Proof.Machine
end

