-- ==== Sys2Proof/Machine/ExecFabric.lean ====
section
/-!
DEFINITION. The meanings of the commands: fabric and crossings (spec 09). Each is one call of the operation that its rule describes.
-/
namespace Sys2Proof.Machine

/-- LINK_FRAME_RECEIVE (R258): A receiver accepts an in-order good frame, or discards it and NAKs, or discards a duplicate. -/
def execLinkFrameReceive (l : Fin 19) (fromA : Bool) (lseq : Fin 256) (crcOk : Bool) (s : State) : Host.Outcome State Fault Refusal :=
  .next ((s.whileLive fun t => t.linkFrame l.val fromA lseq.val crcOk).retryFlight)
/-- NAK_REPLAY (R258): On a NAK the sender replays frames from the named LSEQ. -/
def execNakReplay (l : Fin 19) (fromA : Bool) (s : State) : Host.Outcome State Fault Refusal :=
  .next ((s.whileLive fun t => t.nakReplay l.val fromA).retryFlight)
/-- ACK_TIMEOUT (R259): No acknowledgement advance for 2 µs triggers a retrain. -/
def execAckTimeout (l : Fin 19) (fromA : Bool) (s : State) : Host.Outcome State Fault Refusal :=
  .next ((s.whileLive fun t => t.ackTimeout l.val fromA).retryFlight)
/-- RETRAIN_COMPLETE (R259): A retrain ends, returning the link to UP or, after three failures, DOWN. -/
def execRetrainComplete (l : Fin 19) (ok : Bool) (s : State) : Host.Outcome State Fault Refusal :=
  .next ((s.whileLive fun t => t.retrainComplete l.val ok).after.retryFlight)
/-- FL_CTL_RETRAIN (R259): Retrains a link. -/
def execFlCtlRetrain (who : Requester) (l : Fin 19) (s : State) : Host.Outcome State Fault Refusal :=
  .next ((s.rowWrite who.val (Reg.FL_CTL l.val) 0x8000).retryFlight)
/-- FL_CTL_UNFAULT (R259): Moves a FAULT link to TRAIN. -/
def execFlCtlUnfault (who : Requester) (l : Fin 19) (s : State) : Host.Outcome State Fault Refusal :=
  .next (s.rowWrite who.val (Reg.FL_CTL l.val) 0x2000)
/-- FL_CTL_CLRCNT (R274): Clears the link counters. -/
def execFlCtlClrcnt (who : Requester) (l : Fin 19) (s : State) : Host.Outcome State Fault Refusal :=
  .next (s.rowWrite who.val (Reg.FL_CTL l.val) 0x4000)
/-- FD_CTL_CLRCNT (R274): Clears the die page counters. -/
def execFdCtlClrcnt (who : Requester) (d : DieId) (s : State) : Host.Outcome State Fault Refusal :=
  .next (s.rowWrite who.val (Reg.FD_CTL d.val) 0x8000)
/-- UNDELIVERABLE_PARCEL (R262): A router drops an undeliverable parcel as a dead letter, with an error reply to a read. -/
def execUndeliverableParcel (d : DieId) (post ctl : Word) (lanes : Sheet) (s : State) : Host.Outcome State Fault Refusal :=
  .next ((s.whileLive fun t => t.parcelUndeliverable d.val post ctl lanes).retryFlight)
/-- BRING_UP_EXCHANGE (R264): LINK parcels are exchanged and judged on a link. -/
def execBringUpExchange (l : Fin 19) (s : State) : Host.Outcome State Fault Refusal :=
  .next ((s.whileLive fun t => t.bringUpExchange l.val).after)
/-- EXCHANGE_RETRY (R266): A transient mismatch is exchanged again after 10 µs, up to 3 times. -/
def execExchangeRetry (l : Fin 19) (s : State) : Host.Outcome State Fault Refusal :=
  .next ((s.whileLive fun t => t.exchangeRetry l.val).after)
/-- LINK_DOWN_DECLARATION (R261): HUB declares a die out within 10 µs of losing the required links. -/
def execLinkDownDeclaration (d : DieId) (s : State) : Host.Outcome State Fault Refusal :=
  .next ((s.whileLive fun t => t.linkDown d.val).after.retryFlight)
/-- CROSSING_TRANSFER (R269): A value crosses a crossing by the REQ and ACK handshake. -/
def execCrossingTransfer (d : DieId) (n : Fin 32) (kind : CrossKind) (offer : Option Word) (s : State) : Host.Outcome State Fault Refusal :=
  .next (s.whileLive fun t => t.crossingTransfer d.val n.val kind offer)
/-- CROSSING_RESET (R272): A reset on one side of a crossing discards in-flight values and resynchronises. -/
def execCrossingReset (d : DieId) (n : Fin 32) (s : State) : Host.Outcome State Fault Refusal :=
  .next (s.whileLive fun t => t.crossingCycle d.val n.val)
/-- MODE_ACKNOWLEDGE (R19): A die's MODE acknowledge parcel reaches HUB, and the last one ends the transition, clearing TRANS
and raising the MODE event. -/
def execModeAcknowledge (d : DieId) (s : State) : Host.Outcome State Fault Refusal :=
  .next (s.whileLive fun t => t.modeAcknowledge d.val)

end Sys2Proof.Machine
end

