-- ==== Sys2Proof/Machine/ExecDispatch.lean ====
section
/-!
DEFINITION. The meanings of the commands: outbox and firing (spec 10). Each is one call of the operation that its rule describes.
-/
namespace Sys2Proof.Machine

/-- OUTBOX_ARRIVAL (R276): An arriving entry is checked and stored, spilled, discarded or dropped. -/
def execOutboxArrival (s : State) : Host.Outcome State Fault Refusal :=
  .next (s.outboxArrives)
/-- OB_PUSH7_WRITE (R297): Pushes a committed entry staged through OB_PUSH0 to OB_PUSH7. -/
def execObPush7Write (who : Requester) (v : Word) (s : State) : Host.Outcome State Fault Refusal :=
  .next (s.rowWrite who.val (Reg.OB_PUSH 7) v)
/-- OUTBOX_TICK (R278): Every 5 ns tick, releases due heads and drops stale ones. -/
def execOutboxTick (s : State) : Host.Outcome State Fault Refusal :=
  .next (s.outboxTick)
/-- OB_PURGE (R297): Removes every entry on an axis. -/
def execObPurge (who : Requester) (axis : AxisId) (s : State) : Host.Outcome State Fault Refusal :=
  .next (s.rowWrite who.val Reg.OB_PURGE (word (0x8000 + axis.val)))
/-- OB_CTL_CLRCNT (R297): Clears the outbox counters and resets OB_HWMARK. -/
def execObCtlClrcnt (who : Requester) (s : State) : Host.Outcome State Fault Refusal :=
  .next (s.rowWrite who.val Reg.OB_CTL 0x8000)
/-- OB_SPILL_BUFFER_TIMEOUT (R283): The spill write buffer is written 1 µs after its first entry. -/
def execObSpillBufferTimeout (s : State) : Host.Outcome State Fault Refusal :=
  .next (s.whileLive fun t => t.obBufferTimeout)
/-- OB_SPILL_READ (R284): A spill block returns and its entries are judged and placed in their lists. -/
def execObSpillRead (bad : Bool) (s : State) : Host.Outcome State Fault Refusal :=
  .next (s.whileLive fun t => t.obSpillRead bad)
/-- SAFE_INPUT_FALL (R290): A safe input low forces firing pads safe and gives channels the cause SAFEIN. -/
def execSafeInputFall (b : Bool × Nat) (s : State) : Host.Outcome State Fault Refusal :=
  .next (s.filtered b State.safeFall)
/-- SAFE_INPUT_RISE (R291): A safe input rise is counted when the inputs come to differ. -/
def execSafeInputRise (b : Bool × Nat) (s : State) : Host.Outcome State Fault Refusal :=
  .next (s.filtered b State.safeRise)
/-- DISCREPANCY_TIMEOUT (R292): Inputs differing longer than FE_DISCT set DISCREP. -/
def execDiscrepancyTimeout (s : State) : Host.Outcome State Fault Refusal :=
  .next (s.whileLive fun t => t.discrepTimeout)
/-- FE_CTL_REARM (R291): Clears the SAFEIN, DIEOUT and SERVICE causes whose conditions have ended. -/
def execFeCtlRearm (who : Requester) (s : State) : Host.Outcome State Fault Refusal :=
  .next (s.rowWrite who.val Reg.FE_CTL 0x8000)
/-- FE_CTL_CLRCNT (R298): Clears FE_SAFECNT and every CH_APPLIED and CH_SUPP. -/
def execFeCtlClrcnt (who : Requester) (s : State) : Host.Outcome State Fault Refusal :=
  .next (s.rowWrite who.val Reg.FE_CTL 0x4000)
/-- REFRESH_ROUND_BOUNDARY (R293): A refresh round boundary may put channels in SAFE with cause REFRESH. -/
def execRefreshRoundBoundary (s : State) : Host.Outcome State Fault Refusal :=
  .next (s.whileLive fun t => t.refreshBoundary)
/-- PWM_PERIOD_START (R288): A PWM channel starts a period and applies its duty. -/
def execPwmPeriodStart (ch : Fin 64) (s : State) : Host.Outcome State Fault Refusal :=
  .next (s.whileLive fun t => t.pwmStart ch.val)
/-- PWM_ACTIVE_END (R287): The active time of a PWM period ends. -/
def execPwmActiveEnd (ch : Fin 64) (s : State) : Host.Outcome State Fault Refusal :=
  .next (s.whileLive fun t => t.endActive ch.val 3)
/-- BURST_DECISION (R287): At the unit start minus LEAD, a BURST channel decides conduction by sigma-delta. -/
def execBurstDecision (ch : Fin 64) (s : State) : Host.Outcome State Fault Refusal :=
  .next (s.whileLive fun t => t.burstDecide ch.val)
/-- PHASE_TURN_ON (R287): A PHASE channel turns on at start plus delay. -/
def execPhaseTurnOn (ch : Fin 64) (s : State) : Host.Outcome State Fault Refusal :=
  .next (s.whileLive fun t => t.phaseOn ch.val)
/-- PHASE_GATE_END (R287): A PHASE gate ends after its width or LEAD before the next start. -/
def execPhaseGateEnd (ch : Fin 64) (s : State) : Host.Outcome State Fault Refusal :=
  .next (s.whileLive fun t => t.phaseOff ch.val)
/-- PULSE_END (R287): A PULSE output ends after its width. -/
def execPulseEnd (ch : Fin 64) (s : State) : Host.Outcome State Fault Refusal :=
  .next (s.whileLive fun t => t.endActive ch.val 4)
/-- CH_CFG_WRITE (R289): Configures or enables a channel, or is refused with CFGERR. -/
def execChCfgWrite (who : Requester) (ch : Fin 64) (v : Word) (s : State) : Host.Outcome State Fault Refusal :=
  .next (s.rowWrite who.val (Reg.CH_CFG ch.val) v)
/-- CH_CTL_CLRCNT (R299): Clears the channel counters. -/
def execChCtlClrcnt (who : Requester) (ch : Fin 64) (s : State) : Host.Outcome State Fault Refusal :=
  .next (s.rowWrite who.val (Reg.CH_CTL ch.val) 0x8000)

end Sys2Proof.Machine
end

