-- ==== Sys2Proof/Machine/ExecZegen.lean ====
section
/-!
DEFINITION. The meanings of the commands: the Zegen line (spec 11). Each is one call of the operation that its rule describes.
-/
namespace Sys2Proof.Machine

/-- ROUND_START (R303): A Zegen round falls due and sends its frame, or is skipped. -/
def execRoundStart (p : Fin 8) (s : State) : Host.Outcome State Fault Refusal :=
  .next (s.unlessPaused fun t => if t.dispatchIsOut then t else t.roundStart p.val)
/-- FRAME_RETURN (R317): A returning frame measures the loop delay and validates each node's answer. -/
def execFrameReturn (p : Fin 8) (hdr : List Word) (loop : Word) (answers : List (Nat × NodeAnswer)) (enrol : Option NodeAnswer) (s : State) : Host.Outcome State Fault Refusal :=
  .next (s.whileLive fun t => t.frameReturn p.val hdr loop answers enrol)
/-- FRAME_LOST (R303): A frame not returned in time is declared lost. -/
def execFrameLost (p : Fin 8) (loop : Option Word) (s : State) : Host.Outcome State Fault Refusal :=
  .next (s.whileLive fun t => t.frameLost p.val loop)
/-- ZP_NCMD_GO (R326): Queues one WRITE or READ to a node. -/
def execZpNcmdGo (who : Requester) (p : Fin 8) (v : Word) (s : State) : Host.Outcome State Fault Refusal :=
  .next (s.rowWrite who.val (Reg.ZP_NCMD p.val) v)
/-- NODE_CTL_RELEASE (R315): Frees an address and forgets its vendor and serial. -/
def execNodeCtlRelease (who : Requester) (p : Fin 8) (a : Fin 63) (s : State) : Host.Outcome State Fault Refusal :=
  .next (s.rowWrite who.val (nodeCtlPort p.val a.val) 0x8000)
/-- NODE_CTL_UNFAULT (R315): Returns a FAULT address to service. -/
def execNodeCtlUnfault (who : Requester) (p : Fin 8) (a : Fin 63) (s : State) : Host.Outcome State Fault Refusal :=
  .next (s.rowWrite who.val (nodeCtlPort p.val a.val) 0x4000)
/-- NODE_CTL_CLRCNT (R326): Clears a node's error count. -/
def execNodeCtlClrcnt (who : Requester) (p : Fin 8) (a : Fin 63) (s : State) : Host.Outcome State Fault Refusal :=
  .next (s.rowWrite who.val (nodeCtlPort p.val a.val) 0x2000)
/-- ZP_CTL_CLRCNT (R326): Clears the port counters. -/
def execZpCtlClrcnt (who : Requester) (p : Fin 8) (s : State) : Host.Outcome State Fault Refusal :=
  .next (s.rowWrite who.val (Reg.ZP_CTL p.val) 0x8000)
/-- ZP_CFG_WRITE (R326): Enables or disables a port, or changes ENROL and FSAFE, with the refusal rules. -/
def execZpCfgWrite (who : Requester) (p : Fin 8) (v : Word) (s : State) : Host.Outcome State Fault Refusal :=
  .next (s.rowWrite who.val (Reg.ZP_CFG p.val) v)

end Sys2Proof.Machine
end

