-- ==== Sys2Proof/Machine/ExecIcu.lean ====
section
/-!
DEFINITION. The meanings of the commands: interrupts (spec 12). Each is one call of the operation that its rule describes.
-/
namespace Sys2Proof.Machine

/-- LOCAL_EVENT (R331): A local ICU source event counts and passes moderation toward PEND. -/
def execLocalEvent (d : DieId) (src : Fin 256) (s : State) : Host.Outcome State Fault Refusal :=
  .next (s.whileLive fun t => t.localEvent d.val src.val)
/-- GLOBAL_EVENT_PARCEL (R330): An ICU parcel delivers global events to a die's ICU source. -/
def execGlobalEventParcel (d : DieId) (g : Fin 128) (s : State) : Host.Outcome State Fault Refusal :=
  .next (s.whileLive fun t => t.globalEvent d.val g.val)
/-- MODERATION_RELEASE (R331): Held events set PEND once MINT and the coalescing limits allow. -/
def execModerationRelease (d : DieId) (src : Fin 256) (s : State) : Host.Outcome State Fault Refusal :=
  .next (s.moderationRelease d.val src.val)
/-- INTERRUPT_ENTRY (R337): The clerk accepts the offer at a retire boundary, pushes the frame and fetches the vector. -/
def execInterruptEntry (at_ : SquashAt) (s : State) : Host.Outcome State Fault Refusal :=
  .next (s.interruptArrives at_.clerk.val at_.squashed.val)
/-- ICU_CTL_CLRCNT (R345): Clears every EVCNT. -/
def execIcuCtlClrcnt (who : Requester) (d : DieId) (s : State) : Host.Outcome State Fault Refusal :=
  .next (s.rowWrite who.val (Reg.ICU_CTL d.val) 0x8000)
/-- ICU_CTL_CLRPEND (R345): Clears every PEND. -/
def execIcuCtlClrpend (who : Requester) (d : DieId) (s : State) : Host.Outcome State Fault Refusal :=
  .next (s.rowWrite who.val (Reg.ICU_CTL d.val) 0x4000)
/-- ICU_RAISE (R346): Raises one event on a source. -/
def execIcuRaise (who : Requester) (d : DieId) (v : Word) (s : State) : Host.Outcome State Fault Refusal :=
  .next (s.rowWrite who.val (Reg.ICU_RAISE d.val) v)
/-- ICU_PEND_CLEAR (R333): W1C of PEND bits, where a simultaneous set wins. -/
def execIcuPendClear (who : Requester) (d : DieId) (j : Fin 16) (v : Word) (s : State) : Host.Outcome State Fault Refusal :=
  .next (s.rowWrite who.val (Reg.ICU_PEND d.val j.val) v)
/-- LIC_DOORBELL (R328): Raises DOORBELL for a clerk of the die. -/
def execLicDoorbell (c : ClerkId) (v : Word) (s : State) : Host.Outcome State Fault Refusal :=
  .next (s.rowWrite c.val 0x25 v)
/-- LIC_ALMH_WRITE (R343): Applies the alarm mark. -/
def execLicAlmhWrite (c : ClerkId) (v : Word) (s : State) : Host.Outcome State Fault Refusal :=
  .next (s.rowWrite c.val 0x23 v)
/-- ALARM_FIRE (R343): An armed alarm fires when AX15 reaches the mark, raising ALARM and clearing ARM. -/
def execAlarmFire (c : ClerkId) (s : State) : Host.Outcome State Fault Refusal :=
  .next (s.alarmFire c.val)

end Sys2Proof.Machine
end

