-- ==== Sys2Proof/Machine/ExecDevice.lean ====
section
/-!
DEFINITION. The meanings of the commands: device modes, GPIO, register writes and MOVE (spec 00, 01, 10, 17). Each is one call of the operation that its rule describes.
-/
namespace Sys2Proof.Machine

/-- MODE_REQ_READY (R16): Requests READY. -/
def execModeReqReady (who : Requester) (s : State) : Host.Outcome State Fault Refusal :=
  .next (s.rowWrite who.val Reg.DEVICE_MODE_REQ 0x8003)
/-- MODE_REQ_RUN (R483): Requests a route start to RUN or DEGRADED. -/
def execModeReqRun (who : Requester) (s : State) : Host.Outcome State Fault Refusal :=
  .next (s.rowWrite who.val Reg.DEVICE_MODE_REQ 0x8004)
/-- MODE_REQ_REPAIR (R465): Requests the repair of a die. -/
def execModeReqRepair (who : Requester) (d : DieId) (s : State) : Host.Outcome State Fault Refusal :=
  .next (s.rowWrite who.val Reg.DEVICE_MODE_REQ (word (0x8006 + 256 * d.val)))
/-- MODE_REQ_SERVICE (R495): Requests SERVICE. -/
def execModeReqService (who : Requester) (s : State) : Host.Outcome State Fault Refusal :=
  .next (s.rowWrite who.val Reg.DEVICE_MODE_REQ 0x8007)
/-- MODE_REQ_DORMANT (R371): Requests sleep entry to DORMANT. -/
def execModeReqDormant (who : Requester) (s : State) : Host.Outcome State Fault Refusal :=
  .next (s.rowWrite who.val Reg.DEVICE_MODE_REQ 0x8002)
/-- MODE_REQ_SEALED (R371): Requests sleep entry to SEALED. -/
def execModeReqSealed (who : Requester) (s : State) : Host.Outcome State Fault Refusal :=
  .next (s.rowWrite who.val Reg.DEVICE_MODE_REQ 0x8001)
/-- MODE_ACK_TIMEOUT (R19): A die not acknowledging a mode change within 200 µs is declared out. -/
def execModeAckTimeout (s : State) : Host.Outcome State Fault Refusal :=
  .next ((s.whileLive fun t => t.modeAckTimeout).after)
/-- DEVICE_DIES_CLEAR (R21): W1C of DEVICE_DIES.OUT_EVER. -/
def execDeviceDiesClear (who : Requester) (v : Word) (s : State) : Host.Outcome State Fault Refusal :=
  .next (s.rowWrite who.val Reg.DEVICE_DIES v)
/-- GPIO_EDGE (R330): An edge on a GPIO input pin held 20 ns raises global event GPIO i toward the ICUs. -/
def execGpioEdge (n : Fin 32) (level : Bool) (ns : Nat) (s : State) : Host.Outcome State Fault Refusal :=
  .next (s.gpioEdge n.val level ns)
/-- HELD_BACK_EVENT_PARCEL (R330): At the next microsecond a block sends the global event parcel held back, with the summed
count in lane 1. -/
def execHeldBackEventParcel (g : Fin 128) (s : State) : Host.Outcome State Fault Refusal :=
  .next (s.whileLive fun t => t.heldBack g.val)
/-- MOVE (R463): Moves a mailbag's ordinary sheets ahead of another's once drafts clear. -/
def execMove (src dst : Fin 1024) (s : State) : Host.Outcome State Fault Refusal :=
  .next ((s.whileLive fun t => t.move src.val dst.val).retryPush)
/-- REGISTER_WRITE (R6): A write to a register with no row of its own, under its access type. -/
def execRegisterWrite (who : Requester) (port : Word) (v : Word) (s : State) : Host.Outcome State Fault Refusal :=
  .next (s.rowWrite who.val port.toNat v)

end Sys2Proof.Machine
end

