-- ==== Sys2Proof/Machine/ExecPower.lean ====
section
/-!
DEFINITION. The meanings of the commands: power domains and levels (spec 13). Each is one call of the operation that its rule describes.
-/
namespace Sys2Proof.Machine

/-- VOTE_RAISE (R357): A vote turns a domain on by U2 to U4, or abandons a drop. -/
def execVoteRaise (dom : Fin 56) (s : State) : Host.Outcome State Fault Refusal :=
  .next ((s.whileLive fun t => t.voteRaise dom.val).wakeWaiters)
/-- VOTE_WITHDRAW (R351): The last vote is withdrawn and the hold-off begins. -/
def execVoteWithdraw (dom : Fin 56) (s : State) : Host.Outcome State Fault Refusal :=
  .next (s.whileLive fun t => t.voteWithdraw dom.val)
/-- HOLDOFF_EXPIRY (R356): The hold-off ends with no vote and the domain quiesces and drops. -/
def execHoldoffExpiry (dom : Fin 56) (s : State) : Host.Outcome State Fault Refusal :=
  .next (s.whileLive fun t => t.holdoffExpiry dom.val)
/-- PWR_PLREQ_GO (R359): Requests a performance level transition, held or refused as applicable. -/
def execPwrPlreqGo (who : Requester) (n : Fin 4) (v : Word) (s : State) : Host.Outcome State Fault Refusal :=
  .next (s.rowWrite who.val (Reg.PWR_PLREQ n.val) (v ||| 0x8000))
/-- VOUT_IN_TOLERANCE (R359): READ_VOUT reaches tolerance and the new cap and level apply. -/
def execVoutInTolerance (n : Fin 4) (vout : Word) (s : State) : Host.Outcome State Fault Refusal :=
  .next (s.whileLive fun t => t.voutInTolerance n.val vout)
/-- PLTOUT_EXPIRY (R360): L4 runs out of time and the transition reverts or completes with PLFAIL. -/
def execPltoutExpiry (n : Fin 4) (failed : Bool) (s : State) : Host.Outcome State Fault Refusal :=
  .next (s.whileLive fun t => t.pltoutExpiry n.val failed)
/-- PMBUS_POLL (R363): Every PWR_POLL ms the host reads the status, voltage and current of each rail. -/
def execPmbusPoll (k : Fin 8) (r : PmbPoll) (s : State) : Host.Outcome State Fault Refusal :=
  .next (s.whileLive fun t => t.pmbusPoll k.val r)
/-- PMB_CTL_CLRF (R362): Sends CLEAR_FAULTS to a rail. -/
def execPmbCtlClrf (who : Requester) (k : Fin 8) (acked : Bool) (s : State) : Host.Outcome State Fault Refusal :=
  .next (s.fromParty who.val (Reg.PMB_CTL k.val) fun t => t.pmbClrf k.val acked)
/-- PMB_CTL_READ (R366): Polls a rail at once. -/
def execPmbCtlRead (who : Requester) (k : Fin 8) (r : PmbPoll) (s : State) : Host.Outcome State Fault Refusal :=
  .next (s.fromParty who.val (Reg.PMB_CTL k.val) fun t => t.pmbRead k.val r)
/-- PWR_CTL_CLRCNT (R366): Clears PWR_PLFAIL and every PMB_ERRk. -/
def execPwrCtlClrcnt (who : Requester) (s : State) : Host.Outcome State Fault Refusal :=
  .next (s.rowWrite who.val Reg.PWR_CTL 0x8000)
/-- AON_BROWNOUT (R365): A load above the low-power limit resets the AON domain and wakes from SEALED. -/
def execAonBrownout (s : State) : Host.Outcome State Fault Refusal :=
  .next (s.brownout)

end Sys2Proof.Machine
end

