-- ==== Sys2Proof/Machine/ExecSleep.lean ====
section
/-!
DEFINITION. The meanings of the commands: sleep and wake (spec 14). Each is one call of the operation that its rule describes.
-/
namespace Sys2Proof.Machine

/-- SLEEP_STEP_COMPLETE (R371): A sleep entry step D1 to D7 completes and the next starts. -/
def execSleepStepComplete (refused : List (Fin 8)) (s : State) : Host.Outcome State Fault Refusal :=
  .next ((s.sleepStep (refused.map fun x => x.val)).after)
/-- D1_TIMEOUT (R372): AON_D1TOUT ends with a clerk not parked, refusing entry. -/
def execD1Timeout (s : State) : Host.Outcome State Fault Refusal :=
  .next (s.d1Timeout)
/-- WAKE_SMBUS (R383): An SMBus WAKE command starts a wake. -/
def execWakeSmbus (s : State) : Host.Outcome State Fault Refusal :=
  .next (s.wakeSmbus)
/-- WAKE_TIMER (R383): The AON timer reaching AON_WTIME starts a wake. -/
def execWakeTimer (s : State) : Host.Outcome State Fault Refusal :=
  .next (s.wakeTimer)
/-- WAKE_GPIO (R383): A GPIO edge held 1 µs starts a wake. -/
def execWakeGpio (n : Fin 32) (s : State) : Host.Outcome State Fault Refusal :=
  .next (s.wakeGpio n.val)
/-- WAKE_ENCODER (R383): ENCTHR transitions on an encoder start a wake. -/
def execWakeEncoder (e : Fin 12) (s : State) : Host.Outcome State Fault Refusal :=
  .next (s.wakeEncoder e.val)
/-- WAKE_STEP_COMPLETE (R386): A wake step W1 to W7 completes and the next starts. -/
def execWakeStepComplete (rails : BitVec 4) (mismatch : List (Fin 128)) (s : State) : Host.Outcome State Fault Refusal :=
  .next ((s.wakeStep rails (mismatch.map fun x => x.val)).after)
/-- AON_CTL_CLRCNT (R388): Clears the AON counters. -/
def execAonCtlClrcnt (who : Requester) (s : State) : Host.Outcome State Fault Refusal :=
  .next (s.rowWrite who.val Reg.AON_CTL 0x8000)
/-- AON_CTL_SYNC (R536): Latches AON_TIME and AX15 together. -/
def execAonCtlSync (who : Requester) (s : State) : Host.Outcome State Fault Refusal :=
  .next (s.rowWrite who.val Reg.AON_CTL 0x4000)
/-- AON_PADHOLD_REL (R382): Releases a held pad bank. -/
def execAonPadholdRel (who : Requester) (v : Word) (s : State) : Host.Outcome State Fault Refusal :=
  .next (s.rowWrite who.val Reg.AON_PADHOLD_REL v)
/-- AON_SRDATA_ACCESS (R388): Reads or writes an AON SRAM word and increments the address. -/
def execAonSrdataAccess (who : Requester) (wr : Option Word) (s : State) : Host.Outcome State Fault Refusal :=
  .next (s.rowAccess who.val Reg.AON_SRDATA wr)
/-- SS_POISON_CLEAR (R380): Clears a poisoned bank to zero and lifts the poison. -/
def execSsPoisonClear (c : Fin 128) (hi : Bool) (v : Word) (s : State) : Host.Outcome State Fault Refusal :=
  .next (s.rowWrite c.val (if hi then 0x1003 else 0x1002) v)

end Sys2Proof.Machine
end

