-- ==== Sys2Proof/Machine/ExecDdr.lean ====
section
/-!
DEFINITION. The meanings of the commands: DDR5 (spec 15). Each is one call of the operation that its rule describes.
-/
namespace Sys2Proof.Machine

/-- DDR_BURST_READ (R400): A burst is read, corrected or reported uncorrectable to its reader. -/
def execDdrBurstRead (burst : Fin 0x200000000) (r : BurstRead) (s : State) : Host.Outcome State Fault Refusal :=
  .next (s.whileLive fun t => t.ddrBurstRead burst.val (readDev r) (readCe r) (readUe r))
/-- PATROL_SCRUB (R402): Scrub reads the next burst with write-back. -/
def execPatrolScrub (ch : Fin 4) (r : BurstRead) (s : State) : Host.Outcome State Fault Refusal :=
  .next (s.whileLive fun t => t.patrolScrub ch.val (readDev r) (readCe r) (readUe r))
/-- SOFT_PPR (R404): A LASTING row is repaired by soft post-package repair. -/
def execSoftPpr (ch : Fin 4) (spare : Bool) (s : State) : Host.Outcome State Fault Refusal :=
  .next (s.whileLive fun t => t.softPpr ch.val spare)
/-- DDR_HPPR (R405): Makes a logged row repair permanent in SERVICE. -/
def execDdrHppr (who : Requester) (v : Word) (s : State) : Host.Outcome State Fault Refusal :=
  .next (s.rowWrite who.val Reg.DDR_HPPR v)
/-- DDR_CHCTL_CLRCNT (R408): Clears the channel counters. -/
def execDdrChctlClrcnt (who : Requester) (ch : Fin 4) (s : State) : Host.Outcome State Fault Refusal :=
  .next (s.rowWrite who.val (Reg.DDR_CHCTL ch.val) 0x8000)
/-- DDR_CTL_CLRCNT (R408): Clears DDR_PROTDROP. -/
def execDdrCtlClrcnt (who : Requester) (s : State) : Host.Outcome State Fault Refusal :=
  .next (s.rowWrite who.val Reg.DDR_CTL 0x8000)
/-- SELF_REFRESH_EXIT (R407): A DDR pair leaves self-refresh and re-centres timing. -/
def execSelfRefreshExit (pair : Fin 2) (s : State) : Host.Outcome State Fault Refusal :=
  .next (s.whileLive fun t => t.selfRefreshExit pair.val)

end Sys2Proof.Machine
end

