-- ==== Sys2Proof/Machine/ExecHost.lean ====
section
/-!
DEFINITION. The meanings of the commands: the host port (spec 16). Each is one call of the operation that its rule describes.
-/
namespace Sys2Proof.Machine

/-- BAR0_TLP (R411): A BAR0 TLP performs port accesses. -/
def execBar0Tlp (dw : Fin 65536) (op : Bar0Op) (s : State) : Host.Outcome State Fault Refusal :=
  .next ((s.whileLive fun t => t.bar0Tlp dw.val op).after)
/-- BAR4_TLP (R413): A BAR4 TLP reads or writes DDR5. -/
def execBar4Tlp (byte : Fin 0x40000000) (op : Bar4Op) (s : State) : Host.Outcome State Fault Refusal :=
  .next (s.whileLive fun t => t.bar4Tlp byte.val op)
/-- BAR2_WRITE (R418): A host write to a pigeonhole request area. -/
def execBar2Write (w : Fin 131072) (ws : List Word) (s : State) : Host.Outcome State Fault Refusal :=
  .next ((s.whileLive fun t => t.bar2Tlp w.val ws).after)
/-- PH_SUBMIT (R421): Submits a pigeonhole command, judged against its tag. -/
def execPhSubmit (p : Fin 64) (s : State) : Host.Outcome State Fault Refusal :=
  .next ((s.whileLive fun t => t.submit p.val).after)
/-- PH_COLLECT (R424): Collects a completion, entering IDLE. -/
def execPhCollect (p : Fin 64) (s : State) : Host.Outcome State Fault Refusal :=
  .next (s.whileLive fun t => t.collect p.val)
/-- PH_OWNER_WRITE (R420): Claims or releases a pigeonhole. -/
def execPhOwnerWrite (who : Requester) (p : Fin 64) (v : Word) (s : State) : Host.Outcome State Fault Refusal :=
  .next (s.rowWrite who.val (Reg.PH_OWNER p.val) v)
/-- HOST_CTL_FORCEREL (R420): Releases a pigeonhole whatever its KEY. -/
def execHostCtlForcerel (who : Requester) (p : Fin 64) (s : State) : Host.Outcome State Fault Refusal :=
  .next (s.rowWrite who.val Reg.HOST_CTL (word (0x4000 + p.val)))
/-- HOST_CTL_CLRCNT (R427): Clears the host counters. -/
def execHostCtlClrcnt (who : Requester) (s : State) : Host.Outcome State Fault Refusal :=
  .next (s.rowWrite who.val Reg.HOST_CTL 0x8000)
/-- HOST_DOORBELL (R427): Stores the value and raises global event HOST. -/
def execHostDoorbell (who : Requester) (v : Word) (s : State) : Host.Outcome State Fault Refusal :=
  .next (s.rowWrite who.val Reg.HOST_DOORBELL v)
/-- HOST_SDONEH_WRITE (R423): Completes a pigeonhole command, or is discarded. -/
def execHostSdonehWrite (who : Requester) (v : Word) (s : State) : Host.Outcome State Fault Refusal :=
  .next (s.rowWrite who.val Reg.HOST_SDONEH v)
/-- HOST_SDATA_ACCESS (R427): Reads or writes a completion sheet word, advancing the index at SDATA7. -/
def execHostSdataAccess (who : Requester) (k : Fin 8) (wr : Option Word) (s : State) : Host.Outcome State Fault Refusal :=
  .next (s.rowAccess who.val (Reg.HOST_SDATA k.val) wr)
/-- PH_TIMEOUT (R423): PH_TOUT ms pass and the command completes with TIMEOUT. -/
def execPhTimeout (p : Fin 64) (s : State) : Host.Outcome State Fault Refusal :=
  .next (s.whileLive fun t => t.phTimeout p.val)
/-- XF_CTL_GO (R416): Starts a transfer channel. -/
def execXfCtlGo (who : Requester) (ch : Fin 32) (s : State) : Host.Outcome State Fault Refusal :=
  .next (s.rowWrite who.val (Reg.XF_CTL ch.val) 0x8000)
/-- XF_CTL_ABORT (R417): Stops a transfer in ERROR with cause ABORT. -/
def execXfCtlAbort (who : Requester) (ch : Fin 32) (s : State) : Host.Outcome State Fault Refusal :=
  .next (s.rowWrite who.val (Reg.XF_CTL ch.val) 0x4000)
/-- XF_TLP_SENT (R416): A transfer channel writes its next TLP, and DONE follows the last. -/
def execXfTlpSent (s : State) : Host.Outcome State Fault Refusal :=
  .next (s.whileLive fun t => t.xfTlpSent)
/-- MSIX_MESSAGE (R415): A pending unmasked vector sends one message. -/
def execMsixMessage (v : Fin 64) (s : State) : Host.Outcome State Fault Refusal :=
  .next (s.whileLive fun t => t.msixMessage v.val)
/-- PERST_N_FALL (R425): A fundamental reset of the endpoint. -/
def execPerstNFall (s : State) : Host.Outcome State Fault Refusal :=
  .next (s.perstFall)
/-- PERST_N_RISE (R425): The vote is raised and the link trains. -/
def execPerstNRise (speed : Fin 4) (width : Fin 16) (s : State) : Host.Outcome State Fault Refusal :=
  .next (s.perstUp speed.val width.val)
/-- PCIE_CONFIG_WRITE (R417): A host configuration write clears Bus Master Enable, stopping running transfer channels in ERROR
with cause BME. -/
def execPcieConfigWrite (bme msixEn mask : Bool) (link : Bool × Bool) (s : State) : Host.Outcome State Fault Refusal :=
  .next (s.whileLive fun t => t.pcieConfig bme msixEn mask link.1 link.2)
/-- PCIE_LINK_LEFT_L0 (R427): The PCIe link leaves L0 other than into L1, setting HOST_STAT.LINKEV. -/
def execPcieLinkLeftL0 (way : L0Exit) (s : State) : Host.Outcome State Fault Refusal :=
  .next (s.whileLive fun t => t.linkLeft way)

end Sys2Proof.Machine
end

