-- ==== Sys2Proof/Machine/ExecCsign.lean ====
section
/-!
DEFINITION. The meanings of the commands: countersign and postage (spec 17). Each is one call of the operation that its rule describes.
-/
namespace Sys2Proof.Machine

/-- CS_CMD_OPEN (R435): Opens an envelope and draws a nonce. -/
def execCsCmdOpen (who : Requester) (s : State) : Host.Outcome State Fault Refusal :=
  .next (s.rowWrite who.val Reg.CS_CMD 1)
/-- CS_CMD_SEAL (R437): The author seals the envelope. -/
def execCsCmdSeal (who : Requester) (s : State) : Host.Outcome State Fault Refusal :=
  .next (s.rowWrite who.val Reg.CS_CMD 2)
/-- CS_CMD_ABORT (R441): The author aborts the envelope. -/
def execCsCmdAbort (who : Requester) (s : State) : Host.Outcome State Fault Refusal :=
  .next (s.rowWrite who.val Reg.CS_CMD 3)
/-- CS_EPUT2_WRITE (R436): Appends a staged entry. -/
def execCsEput2Write (who : Requester) (v : Word) (s : State) : Host.Outcome State Fault Refusal :=
  .next (s.rowWrite who.val (Reg.CS_EPUT 2) v)
/-- CS_SIGN3_WRITE (R438): Presents a countersign, judged and checked. -/
def execCsSign3Write (who : Requester) (v : Word) (s : State) : Host.Outcome State Fault Refusal :=
  .next (s.rowWrite who.val (Reg.CS_SIGN 3) v)
/-- ENVELOPE_APPLY (R440): Dies apply their entries and HUB records the outcome. -/
def execEnvelopeApply (s : State) : Host.Outcome State Fault Refusal :=
  .next ((s.whileLive fun t => t.envelopeApply).after)
/-- CS_WINDOW_EXPIRY (R441): The window ends and the envelope expires. -/
def execCsWindowExpiry (s : State) : Host.Outcome State Fault Refusal :=
  .next ((s.whileLive fun t => t.csExpiry).after)
/-- CS_CTL_CLRCNT (R447): Clears the countersign counters. -/
def execCsCtlClrcnt (who : Requester) (s : State) : Host.Outcome State Fault Refusal :=
  .next (s.rowWrite who.val Reg.CS_CTL 0x8000)
/-- POSTAGE_ROUND_BOUNDARY (R443): A meter's round boundary resets used stamps. -/
def execPostageRoundBoundary (d : DieId) (rt : Fin 256) (ddr : Bool) (s : State) : Host.Outcome State Fault Refusal :=
  .next (s.whileLive fun t => t.postageRound (if ddr then 0 else d.val) rt.val (if ddr then 1 else 0))
/-- POSTAGE_WAIT_END (R445): A waiting item is served once postage returns. -/
def execPostageWaitEnd (w : PostageWaiter) (s : State) : Host.Outcome State Fault Refusal :=
  .next ((s.whileLive fun t => t.postageServed w).after)
/-- PST_CTL_CLRCNT (R448): Clears the route maxima and wait counters. -/
def execPstCtlClrcnt (who : Requester) (s : State) : Host.Outcome State Fault Refusal :=
  .next (s.rowWrite who.val Reg.PST_CTL 0x8000)

end Sys2Proof.Machine
end

