-- ==== Sys2Proof/Machine/ExecImage.lean ====
section
/-!
DEFINITION. The meanings of the commands: the structure image and repair (spec 18). Each is one call of the operation that its rule describes.
-/
namespace Sys2Proof.Machine

/-- IMG_CMD_STAGE (R468): Checks and copies a new image to the inactive bank. -/
def execImgCmdStage (who : Requester) (s : State) : Host.Outcome State Fault Refusal :=
  .next (s.rowWrite who.val Reg.IMG_CMD 1)
/-- IMG_CMD_COMMIT (R468): Makes the staged bank active, or is refused. -/
def execImgCmdCommit (who : Requester) (s : State) : Host.Outcome State Fault Refusal :=
  .next (s.rowWrite who.val Reg.IMG_CMD 2)
/-- IMG_CMD_DISCARD (R468): Clears STGVALID, or is refused. -/
def execImgCmdDiscard (who : Requester) (s : State) : Host.Outcome State Fault Refusal :=
  .next (s.rowWrite who.val Reg.IMG_CMD 3)
/-- IMG_RPCTL_ABORT (R467): Aborts a running repair. -/
def execImgRpctlAbort (who : Requester) (s : State) : Host.Outcome State Fault Refusal :=
  .next ((s.fromParty who.val Reg.IMG_RPCTL fun t => t.repairAbort).after)
/-- IMG_CTL_CLRCNT (R470): Clears the image counters. -/
def execImgCtlClrcnt (who : Requester) (s : State) : Host.Outcome State Fault Refusal :=
  .next (s.rowWrite who.val Reg.IMG_CTL 0x8000)
/-- IMG_HLOAD_WRITE (R456): Hands one host-boot piece to the loader. -/
def execImgHloadWrite (who : Requester) (v : Word) (s : State) : Host.Outcome State Fault Refusal :=
  .next (s.rowWrite who.val Reg.IMG_HLOAD v)
/-- REPAIR_STEP_COMPLETE (R465): A repair step K1 to K10 completes and the next starts. -/
def execRepairStepComplete (ok : Bool) (s : State) : Host.Outcome State Fault Refusal :=
  .next ((s.whileLive fun t => t.repairStep ok).after.retryPush)
/-- DRAIN_TIMEOUT (R465): IMG_DRAINT ends the drain wait at K3. -/
def execDrainTimeout (s : State) : Host.Outcome State Fault Refusal :=
  .next ((s.whileLive fun t => t.drainTimeout).after)
/-- STAGING_COMPLETE (R468): The loader finishes checking and copying a staged image, setting STGVALID and STAGEEV, or AUTHEV
with STGERR. -/
def execStagingComplete (s : State) : Host.Outcome State Fault Refusal :=
  .next (s.whileLive fun t => t.stagingComplete)

end Sys2Proof.Machine
end

