-- ==== Sys2Proof/Machine/ExecStart.lean ====
section
/-!
DEFINITION. The meanings of the commands: start-up and resets (spec 19). Each is one call of the operation that its rule describes.
-/
namespace Sys2Proof.Machine

/-- DIE_RESET (R460): A die resets and is reconfigured from its slice. -/
def execDieReset (d : DieId) (s : State) : Host.Outcome State Fault Refusal :=
  .next ((s.whileLive fun t => t.dieReset d.val).after.retryFlight)
/-- PORST_N_LOW (R473): Takes the device to OFF. -/
def execPorstNLow (s : State) : Host.Outcome State Fault Refusal :=
  .next (s.porstLow)
/-- PORST_N_RELEASE (R475): Starts the boot sequence at J1. -/
def execPorstNRelease (boot smb : Fin 4) (s : State) : Host.Outcome State Fault Refusal :=
  .next (s.porstRelease boot.val smb.val)
/-- START_STEP_COMPLETE (R475): A start-up step J1 to J11 completes and the next starts. -/
def execStartStepComplete (trng flash : Bool) (ddrFail : List (Fin 4 × Fin 8)) (rails pl0 : BitVec 4) (s : State) : Host.Outcome State Fault Refusal :=
  .next ((s.startStep trng flash (ddrFail.map fun x => (x.1.val, x.2.val)) rails pl0).after)
/-- VAON_LOSS (R385): Loss of VAON takes the device to OFF and clears AON_TIME, the records and the fault log. -/
def execVaonLoss (s : State) : Host.Outcome State Fault Refusal :=
  .next (s.vaonLoss)
/-- VAON_APPLIED (R388): VAON is first applied and the AON domain starts with its reset values and the AON timer running. -/
def execVaonApplied (s : State) : Host.Outcome State Fault Refusal :=
  .next (s.vaonApplied)

end Sys2Proof.Machine
end

