-- ==== Sys2Proof/Machine/ExecFaults.lean ====
section
/-!
DEFINITION. The meanings of the commands: faults and service (spec 20). Each is one call of the operation that its rule describes.
-/
namespace Sys2Proof.Machine

/-- FAULT_WINDOW_EVENT (R488): An event counts in a resource's fault window and may mark it LASTING. -/
def execFaultWindowEvent (s : State) : Host.Outcome State Fault Refusal :=
  .next (s.whileLive fun t => t.faultWindowEvent)
/-- DEAD_LETTER_REPORT (R490): The office counts a dead letter and may capture it. -/
def execDeadLetterReport (s : State) : Host.Outcome State Fault Refusal :=
  .next (s.whileLive fun t => t.deadLetterReport)
/-- ERR_CTL_CLRCNT (R498): Clears DLO_CNT and FW_LAST. -/
def execErrCtlClrcnt (who : Requester) (s : State) : Host.Outcome State Fault Refusal :=
  .next (s.rowWrite who.val Reg.ERR_CTL 0x8000)
/-- ERR_CTL_CLRCAP (R491): Empties the dead-letter capture. -/
def execErrCtlClrcap (who : Requester) (s : State) : Host.Outcome State Fault Refusal :=
  .next (s.rowWrite who.val Reg.ERR_CTL 0x4000)
/-- ERR_CTL_CLRLAST (R488): Ends LASTING on classes 1 and 2. -/
def execErrCtlClrlast (who : Requester) (s : State) : Host.Outcome State Fault Refusal :=
  .next (s.rowWrite who.val Reg.ERR_CTL 0x2000)
/-- ERR_RESTART (R496): Restarts a HALTED clerk. -/
def execErrRestart (who : Requester) (v : Word) (s : State) : Host.Outcome State Fault Refusal :=
  .next (s.rowWrite who.val Reg.ERR_RESTART v)
/-- ERR_DIGDATA_READ (R498): Returns a digest word and advances the reader's ERR_DIGSEL. -/
def execErrDigdataRead (who : Requester) (s : State) : Host.Outcome State Fault Refusal :=
  .next (s.rowRead who.val Reg.ERR_DIGDATA)
/-- DIGEST_UPDATE (R494): Every millisecond HUB updates the service digest. -/
def execDigestUpdate (s : State) : Host.Outcome State Fault Refusal :=
  .next (s.digestUpdate)
/-- CST_CTL_CLRCNT (R493): Clears the code store counters. -/
def execCstCtlClrcnt (c : Fin 128) (s : State) : Host.Outcome State Fault Refusal :=
  .next (s.rowWrite c.val 0x1106 0x8000)
/-- SMBUS_DIGEST (R494): Returns a 16-word digest page by SMBus block read. -/
def execSmbusDigest (k : Fin 8) (s : State) : Host.Outcome State Fault Refusal :=
  .next (s.smbusDigest k.val)
/-- SMBUS_BUS_TIMEOUT (R530): SCL held low for 25 to 35 ms while awake makes the responder release SDA and drop the
transaction. -/
def execSmbusBusTimeout (s : State) : Host.Outcome State Fault Refusal :=
  .next (s.smbTimeout)

end Sys2Proof.Machine
end

