-- ==== Sys2Proof/Machine/ExecDebug.lean ====
section
/-!
DEFINITION. The meanings of the commands: debug and boundary scan (R497). Each is one call of the operation that its rule describes.
-/
namespace Sys2Proof.Machine

/-- HALT (R497): Debug halts a clerk. -/
def execHalt (c : ClerkId) (s : State) : Host.Outcome State Fault Refusal :=
  .next (s.dbgHaltClerk c.val)
/-- RESUME (R497): Debug resumes a clerk. -/
def execResume (c : ClerkId) (s : State) : Host.Outcome State Fault Refusal :=
  .next (s.dbgResume c.val)
/-- STEP (R497): Debug retires one instruction, then halts. -/
def execStep (c : ClerkId) (s : State) : Host.Outcome State Fault Refusal :=
  .next (s.dbgStep c.val)
/-- RDREG (R497): Debug reads a register of a halted clerk. -/
def execRdreg (c : ClerkId) (arg : Word) (s : State) : Host.Outcome State Fault Refusal :=
  .next (s.dbgRdreg c.val arg)
/-- WRREG (R497): Debug writes a register of a halted clerk. -/
def execWrreg (c : ClerkId) (arg v : Word) (s : State) : Host.Outcome State Fault Refusal :=
  .next (s.dbgWrreg c.val arg v)
/-- RDMEM (R497): Debug reads a private store word. -/
def execRdmem (c : ClerkId) (a : Word) (s : State) : Host.Outcome State Fault Refusal :=
  .next (s.dbgRdmem c.val a)
/-- WRMEM (R497): Debug writes a private store word. -/
def execWrmem (c : ClerkId) (a v : Word) (s : State) : Host.Outcome State Fault Refusal :=
  .next (s.dbgWrmem c.val a v)
/-- RDPORT (R497): Debug reads a clerk-local port without side effects. -/
def execRdport (c : ClerkId) (p : Word) (s : State) : Host.Outcome State Fault Refusal :=
  .next (s.dbgRdport c.val p)
/-- ARM (R497): Arms break-to-halt. -/
def execArm (c : ClerkId) (s : State) : Host.Outcome State Fault Refusal :=
  .next (s.dbgArm c.val true)
/-- DISARM (R497): Disarms break-to-halt. -/
def execDisarm (c : ClerkId) (s : State) : Host.Outcome State Fault Refusal :=
  .next (s.dbgArm c.val false)
/-- EXTEST (R497): Selects the boundary register for external test. -/
def execExtest (s : State) : Host.Outcome State Fault Refusal :=
  .next (s.tapExtest)
/-- IDCODE (R497): Returns the 32-bit IDCODE. -/
def execIdcode (s : State) : Host.Outcome State Fault Refusal :=
  .next (s.tapIdcode)
/-- SAMPLE_PRELOAD (R497): Samples or preloads the boundary register. -/
def execSamplePreload (fire : BitVec 64) (gpio : BitVec 32) (s : State) : Host.Outcome State Fault Refusal :=
  .next (s.tapSample fire gpio)
/-- CLAMP (R497): Drives the boundary values with bypass selected. -/
def execClamp (s : State) : Host.Outcome State Fault Refusal :=
  .next (s.tapInsn 4)
/-- HIGHZ (R497): Puts the outputs in high impedance with bypass selected. -/
def execHighz (s : State) : Host.Outcome State Fault Refusal :=
  .next (s.tapInsn 5)
/-- BYPASS (R497): Selects the 1-bit bypass register. -/
def execBypass (s : State) : Host.Outcome State Fault Refusal :=
  .next (s.tapInsn 0xFF)

end Sys2Proof.Machine
end

