-- ==== Sys2Proof/Machine/Dispatch.lean ====
section
/-!
DEFINITION. Every command has its meaning here: one arm per constructor, each one direct call.
-/
namespace Sys2Proof.Machine

def exec (i : Instr) (s : State) : Host.Outcome State Fault Refusal :=
  match i with
  | .nop c => Sys2Proof.Machine.execNop c s
  | .wait c => Sys2Proof.Machine.execWait c s
  | .synci c => Sys2Proof.Machine.execSynci c s
  | .dsync c => Sys2Proof.Machine.execDsync c s
  | .reti c => Sys2Proof.Machine.execReti c s
  | .ret c => Sys2Proof.Machine.execRet c s
  | .ei c => Sys2Proof.Machine.execEi c s
  | .di c => Sys2Proof.Machine.execDi c s
  | .svc c n => Sys2Proof.Machine.execSvc c n s
  | .brk c n => Sys2Proof.Machine.execBrk c n s
  | .setlm c m => Sys2Proof.Machine.execSetlm c m s
  | .mfs c d sr => Sys2Proof.Machine.execMfs c d sr s
  | .mts c sr r => Sys2Proof.Machine.execMts c sr r s
  | .mfsp c d hi => Sys2Proof.Machine.execMfsp c d hi s
  | .mtsp c hi r => Sys2Proof.Machine.execMtsp c hi r s
  | .repi c n => Sys2Proof.Machine.execRepi c n s
  | .repu c n => Sys2Proof.Machine.execRepu c n s
  | .bgath c => Sys2Proof.Machine.execBgath c s
  | .bscat c => Sys2Proof.Machine.execBscat c s
  | .bramp c => Sys2Proof.Machine.execBramp c s
  | .bmatch c => Sys2Proof.Machine.execBmatch c s
  | .bsum c => Sys2Proof.Machine.execBsum c s
  | .bpget c => Sys2Proof.Machine.execBpget c s
  | .bpput c => Sys2Proof.Machine.execBpput c s
  | .mov c d r => Sys2Proof.Machine.execMov c d r s
  | .add c d r => Sys2Proof.Machine.execAdd c d r s
  | .sub c d r => Sys2Proof.Machine.execSub c d r s
  | .and c d r => Sys2Proof.Machine.execAnd c d r s
  | .or c d r => Sys2Proof.Machine.execOr c d r s
  | .xor c d r => Sys2Proof.Machine.execXor c d r s
  | .shl c d r => Sys2Proof.Machine.execShl c d r s
  | .shr c d r => Sys2Proof.Machine.execShr c d r s
  | .sar c d r => Sys2Proof.Machine.execSar c d r s
  | .rol c d r => Sys2Proof.Machine.execRol c d r s
  | .not c d r => Sys2Proof.Machine.execNot c d r s
  | .neg c d r => Sys2Proof.Machine.execNeg c d r s
  | .movq c d u => Sys2Proof.Machine.execMovq c d u s
  | .addq c d u => Sys2Proof.Machine.execAddq c d u s
  | .subq c d u => Sys2Proof.Machine.execSubq c d u s
  | .shlq c d u => Sys2Proof.Machine.execShlq c d u s
  | .shrq c d u => Sys2Proof.Machine.execShrq c d u s
  | .sarq c d u => Sys2Proof.Machine.execSarq c d u s
  | .rolq c d u => Sys2Proof.Machine.execRolq c d u s
  | .movi c d imm => Sys2Proof.Machine.execMovi c d imm s
  | .addi c d r imm => Sys2Proof.Machine.execAddi c d r imm s
  | .andi c d r imm => Sys2Proof.Machine.execAndi c d r imm s
  | .ori c d r imm => Sys2Proof.Machine.execOri c d r imm s
  | .xori c d r imm => Sys2Proof.Machine.execXori c d r imm s
  | .mul c a b => Sys2Proof.Machine.execMul c a b s
  | .mulu c a b => Sys2Proof.Machine.execMulu c a b s
  | .muli c r imm => Sys2Proof.Machine.execMuli c r imm s
  | .mului c r imm => Sys2Proof.Machine.execMului c r imm s
  | .cmovnz c d r q => Sys2Proof.Machine.execCmovnz c d r q s
  | .cmovz c d r q => Sys2Proof.Machine.execCmovz c d r q s
  | .sel c d q a b => Sys2Proof.Machine.execSel c d q a b s
  | .ceq c d a b => Sys2Proof.Machine.execCeq c d a b s
  | .cne c d a b => Sys2Proof.Machine.execCne c d a b s
  | .clt c d a b => Sys2Proof.Machine.execClt c d a b s
  | .cle c d a b => Sys2Proof.Machine.execCle c d a b s
  | .cltu c d a b => Sys2Proof.Machine.execCltu c d a b s
  | .cleu c d a b => Sys2Proof.Machine.execCleu c d a b s
  | .cadc c d a b => Sys2Proof.Machine.execCadc c d a b s
  | .cova c d a b => Sys2Proof.Machine.execCova c d a b s
  | .covs c d a b => Sys2Proof.Machine.execCovs c d a b s
  | .cbit c d a b => Sys2Proof.Machine.execCbit c d a b s
  | .ceqi c d a imm => Sys2Proof.Machine.execCeqi c d a imm s
  | .cnei c d a imm => Sys2Proof.Machine.execCnei c d a imm s
  | .clti c d a imm => Sys2Proof.Machine.execClti c d a imm s
  | .cgti c d a imm => Sys2Proof.Machine.execCgti c d a imm s
  | .cltui c d a imm => Sys2Proof.Machine.execCltui c d a imm s
  | .cgtui c d a imm => Sys2Proof.Machine.execCgtui c d a imm s
  | .bnz c q disp => Sys2Proof.Machine.execBnz c q disp s
  | .bz c q disp => Sys2Proof.Machine.execBz c q disp s
  | .bnzl c q disp => Sys2Proof.Machine.execBnzl c q disp s
  | .bzl c q disp => Sys2Proof.Machine.execBzl c q disp s
  | .jmp c t => Sys2Proof.Machine.execJmp c t s
  | .call c t => Sys2Proof.Machine.execCall c t s
  | .jmpr c h l => Sys2Proof.Machine.execJmpr c h l s
  | .callr c h l => Sys2Proof.Machine.execCallr c h l s
  | .ld c d m => Sys2Proof.Machine.execLd c d m s
  | .st c r m => Sys2Proof.Machine.execSt c r m s
  | .lds c d m => Sys2Proof.Machine.execLds c d m s
  | .sts c r m => Sys2Proof.Machine.execSts c r m s
  | .inPort c d m => Sys2Proof.Machine.execInPort c d m s
  | .outPort c r m => Sys2Proof.Machine.execOutPort c r m s
  | .ins c d m => Sys2Proof.Machine.execIns c d m s
  | .outs c r m => Sys2Proof.Machine.execOuts c r m s
  | .geti c d h l => Sys2Proof.Machine.execGeti c d h l s
  | .getia c d t => Sys2Proof.Machine.execGetia c d t s
  | .puti c r h l => Sys2Proof.Machine.execPuti c r h l s
  | .putia c r t => Sys2Proof.Machine.execPutia c r t s
  | .sti c b x imm => Sys2Proof.Machine.execSti c b x imm s
  | .outi c b x imm => Sys2Proof.Machine.execOuti c b x imm s
  | .smov c d r => Sys2Proof.Machine.execSmov c d r s
  | .sadd c d r => Sys2Proof.Machine.execSadd c d r s
  | .ssub c d r => Sys2Proof.Machine.execSsub c d r s
  | .sand c d r => Sys2Proof.Machine.execSand c d r s
  | .sor c d r => Sys2Proof.Machine.execSor c d r s
  | .sxor c d r => Sys2Proof.Machine.execSxor c d r s
  | .smin c d r => Sys2Proof.Machine.execSmin c d r s
  | .smax c d r => Sys2Proof.Machine.execSmax c d r s
  | .sabd c d r => Sys2Proof.Machine.execSabd c d r s
  | .sshl c d u => Sys2Proof.Machine.execSshl c d u s
  | .sshr c d u => Sys2Proof.Machine.execSshr c d u s
  | .ssar c d u => Sys2Proof.Machine.execSsar c d u s
  | .sceq c d r => Sys2Proof.Machine.execSceq c d r s
  | .sclt c d r => Sys2Proof.Machine.execSclt c d r s
  | .scltu c d r => Sys2Proof.Machine.execScltu c d r s
  | .sandn c d r => Sys2Proof.Machine.execSandn c d r s
  | .smul c a b => Sys2Proof.Machine.execSmul c a b s
  | .smulu c a b => Sys2Proof.Machine.execSmulu c a b s
  | .smac c k a b => Sys2Proof.Machine.execSmac c k a b s
  | .smacw c k a b => Sys2Proof.Machine.execSmacw c k a b s
  | .smacuw c k a b => Sys2Proof.Machine.execSmacuw c k a b s
  | .aclr c k => Sys2Proof.Machine.execAclr c k s
  | .ahsum c k => Sys2Proof.Machine.execAhsum c k s
  | .aget c d k p => Sys2Proof.Machine.execAget c d k p s
  | .aset c r k p => Sys2Proof.Machine.execAset c r k p s
  | .aout c d k u => Sys2Proof.Machine.execAout c d k u s
  | .aput c k r => Sys2Proof.Machine.execAput c k r s
  | .ssum c d r => Sys2Proof.Machine.execSsum c d r s
  | .smaxr c d r => Sys2Proof.Machine.execSmaxr c d r s
  | .sminr c d r => Sys2Proof.Machine.execSminr c d r s
  | .sbcast c d r => Sys2Proof.Machine.execSbcast c d r s
  | .srot c d n => Sys2Proof.Machine.execSrot c d n s
  | .scmov c d r q => Sys2Proof.Machine.execScmov c d r q s
  | .sget c d r l => Sys2Proof.Machine.execSget c d r l s
  | .sput c d r l => Sys2Proof.Machine.execSput c d r l s
  | .sperm c d r p => Sys2Proof.Machine.execSperm c d r p s
  | .eopen c d r => Sys2Proof.Machine.execEopen c d r s
  | .post c r => Sys2Proof.Machine.execPost c r s
  | .recall c r => Sys2Proof.Machine.execRecall c r s
  | .modeChangeEffect at_ => Sys2Proof.Machine.execModeChangeEffect at_ s
  | .branchMisprediction c path => Sys2Proof.Machine.execBranchMisprediction c path s
  | .windowLoadReturn c n bad => Sys2Proof.Machine.execWindowLoadReturn c n bad s
  | .codeWriteQueueWrite c => Sys2Proof.Machine.execCodeWriteQueueWrite c s
  | .tokenArrival c => Sys2Proof.Machine.execTokenArrival c s
  | .pcntCtlClrall c => Sys2Proof.Machine.execPcntCtlClrall c s
  | .encoderTransition enc a b hold => Sys2Proof.Machine.execEncoderTransition enc a b hold s
  | .indexEdge enc hold => Sys2Proof.Machine.execIndexEdge enc hold s
  | .mainsZeroCross m falling => Sys2Proof.Machine.execMainsZeroCross m falling s
  | .lateTimeout n => Sys2Proof.Machine.execLateTimeout n s
  | .stopTimeout n => Sys2Proof.Machine.execStopTimeout n s
  | .mainsLostTimeout n => Sys2Proof.Machine.execMainsLostTimeout n s
  | .axnCfgWrite who n v => Sys2Proof.Machine.execAxnCfgWrite who n v s
  | .axnSetWrite who n seth => Sys2Proof.Machine.execAxnSetWrite who n seth s
  | .forceDev who n => Sys2Proof.Machine.execForceDev who n s
  | .axnCtrlClrcnt who n => Sys2Proof.Machine.execAxnCtrlClrcnt who n s
  | .axBcastWrite who mask v => Sys2Proof.Machine.execAxBcastWrite who mask v s
  | .broadcastSample => Sys2Proof.Machine.execBroadcastSample s
  | .broadcastApply d n => Sys2Proof.Machine.execBroadcastApply d n s
  | .replicaStale d n => Sys2Proof.Machine.execReplicaStale d n s
  | .bepochAnnouncement d => Sys2Proof.Machine.execBepochAnnouncement d s
  | .bepochAckTimeout => Sys2Proof.Machine.execBepochAckTimeout s
  | .epochRegistration c => Sys2Proof.Machine.execEpochRegistration c s
  | .lineageRegistration c => Sys2Proof.Machine.execLineageRegistration c s
  | .epochSettle c slot => Sys2Proof.Machine.execEpochSettle c slot s
  | .recallDecision => Sys2Proof.Machine.execRecallDecision s
  | .epochRecall who tag => Sys2Proof.Machine.execEpochRecall who tag s
  | .epochCtlClrcnt who => Sys2Proof.Machine.execEpochCtlClrcnt who s
  | .settleParcelMbe d => Sys2Proof.Machine.execSettleParcelMbe d s
  | .recallParcelMbe d => Sys2Proof.Machine.execRecallParcelMbe d s
  | .clerkSettle c => Sys2Proof.Machine.execClerkSettle c s
  | .clerkRecall c => Sys2Proof.Machine.execClerkRecall c s
  | .draftPop c slot d => Sys2Proof.Machine.execDraftPop c slot d s
  | .journalWaitEnd c => Sys2Proof.Machine.execJournalWaitEnd c s
  | .heldWritePerformed c => Sys2Proof.Machine.execHeldWritePerformed c s
  | .epCtlClrcnt c => Sys2Proof.Machine.execEpCtlClrcnt c s
  | .epRefuseNewClear c => Sys2Proof.Machine.execEpRefuseNewClear c s
  | .mailbagPush box flips => Sys2Proof.Machine.execMailbagPush box flips s
  | .slotPop c slot d => Sys2Proof.Machine.execSlotPop c slot d s
  | .popWaitEnd c => Sys2Proof.Machine.execPopWaitEnd c s
  | .mbData0Read who box => Sys2Proof.Machine.execMbData0Read who box s
  | .mbCtlFlush who box => Sys2Proof.Machine.execMbCtlFlush who box s
  | .mbCtlClrcnt who box => Sys2Proof.Machine.execMbCtlClrcnt who box s
  | .spillBlockWrite box => Sys2Proof.Machine.execSpillBlockWrite box s
  | .spillBlockRead box => Sys2Proof.Machine.execSpillBlockRead box s
  | .arrivalBufferDrain d => Sys2Proof.Machine.execArrivalBufferDrain d s
  | .mbeStatClear c v => Sys2Proof.Machine.execMbeStatClear c v s
  | .connectionLoss die cx => Sys2Proof.Machine.execConnectionLoss die cx s
  | .discoveryStep die k locked ids speed ok => Sys2Proof.Machine.execDiscoveryStep die k locked ids speed ok s
  | .discoveryRetry die k => Sys2Proof.Machine.execDiscoveryRetry die k s
  | .rediscoveryDelay die k => Sys2Proof.Machine.execRediscoveryDelay die k s
  | .camCtlRetry who die k => Sys2Proof.Machine.execCamCtlRetry who die k s
  | .camCtlClrcnt who die k => Sys2Proof.Machine.execCamCtlClrcnt who die k s
  | .camCfgWrite who die k v => Sys2Proof.Machine.execCamCfgWrite who die k v s
  | .ccCmdGo who die v => Sys2Proof.Machine.execCcCmdGo who die v s
  | .ccReply die tag r => Sys2Proof.Machine.execCcReply die tag r s
  | .ccTimeout die => Sys2Proof.Machine.execCcTimeout die s
  | .eventPacket die k crcOk id data => Sys2Proof.Machine.execEventPacket die k crcOk id data s
  | .streamPacket die cx crcOk tag sid part => Sys2Proof.Machine.execStreamPacket die cx crcOk tag sid part s
  | .lineFranked die k bad => Sys2Proof.Machine.execLineFranked die k bad s
  | .frameEnd die k => Sys2Proof.Machine.execFrameEnd die k s
  | .intCsdataAccess who die wr => Sys2Proof.Machine.execIntCsdataAccess who die wr s
  | .intCtlClrcnt who die => Sys2Proof.Machine.execIntCtlClrcnt who die s
  | .cxCtlClrcnt who die cx => Sys2Proof.Machine.execCxCtlClrcnt who die cx s
  | .rgWWrite who die g w => Sys2Proof.Machine.execRgWWrite who die g w s
  | .connectionRegainsSignal die cx => Sys2Proof.Machine.execConnectionRegainsSignal die cx s
  | .linkFrameReceive l fromA lseq crcOk => Sys2Proof.Machine.execLinkFrameReceive l fromA lseq crcOk s
  | .nakReplay l fromA => Sys2Proof.Machine.execNakReplay l fromA s
  | .ackTimeout l fromA => Sys2Proof.Machine.execAckTimeout l fromA s
  | .retrainComplete l ok => Sys2Proof.Machine.execRetrainComplete l ok s
  | .flCtlRetrain who l => Sys2Proof.Machine.execFlCtlRetrain who l s
  | .flCtlUnfault who l => Sys2Proof.Machine.execFlCtlUnfault who l s
  | .flCtlClrcnt who l => Sys2Proof.Machine.execFlCtlClrcnt who l s
  | .fdCtlClrcnt who d => Sys2Proof.Machine.execFdCtlClrcnt who d s
  | .undeliverableParcel d post ctl lanes => Sys2Proof.Machine.execUndeliverableParcel d post ctl lanes s
  | .bringUpExchange l => Sys2Proof.Machine.execBringUpExchange l s
  | .exchangeRetry l => Sys2Proof.Machine.execExchangeRetry l s
  | .linkDownDeclaration d => Sys2Proof.Machine.execLinkDownDeclaration d s
  | .crossingTransfer d n kind offer => Sys2Proof.Machine.execCrossingTransfer d n kind offer s
  | .crossingReset d n => Sys2Proof.Machine.execCrossingReset d n s
  | .modeAcknowledge d => Sys2Proof.Machine.execModeAcknowledge d s
  | .outboxArrival => Sys2Proof.Machine.execOutboxArrival s
  | .obPush7Write who v => Sys2Proof.Machine.execObPush7Write who v s
  | .outboxTick => Sys2Proof.Machine.execOutboxTick s
  | .obPurge who axis => Sys2Proof.Machine.execObPurge who axis s
  | .obCtlClrcnt who => Sys2Proof.Machine.execObCtlClrcnt who s
  | .obSpillBufferTimeout => Sys2Proof.Machine.execObSpillBufferTimeout s
  | .obSpillRead bad => Sys2Proof.Machine.execObSpillRead bad s
  | .safeInputFall b => Sys2Proof.Machine.execSafeInputFall b s
  | .safeInputRise b => Sys2Proof.Machine.execSafeInputRise b s
  | .discrepancyTimeout => Sys2Proof.Machine.execDiscrepancyTimeout s
  | .feCtlRearm who => Sys2Proof.Machine.execFeCtlRearm who s
  | .feCtlClrcnt who => Sys2Proof.Machine.execFeCtlClrcnt who s
  | .refreshRoundBoundary => Sys2Proof.Machine.execRefreshRoundBoundary s
  | .pwmPeriodStart ch => Sys2Proof.Machine.execPwmPeriodStart ch s
  | .pwmActiveEnd ch => Sys2Proof.Machine.execPwmActiveEnd ch s
  | .burstDecision ch => Sys2Proof.Machine.execBurstDecision ch s
  | .phaseTurnOn ch => Sys2Proof.Machine.execPhaseTurnOn ch s
  | .phaseGateEnd ch => Sys2Proof.Machine.execPhaseGateEnd ch s
  | .pulseEnd ch => Sys2Proof.Machine.execPulseEnd ch s
  | .chCfgWrite who ch v => Sys2Proof.Machine.execChCfgWrite who ch v s
  | .chCtlClrcnt who ch => Sys2Proof.Machine.execChCtlClrcnt who ch s
  | .roundStart p => Sys2Proof.Machine.execRoundStart p s
  | .frameReturn p hcrcOk loop answers enrol => Sys2Proof.Machine.execFrameReturn p hcrcOk loop answers enrol s
  | .frameLost p loop => Sys2Proof.Machine.execFrameLost p loop s
  | .zpNcmdGo who p v => Sys2Proof.Machine.execZpNcmdGo who p v s
  | .nodeCtlRelease who p a => Sys2Proof.Machine.execNodeCtlRelease who p a s
  | .nodeCtlUnfault who p a => Sys2Proof.Machine.execNodeCtlUnfault who p a s
  | .nodeCtlClrcnt who p a => Sys2Proof.Machine.execNodeCtlClrcnt who p a s
  | .zpCtlClrcnt who p => Sys2Proof.Machine.execZpCtlClrcnt who p s
  | .zpCfgWrite who p v => Sys2Proof.Machine.execZpCfgWrite who p v s
  | .localEvent d src => Sys2Proof.Machine.execLocalEvent d src s
  | .globalEventParcel d g => Sys2Proof.Machine.execGlobalEventParcel d g s
  | .moderationRelease d src => Sys2Proof.Machine.execModerationRelease d src s
  | .interruptEntry at_ => Sys2Proof.Machine.execInterruptEntry at_ s
  | .icuCtlClrcnt who d => Sys2Proof.Machine.execIcuCtlClrcnt who d s
  | .icuCtlClrpend who d => Sys2Proof.Machine.execIcuCtlClrpend who d s
  | .icuRaise who d v => Sys2Proof.Machine.execIcuRaise who d v s
  | .icuPendClear who d j v => Sys2Proof.Machine.execIcuPendClear who d j v s
  | .licDoorbell c v => Sys2Proof.Machine.execLicDoorbell c v s
  | .licAlmhWrite c v => Sys2Proof.Machine.execLicAlmhWrite c v s
  | .alarmFire c => Sys2Proof.Machine.execAlarmFire c s
  | .modeReqReady who => Sys2Proof.Machine.execModeReqReady who s
  | .modeReqRun who => Sys2Proof.Machine.execModeReqRun who s
  | .modeReqRepair who d => Sys2Proof.Machine.execModeReqRepair who d s
  | .modeReqService who => Sys2Proof.Machine.execModeReqService who s
  | .modeReqDormant who => Sys2Proof.Machine.execModeReqDormant who s
  | .modeReqSealed who => Sys2Proof.Machine.execModeReqSealed who s
  | .modeAckTimeout => Sys2Proof.Machine.execModeAckTimeout s
  | .deviceDiesClear who v => Sys2Proof.Machine.execDeviceDiesClear who v s
  | .gpioEdge n level ns => Sys2Proof.Machine.execGpioEdge n level ns s
  | .heldBackEventParcel g => Sys2Proof.Machine.execHeldBackEventParcel g s
  | .voteRaise dom => Sys2Proof.Machine.execVoteRaise dom s
  | .voteWithdraw dom => Sys2Proof.Machine.execVoteWithdraw dom s
  | .holdoffExpiry dom => Sys2Proof.Machine.execHoldoffExpiry dom s
  | .pwrPlreqGo who n v => Sys2Proof.Machine.execPwrPlreqGo who n v s
  | .voutInTolerance n vout => Sys2Proof.Machine.execVoutInTolerance n vout s
  | .pltoutExpiry n failed => Sys2Proof.Machine.execPltoutExpiry n failed s
  | .pmbusPoll k r => Sys2Proof.Machine.execPmbusPoll k r s
  | .pmbCtlClrf who k acked => Sys2Proof.Machine.execPmbCtlClrf who k acked s
  | .pmbCtlRead who k r => Sys2Proof.Machine.execPmbCtlRead who k r s
  | .pwrCtlClrcnt who => Sys2Proof.Machine.execPwrCtlClrcnt who s
  | .aonBrownout => Sys2Proof.Machine.execAonBrownout s
  | .sleepStepComplete refused => Sys2Proof.Machine.execSleepStepComplete refused s
  | .d1Timeout => Sys2Proof.Machine.execD1Timeout s
  | .wakeSmbus => Sys2Proof.Machine.execWakeSmbus s
  | .wakeTimer => Sys2Proof.Machine.execWakeTimer s
  | .wakeGpio n => Sys2Proof.Machine.execWakeGpio n s
  | .wakeEncoder e => Sys2Proof.Machine.execWakeEncoder e s
  | .wakeStepComplete rails mismatch => Sys2Proof.Machine.execWakeStepComplete rails mismatch s
  | .aonCtlClrcnt who => Sys2Proof.Machine.execAonCtlClrcnt who s
  | .aonCtlSync who => Sys2Proof.Machine.execAonCtlSync who s
  | .aonPadholdRel who v => Sys2Proof.Machine.execAonPadholdRel who v s
  | .aonSrdataAccess who wr => Sys2Proof.Machine.execAonSrdataAccess who wr s
  | .ssPoisonClear c hi v => Sys2Proof.Machine.execSsPoisonClear c hi v s
  | .ddrBurstRead burst r => Sys2Proof.Machine.execDdrBurstRead burst r s
  | .patrolScrub ch r => Sys2Proof.Machine.execPatrolScrub ch r s
  | .softPpr ch spare => Sys2Proof.Machine.execSoftPpr ch spare s
  | .ddrHppr who v => Sys2Proof.Machine.execDdrHppr who v s
  | .ddrChctlClrcnt who ch => Sys2Proof.Machine.execDdrChctlClrcnt who ch s
  | .ddrCtlClrcnt who => Sys2Proof.Machine.execDdrCtlClrcnt who s
  | .selfRefreshExit pair => Sys2Proof.Machine.execSelfRefreshExit pair s
  | .bar0Tlp dw op => Sys2Proof.Machine.execBar0Tlp dw op s
  | .bar4Tlp byte op => Sys2Proof.Machine.execBar4Tlp byte op s
  | .bar2Write w ws => Sys2Proof.Machine.execBar2Write w ws s
  | .phSubmit p => Sys2Proof.Machine.execPhSubmit p s
  | .phCollect p => Sys2Proof.Machine.execPhCollect p s
  | .phOwnerWrite who p v => Sys2Proof.Machine.execPhOwnerWrite who p v s
  | .hostCtlForcerel who p => Sys2Proof.Machine.execHostCtlForcerel who p s
  | .hostCtlClrcnt who => Sys2Proof.Machine.execHostCtlClrcnt who s
  | .hostDoorbell who v => Sys2Proof.Machine.execHostDoorbell who v s
  | .hostSdonehWrite who v => Sys2Proof.Machine.execHostSdonehWrite who v s
  | .hostSdataAccess who k wr => Sys2Proof.Machine.execHostSdataAccess who k wr s
  | .phTimeout p => Sys2Proof.Machine.execPhTimeout p s
  | .xfCtlGo who ch => Sys2Proof.Machine.execXfCtlGo who ch s
  | .xfCtlAbort who ch => Sys2Proof.Machine.execXfCtlAbort who ch s
  | .xfTlpSent => Sys2Proof.Machine.execXfTlpSent s
  | .msixMessage v => Sys2Proof.Machine.execMsixMessage v s
  | .perstNFall => Sys2Proof.Machine.execPerstNFall s
  | .perstNRise speed width => Sys2Proof.Machine.execPerstNRise speed width s
  | .pcieConfigWrite bme msixEn mask link => Sys2Proof.Machine.execPcieConfigWrite bme msixEn mask link s
  | .pcieLinkLeftL0 way => Sys2Proof.Machine.execPcieLinkLeftL0 way s
  | .csCmdOpen who => Sys2Proof.Machine.execCsCmdOpen who s
  | .csCmdSeal who => Sys2Proof.Machine.execCsCmdSeal who s
  | .csCmdAbort who => Sys2Proof.Machine.execCsCmdAbort who s
  | .csEput2Write who v => Sys2Proof.Machine.execCsEput2Write who v s
  | .csSign3Write who v => Sys2Proof.Machine.execCsSign3Write who v s
  | .envelopeApply => Sys2Proof.Machine.execEnvelopeApply s
  | .csWindowExpiry => Sys2Proof.Machine.execCsWindowExpiry s
  | .csCtlClrcnt who => Sys2Proof.Machine.execCsCtlClrcnt who s
  | .postageRoundBoundary d rt ddr => Sys2Proof.Machine.execPostageRoundBoundary d rt ddr s
  | .postageWaitEnd w => Sys2Proof.Machine.execPostageWaitEnd w s
  | .pstCtlClrcnt who => Sys2Proof.Machine.execPstCtlClrcnt who s
  | .imgCmdStage who => Sys2Proof.Machine.execImgCmdStage who s
  | .imgCmdCommit who => Sys2Proof.Machine.execImgCmdCommit who s
  | .imgCmdDiscard who => Sys2Proof.Machine.execImgCmdDiscard who s
  | .imgRpctlAbort who => Sys2Proof.Machine.execImgRpctlAbort who s
  | .imgCtlClrcnt who => Sys2Proof.Machine.execImgCtlClrcnt who s
  | .imgHloadWrite who v => Sys2Proof.Machine.execImgHloadWrite who v s
  | .repairStepComplete ok => Sys2Proof.Machine.execRepairStepComplete ok s
  | .drainTimeout => Sys2Proof.Machine.execDrainTimeout s
  | .move src dst => Sys2Proof.Machine.execMove src dst s
  | .dieReset d => Sys2Proof.Machine.execDieReset d s
  | .stagingComplete => Sys2Proof.Machine.execStagingComplete s
  | .porstNLow => Sys2Proof.Machine.execPorstNLow s
  | .porstNRelease boot smb => Sys2Proof.Machine.execPorstNRelease boot smb s
  | .startStepComplete trng flash ddrFail rails pl0 => Sys2Proof.Machine.execStartStepComplete trng flash ddrFail rails pl0 s
  | .vaonLoss => Sys2Proof.Machine.execVaonLoss s
  | .vaonApplied => Sys2Proof.Machine.execVaonApplied s
  | .faultWindowEvent => Sys2Proof.Machine.execFaultWindowEvent s
  | .deadLetterReport => Sys2Proof.Machine.execDeadLetterReport s
  | .errCtlClrcnt who => Sys2Proof.Machine.execErrCtlClrcnt who s
  | .errCtlClrcap who => Sys2Proof.Machine.execErrCtlClrcap who s
  | .errCtlClrlast who => Sys2Proof.Machine.execErrCtlClrlast who s
  | .errRestart who v => Sys2Proof.Machine.execErrRestart who v s
  | .errDigdataRead who => Sys2Proof.Machine.execErrDigdataRead who s
  | .digestUpdate => Sys2Proof.Machine.execDigestUpdate s
  | .cstCtlClrcnt c => Sys2Proof.Machine.execCstCtlClrcnt c s
  | .smbusDigest k => Sys2Proof.Machine.execSmbusDigest k s
  | .smbusBusTimeout => Sys2Proof.Machine.execSmbusBusTimeout s
  | .halt c => Sys2Proof.Machine.execHalt c s
  | .resume c => Sys2Proof.Machine.execResume c s
  | .step c => Sys2Proof.Machine.execStep c s
  | .rdreg c arg => Sys2Proof.Machine.execRdreg c arg s
  | .wrreg c arg v => Sys2Proof.Machine.execWrreg c arg v s
  | .rdmem c a => Sys2Proof.Machine.execRdmem c a s
  | .wrmem c a v => Sys2Proof.Machine.execWrmem c a v s
  | .rdport c p => Sys2Proof.Machine.execRdport c p s
  | .arm c => Sys2Proof.Machine.execArm c s
  | .disarm c => Sys2Proof.Machine.execDisarm c s
  | .extest => Sys2Proof.Machine.execExtest s
  | .idcode => Sys2Proof.Machine.execIdcode s
  | .samplePreload fire gpio => Sys2Proof.Machine.execSamplePreload fire gpio s
  | .clamp => Sys2Proof.Machine.execClamp s
  | .highz => Sys2Proof.Machine.execHighz s
  | .bypass => Sys2Proof.Machine.execBypass s
  | .registerWrite who port v => Sys2Proof.Machine.execRegisterWrite who port v s
  | .codeStoreLineRead c line how => Sys2Proof.Machine.execCodeStoreLineRead c line how s
  | .globalPortReadReply who err => Sys2Proof.Machine.execGlobalPortReadReply who err s

end Sys2Proof.Machine
end

