-- ==== Sys2Proof/Safety.lean ====
section
/-!
DEFINITION. The terms that statements use: a safe run, stored data in its canonical form, when a clerk can execute an instruction at
once, what an instruction's retire changes, and when a register write reaches its block.
-/
namespace Sys2Proof.Machine

/-- Does a step at `s` answer a next state: neither a fault nor a refusal? -/
def Completes (s : State) : Prop := ∃ t, step s = .next t

/-- The first `n` steps from `s` all answer next states. -/
def SafeFor : Nat → State → Prop
  | 0, _ => True
  | n + 1, s => ∃ t, step s = .next t ∧ SafeFor n t

/-- A state in which the stored data is canonical: memory lists no word twice and none equal to what an unlisted one reads as. -/
def Sound (s : State) : Prop := s.mem.wf = true

/-! ## Clerks -/

/-- Clerk `c` executes an instruction of `len` words at its PC at once: its die runs and the clerk is neither halted nor parked, no
earlier instruction waits and none is in flight behind it, no repetition and no mode change is in progress, the issue limiter has a token (R59), every word lies
in the instruction window (R94), and debug asks for no stop (R497). -/
structure Ready (s : State) (c len : Nat) : Prop where
  runs : s.clerkRuns c = true
  noWait : (s.clerk c).waiting = none
  noWindow : (s.clerk c).window = []
  noRep : (s.clerk c).rep = none
  noShadow : (s.clerk c).shadow = []
  token : 5 ≤ (s.clerk c).tokens
  fetch : s.fetchable c len = true
  noStep : (s.clerk c).stepping = false
  noHalt : (s.clerk c).haltReq = false

/-- Registers that an instruction of clerk `c` may count in: PCNT_OVF, the eight counters and the retired count (R86). -/
def counterKey (c k : Nat) : Bool :=
  decide (k = Reg.PCNT_OVF c) || (decide (Reg.PCNT_L c 0 ≤ k) && decide (k ≤ Reg.PCNT_RETH c))

/-- Nothing but clerk `c`, its counters and its group's line cache differs; a counter that wraps may have raised PCNT (R64, R86). -/
def OnlyClerk (s t : State) (c : Nat) : Prop :=
  (∃ r ms cl lc, t = { s with regs := r, msgs := s.msgs ++ ms, clerks := cl, lineCaches := lc } ∧
    ∀ m ∈ ms, m = .localEv (clerkDie c) (0x40 + clerkLocal c) 1) ∧
  (∀ k, counterKey c k = false → t.reg k = s.reg k) ∧
  (∀ c', c' ≠ c → t.clerk c' = s.clerk c')

/-- The clerk once an instruction has issued: one token less (R59). -/
def Clerk.issued (k : Clerk) : Clerk := { k with tokens := k.tokens - 5, entry := none, grant := none, loadBuf := [], lastLoad := [] }

/-- The clerk after an instruction with effect `f` on its registers has retired: PC at `next`, one token less, and outstanding
products one instruction nearer, those due written (R59, R114). -/
def Clerk.retires (k : Clerk) (next : CodeAddr) (f : Clerk → Clerk) : Clerk := { f k.issued with pc := next }.tickProducts

/-! ## Register writes by a party -/

/-- A write of global port `p` by `who` reaches its block: the writer is HOST, PM0 or PM1 (R20), the device is awake, and the
package delivers the parcel (R262). -/
structure Reaches (s : State) (who p : Nat) : Prop where
  party : isParty who = true
  live : s.live = true
  way : s.portFault 0 p = none

/-- The state once a write of port `p` has crossed the links to its block, the frames before it accepted: their frames and parcel
counts have risen, nothing else (R257, R274). -/
def State.crossed (s : State) (p : Nat) : State := s.passRoute 0 (portDie p)

/-- No clerk's instruction waits and no fallback list is owed, so that a command lets nothing else go on. -/
def Calm (s : State) : Prop := s.fbPend = [] ∧ ∀ c, (s.clerk c).waiting = none

end Sys2Proof.Machine
end

