-- ==== Sys2Proof/Certificates/Slice0/Obligations.lean ====
section
/-!
DEFINITION. The statements for the provers. Helper tables, under Sys2Proof.Claims, write out what the spec's tables say of an
instruction or a command, in its own integer terms; each obligation says that exec does it.
-/
open Sys2Proof Sys2Proof.Machine

namespace Sys2Proof.Claims

/-- What an instruction does to its clerk: the clerk, its length in words, and its effect on the registers. -/
abbrev Effect := Option (ClerkId × Nat × (Clerk → Clerk))

/-- A write of W register `d` with a value read from the registers. -/
def toW (c : ClerkId) (len : Nat) (d : Reg4) (v : Clerk → Word) : Effect := some (c, len, fun k => k.ww d (v k))
/-- A number modulo 2^16. -/
def mod16 (n : Int) : Word := BitVec.ofInt 16 n
/-- 0001h where the relation holds, else 0000h (R139). -/
def rel (b : Prop) [Decidable b] : Word := if b then 1 else 0
/-- The value clamped to −32,768 to 32,767 (R150). -/
def clamp16 (n : Int) : Word := BitVec.ofInt 16 (if n < -32768 then -32768 else if 32767 < n then 32767 else n)

/-- The scalar instructions of R137: what each writes to d. sext is toInt, zext is toNat. -/
def scalar : Instr → Effect
  | .mov c d r => toW c 1 d fun k => k.rw r
  | .add c d r => toW c 1 d fun k => mod16 ((k.rw d).toNat + (k.rw r).toNat)
  | .sub c d r => toW c 1 d fun k => mod16 ((k.rw d).toNat - (k.rw r).toNat)
  | .and c d r => toW c 1 d fun k => k.rw d &&& k.rw r
  | .or c d r => toW c 1 d fun k => k.rw d ||| k.rw r
  | .xor c d r => toW c 1 d fun k => k.rw d ^^^ k.rw r
  | .shl c d r => toW c 1 d fun k => mod16 ((k.rw d).toNat * 2 ^ ((k.rw r).toNat % 32))
  | .shr c d r => toW c 1 d fun k => mod16 ((k.rw d).toNat / 2 ^ ((k.rw r).toNat % 32))
  | .sar c d r => toW c 1 d fun k => mod16 ((k.rw d).toInt / 2 ^ ((k.rw r).toNat % 32))
  | .rol c d r => toW c 1 d fun k => (k.rw d).rotateLeft ((k.rw r).toNat % 16)
  | .not c d r => toW c 1 d fun k => mod16 (65535 - (k.rw r).toNat)
  | .neg c d r => toW c 1 d fun k => mod16 (0 - (k.rw r).toNat)
  | .movq c d u => toW c 1 d fun _ => mod16 u.val
  | .addq c d u => toW c 1 d fun k => mod16 ((k.rw d).toNat + u.val)
  | .subq c d u => toW c 1 d fun k => mod16 ((k.rw d).toNat - u.val)
  | .shlq c d u => toW c 1 d fun k => mod16 ((k.rw d).toNat * 2 ^ u.val)
  | .shrq c d u => toW c 1 d fun k => mod16 ((k.rw d).toNat / 2 ^ u.val)
  | .sarq c d u => toW c 1 d fun k => mod16 ((k.rw d).toInt / 2 ^ u.val)
  | .rolq c d u => toW c 1 d fun k => (k.rw d).rotateLeft u.val
  | .movi c d imm => toW c 2 d fun _ => imm
  | .addi c d r imm => toW c 2 d fun k => mod16 ((k.rw r).toNat + imm.toNat)
  | .andi c d r imm => toW c 2 d fun k => k.rw r &&& imm
  | .ori c d r imm => toW c 2 d fun k => k.rw r ||| imm
  | .xori c d r imm => toW c 2 d fun k => k.rw r ^^^ imm
  | _ => none

/-- The selections of R138 and the compares of R139. -/
def compares : Instr → Effect
  | .cmovnz c d r q => toW c 2 d fun k => if k.rw q ≠ 0 then k.rw r else k.rw d
  | .cmovz c d r q => toW c 2 d fun k => if k.rw q = 0 then k.rw r else k.rw d
  | .sel c d q a b => toW c 2 d fun k => if k.rw q ≠ 0 then k.rw a else k.rw b
  | .ceq c d a b => toW c 2 d fun k => rel (k.rw a = k.rw b)
  | .cne c d a b => toW c 2 d fun k => rel (k.rw a ≠ k.rw b)
  | .clt c d a b => toW c 2 d fun k => rel ((k.rw a).toInt < (k.rw b).toInt)
  | .cle c d a b => toW c 2 d fun k => rel ((k.rw a).toInt ≤ (k.rw b).toInt)
  | .cltu c d a b => toW c 2 d fun k => rel ((k.rw a).toNat < (k.rw b).toNat)
  | .cleu c d a b => toW c 2 d fun k => rel ((k.rw a).toNat ≤ (k.rw b).toNat)
  | .cadc c d a b => toW c 2 d fun k => rel (65536 ≤ (k.rw a).toNat + (k.rw b).toNat)
  | .cova c d a b => toW c 2 d fun k =>
      rel ((k.rw a).toInt + (k.rw b).toInt < -32768 ∨ 32767 < (k.rw a).toInt + (k.rw b).toInt)
  | .covs c d a b => toW c 2 d fun k =>
      rel ((k.rw a).toInt - (k.rw b).toInt < -32768 ∨ 32767 < (k.rw a).toInt - (k.rw b).toInt)
  | .cbit c d a b => toW c 2 d fun k => rel ((k.rw a).toNat / 2 ^ ((k.rw b).toNat % 16) % 2 = 1)
  | .ceqi c d a imm => toW c 2 d fun k => rel (k.rw a = imm)
  | .cnei c d a imm => toW c 2 d fun k => rel (k.rw a ≠ imm)
  | .clti c d a imm => toW c 2 d fun k => rel ((k.rw a).toInt < imm.toInt)
  | .cgti c d a imm => toW c 2 d fun k => rel (imm.toInt < (k.rw a).toInt)
  | .cltui c d a imm => toW c 2 d fun k => rel ((k.rw a).toNat < imm.toNat)
  | .cgtui c d a imm => toW c 2 d fun k => rel (imm.toNat < (k.rw a).toNat)
  | _ => none

/-- A write of S register `d`. -/
def toS (c : ClerkId) (len : Nat) (d : Reg4) (v : Clerk → Sheet) : Effect := some (c, len, fun k => k.ws d (v k))
/-- A write of S register `d` lane by lane, from the lanes of its old value and of S register `r`. -/
def lanes (c : ClerkId) (d r : Reg4) (f : Word → Word → Word) : Effect :=
  toS c 1 d fun k => Sheet.gen fun i => f ((k.rs d).lane i) ((k.rs r).lane i)

/-- The sheet instructions that work on 8 lanes of 16 bits whatever LM holds (R148, R151), and the reductions to a W register and
SGET (R150, R151). -/
def sheet : Instr → Effect
  | .smov c d r => lanes c d r fun _ b => b
  | .sand c d r => lanes c d r fun a b => a &&& b
  | .sor c d r => lanes c d r fun a b => a ||| b
  | .sxor c d r => lanes c d r fun a b => a ^^^ b
  | .sandn c d r => lanes c d r fun a b => a &&& ~~~b
  | .sbcast c d r => toS c 1 d fun k => Sheet.gen fun _ => k.rw r
  | .srot c d n => toS c 1 d fun k => Sheet.gen fun i => (k.rs d).lane ((i + n.val) % 8)
  | .scmov c d r q => toS c 2 d fun k => Sheet.gen fun i => if (k.rs q).lane i ≠ 0 then (k.rs r).lane i else (k.rs d).lane i
  | .sput c d r l => toS c 2 d fun k => Sheet.gen fun i => if i = l.val then k.rw r else (k.rs d).lane i
  | .sperm c d r p => toS c 2 d fun k => Sheet.gen fun i => (k.rs r).lane (((k.rs p).lane i).toNat % 8)
  | .sget c d r l => toW c 2 d fun k => (k.rs r).lane l.val
  | .ssum c d r => toW c 1 d fun k => clamp16 (((List.range 8).map fun i => ((k.rs r).lane i).toInt).sum)
  | .smaxr c d r => toW c 1 d fun k => mod16 (((List.range 8).map fun i => ((k.rs r).lane i).toInt).foldl max (-32768))
  | .sminr c d r => toW c 1 d fun k => mod16 (((List.range 8).map fun i => ((k.rs r).lane i).toInt).foldl min 32767)
  | _ => none

/-- Results of an instruction that LM governs: by 16-bit lanes in WRAP, in SAT, and by 32-bit lanes in PAIR (R147). -/
structure ByMode where
  c : ClerkId
  d : Reg4
  wrap : Clerk → Nat → Int
  sat : Clerk → Nat → Int
  pair : Clerk → Nat → Int

/-- Lane `i` of S register `r`, signed. -/
def sx (k : Clerk) (r : Reg4) (i : Nat) : Int := ((k.rs r).lane i).toInt
/-- Lane `i`, unsigned. -/
def zx (k : Clerk) (r : Reg4) (i : Nat) : Int := ((k.rs r).lane i).toNat
/-- 32-bit lane `j`, unsigned: lane 2j is its low word (R147). -/
def zx32 (k : Clerk) (r : Reg4) (j : Nat) : Int := zx k r (2 * j) + 65536 * zx k r (2 * j + 1)
/-- 32-bit lane `j`, signed. -/
def sx32 (k : Clerk) (r : Reg4) (j : Nat) : Int := zx k r (2 * j) + 65536 * sx k r (2 * j + 1)
/-- 1 where the relation holds, else 0. -/
def one (b : Prop) [Decidable b] : Int := if b then 1 else 0
/-- The nearest value from −32,768 to 32,767. -/
def sat (n : Int) : Int := if n < -32768 then -32768 else if 32767 < n then 32767 else n

/-- The instructions that STATUS.LM governs (R147, R148). -/
def laneMode : Instr → Option ByMode
  | .sadd c d r => some ⟨c, d, fun k i => sx k d i + sx k r i, fun k i => sat (sx k d i + sx k r i),
      fun k j => sx32 k d j + sx32 k r j⟩
  | .ssub c d r => some ⟨c, d, fun k i => sx k d i - sx k r i, fun k i => sat (sx k d i - sx k r i),
      fun k j => sx32 k d j - sx32 k r j⟩
  | .smin c d r => some ⟨c, d, fun k i => min (sx k d i) (sx k r i), fun k i => min (sx k d i) (sx k r i),
      fun k j => min (sx32 k d j) (sx32 k r j)⟩
  | .smax c d r => some ⟨c, d, fun k i => max (sx k d i) (sx k r i), fun k i => max (sx k d i) (sx k r i),
      fun k j => max (sx32 k d j) (sx32 k r j)⟩
  | .sabd c d r => some ⟨c, d, fun k i => ((zx k d i - zx k r i).natAbs : Int), fun k i => ((zx k d i - zx k r i).natAbs : Int),
      fun k j => ((zx32 k d j - zx32 k r j).natAbs : Int)⟩
  | .sshl c d u => some ⟨c, d, fun k i => zx k d i * 2 ^ u.val, fun k i => sat (sx k d i * 2 ^ u.val),
      fun k j => zx32 k d j * 2 ^ u.val⟩
  | .sshr c d u => some ⟨c, d, fun k i => zx k d i / 2 ^ u.val, fun k i => zx k d i / 2 ^ u.val,
      fun k j => zx32 k d j / 2 ^ u.val⟩
  | .ssar c d u => some ⟨c, d, fun k i => sx k d i / 2 ^ u.val, fun k i => sx k d i / 2 ^ u.val,
      fun k j => sx32 k d j / 2 ^ u.val⟩
  | .sceq c d r => some ⟨c, d, fun k i => one (sx k d i = sx k r i), fun k i => one (sx k d i = sx k r i),
      fun k j => one (sx32 k d j = sx32 k r j)⟩
  | .sclt c d r => some ⟨c, d, fun k i => one (sx k d i < sx k r i), fun k i => one (sx k d i < sx k r i),
      fun k j => one (sx32 k d j < sx32 k r j)⟩
  | .scltu c d r => some ⟨c, d, fun k i => one (zx k d i < zx k r i), fun k i => one (zx k d i < zx k r i),
      fun k j => one (zx32 k d j < zx32 k r j)⟩
  | _ => none

/-- The sheet of 16-bit lanes with the values given, modulo 2^16. -/
def lanes16 (f : Nat → Int) : Sheet := Sheet.gen fun i => BitVec.ofInt 16 (f i)
/-- The sheet of 32-bit lanes with the values given, modulo 2^32: lane 2j the low word of 32-bit lane j (R147). -/
def lanes32 (f : Nat → Int) : Sheet :=
  Sheet.gen fun i => if i % 2 = 0 then BitVec.ofInt 16 (f (i / 2)) else BitVec.ofInt 16 (f (i / 2) / 65536)
/-- What such an instruction writes to d under the clerk's lane mode; none under the reserved LM 11b. -/
def ByMode.result (b : ByMode) (k : Clerk) : Option Sheet :=
  if k.lm = 0 then some (lanes16 (b.wrap k)) else if k.lm = 1 then some (lanes16 (b.sat k))
  else if k.lm = 2 then some (lanes32 (b.pair k)) else none

/-- A write of accumulator `n` lane by lane, modulo 2^40. -/
def toA (c : ClerkId) (n : Fin 4) (v : Clerk → Nat → Int) : Effect :=
  some (c, 1, fun k => k.wa n (Acc.gen fun i => BitVec.ofInt 40 (v k i)))
/-- Lane `i` of accumulator `n`, signed. -/
def ax (k : Clerk) (n : Fin 4) (i : Nat) : Int := ((k.ra n).lane i).toInt

/-- The multiply-accumulates of R149 and the accumulator instructions of R150. -/
def accum : Instr → Effect
  | .smac c n a b => toA c n fun k i => ax k n i + sx k a i * sx k b i
  | .smacw c n a b => toA c n fun k i => ax k n i + sx k a i * (k.rw b).toInt
  | .smacuw c n a b => toA c n fun k i => ax k n i + zx k a i * (k.rw b).toInt
  | .aclr c n => toA c n fun _ _ => 0
  | .ahsum c n => toA c n fun k i => if i = 0 then ((List.range 8).map fun j => ax k n j).sum else 0
  | .aput c n r => toA c n fun k i => sx k r i
  | .aset c r n p => toA c n fun k i =>
      if p.val = 0 then ax k n i / 65536 * 65536 + zx k r i
      else if p.val = 1 then ax k n i / 2 ^ 32 * 2 ^ 32 + zx k r i * 65536 + ax k n i % 65536
      else zx k r i * 2 ^ 32 + ax k n i % 2 ^ 32
  | .aget c d n p => toS c 1 d fun k => lanes16 fun i =>
      if p.val = 0 then ax k n i else if p.val = 1 then ax k n i / 65536 else ax k n i / 2 ^ 32
  | .aout c d n u => toS c 1 d fun k => lanes16 fun i => sat ((ax k n i + if 0 < u.val then 2 ^ (u.val - 1) else 0) / 2 ^ u.val)
  | _ => none

/-- A product of two words on its way to PH:PL (R114, R138). -/
def product (c : ClerkId) (len : Nat) (p : Clerk → Int) : Effect :=
  some (c, len, fun k => { k with mulPend := k.mulPend ++ [(2, mod16 (p k), mod16 (p k / 65536))] })
/-- Lane products on their way to SPH:SPL (R114, R149). -/
def products (c : ClerkId) (p : Clerk → Nat → Int) : Effect :=
  some (c, 1, fun k => { k with smulPend := k.smulPend ++ [(3, lanes16 (p k), lanes16 fun i => p k i / 65536)] })

/-- The multiplies of R138 and R149: what becomes outstanding, and after how many retires it is written. -/
def multiply : Instr → Effect
  | .mul c a b => product c 1 fun k => (k.rw a).toInt * (k.rw b).toInt
  | .mulu c a b => product c 1 fun k => (k.rw a).toNat * (k.rw b).toNat
  | .muli c r imm => product c 2 fun k => (k.rw r).toInt * imm.toInt
  | .mului c r imm => product c 2 fun k => (k.rw r).toNat * imm.toNat
  | .smul c a b => products c fun k i => sx k a i * sx k b i
  | .smulu c a b => products c fun k i => zx k a i * zx k b i
  | _ => none

/-- The product of `a` and `b` at the second retire and PH:PL then: PC moves on, and nothing else differs (R138). -/
def PendsScalar (s : State) (i : Instr) (c : ClerkId) (len : Nat) (n : Int) : Prop :=
  Ready s c.val len → ∃ t, exec i s = .next t ∧ OnlyClerk s t c.val ∧
    (t.clerk c.val).pc = (s.clerk c.val).pc + BitVec.ofNat 20 len ∧
    (∀ r, (t.clerk c.val).rw r = (s.clerk c.val).rw r) ∧
    (t.clerk c.val).mulPend.getLast? = some (1, mod16 n, mod16 (n / 65536))
/-- The lane products at the third retire and SPH:SPL then (R149). -/
def PendsSheet (s : State) (i : Instr) (c : ClerkId) (n : Nat → Int) : Prop :=
  Ready s c.val 1 → ∃ t, exec i s = .next t ∧ OnlyClerk s t c.val ∧ (t.clerk c.val).pc = (s.clerk c.val).pc + 1 ∧
    (∀ r, (t.clerk c.val).rs r = (s.clerk c.val).rs r) ∧
    (t.clerk c.val).smulPend.getLast? = some (2, lanes16 n, lanes16 fun j => n j / 65536)

/-- An instruction of the table does its effect and retires: exec answers a state in which nothing but the clerk and its counters
differs, PC stands after the instruction, and the registers have changed as the table says. -/
def Does (tab : Instr → Effect) : Prop :=
  ∀ (s : State) (i : Instr) (c : ClerkId) (len : Nat) (f : Clerk → Clerk), tab i = some (c, len, f) → Ready s c.val len →
    ∃ t, exec i s = .next t ∧ OnlyClerk s t c.val ∧
      t.clerk c.val = (s.clerk c.val).retires ((s.clerk c.val).pc + BitVec.ofNat 20 len) f

end Sys2Proof.Claims

/-! ## The machine -/

/-- A step takes the command at the front of the queue and runs exec on it with the queue's rest (log 1). -/
def Obligations.StepRunsFrontCommand : Prop :=
  ∀ (c : Instr) (rest : List Instr) (s : State), step { s with pending := c :: rest } = exec c { s with pending := rest }

/-- On an empty queue the block idles (the model's choice, log 1). -/
def Obligations.StepIdlesOnEmptyQueue : Prop := ∀ s : State, s.pending = [] → step s = .next s

/-- Every command answers a next state: the device stops on none. -/
def Obligations.EveryCommandAnswers : Prop := ∀ (i : Instr) (s : State), ∃ t, exec i s = .next t

/-! ## Clerk instructions -/

/-- R137: each scalar instruction writes its result to d and nothing else, and raises no exception. -/
def Obligations.ScalarResults : Prop := Claims.Does Claims.scalar

/-- R138, R139: each selection and each compare writes its result to d and nothing else. -/
def Obligations.CompareResults : Prop := Claims.Does Claims.compares

/-- R148, R150, R151: the sheet instructions that LM does not govern, and the reductions to a word. -/
def Obligations.SheetResults : Prop := Claims.Does Claims.sheet

/-- R147, R148: each instruction that LM governs writes the result of the clerk's lane mode. Under the reserved LM 11b, for which the
spec states no result, it writes some sheet and completes as well (the model's choice, log 36). -/
def Obligations.LaneModeResults : Prop :=
  ∀ (s : State) (i : Instr) (b : Claims.ByMode), Claims.laneMode i = some b → Ready s b.c.val 1 →
    ∃ (t : State) (x : Sheet), exec i s = .next t ∧
      (∀ y, b.result (s.clerk b.c.val) = some y → x = y ∧ OnlyClerk s t b.c.val) ∧
      (b.result (s.clerk b.c.val) = none → OnlyClerk { s with free := s.free + 8 } t b.c.val) ∧
      t.clerk b.c.val = (s.clerk b.c.val).retires ((s.clerk b.c.val).pc + 1) (fun k => k.ws b.d x)

/-- R149, R150: the accumulator instructions work on 40-bit lanes modulo 2^40. -/
def Obligations.AccumulatorResults : Prop := Claims.Does Claims.accum

/-- R138, R149: each multiply completes: exec answers a next state with PC after it, the registers as they were, and its product
outstanding: one more retire to PH:PL, two to SPH:SPL. -/
def Sys2Proof.Claims.MultipliesComplete : Prop :=
  ∀ (s : State) (c : ClerkId) (a b r : Reg4) (imm : Word),
    let k := s.clerk c.val
    Claims.PendsScalar s (.mul c a b) c 1 ((k.rw a).toInt * (k.rw b).toInt) ∧
    Claims.PendsScalar s (.mulu c a b) c 1 ((k.rw a).toNat * (k.rw b).toNat) ∧
    Claims.PendsScalar s (.muli c r imm) c 2 ((k.rw r).toInt * imm.toInt) ∧
    Claims.PendsScalar s (.mului c r imm) c 2 ((k.rw r).toNat * imm.toNat) ∧
    Claims.PendsSheet s (.smul c a b) c (fun i => Claims.sx k a i * Claims.sx k b i) ∧
    Claims.PendsSheet s (.smulu c a b) c (fun i => Claims.zx k a i * Claims.zx k b i)

/-- R114, R138, R149: the whole effect of a multiply: beside its own product, the products outstanding before it come one retire
nearer, and those that are due are written. -/
def Sys2Proof.Claims.MultiplyEffects : Prop := Claims.Does Claims.multiply

/-- R114: the retire that an outstanding product waits for writes it: one NOP after the multiply PH:PL hold its product, two NOPs after
a sheet multiply SPH:SPL hold its. -/
def Sys2Proof.Claims.ProductsArrive : Prop :=
  ∀ (s : State) (c : ClerkId) (n : Nat) (l h : Word) (x y : Sheet), Ready s c.val 1 →
    ((s.clerk c.val).mulPend = [(n, l, h)] → n ≤ 1 → ∃ t, exec (.nop c) s = .next t ∧
      (t.clerk c.val).pl = l ∧ (t.clerk c.val).ph = h ∧ (t.clerk c.val).mulPend = []) ∧
    ((s.clerk c.val).smulPend = [(n, x, y)] → n ≤ 1 → ∃ t, exec (.nop c) s = .next t ∧
      (t.clerk c.val).spl = x ∧ (t.clerk c.val).sph = y ∧ (t.clerk c.val).smulPend = []) ∧
    ((s.clerk c.val).smulPend = [(n, x, y)] → 1 < n → ∃ t, exec (.nop c) s = .next t ∧
      (t.clerk c.val).spl = (s.clerk c.val).spl ∧ (t.clerk c.val).smulPend = [(n - 1, x, y)])

/-- R114, R138, R149: MUL, MULU, MULI, MULUI, SMUL and SMULU complete, what they leave outstanding, and when it arrives in
PH:PL and SPH:SPL. -/
def Obligations.ProductsOutstanding : Prop := Claims.MultipliesComplete ∧ Claims.MultiplyEffects ∧ Claims.ProductsArrive

namespace Sys2Proof.Claims

/-- A code address from an integer, modulo 2^20 (R140). -/
def code (n : Int) : CodeAddr := BitVec.ofInt 20 n
/-- The address of the word after an instruction of `len` words, before it wraps. -/
def nextOf (k : Clerk) (len : Nat) : Int := k.pc.toNat + len
/-- h[3:0]:l (R140). -/
def pairOf (k : Clerk) (h l : Reg4) : Int := 65536 * ((k.rw h).toNat % 16) + (k.rw l).toNat

/-- What a branch, call or return does (R140): whether it is taken, where to, and what it does to the return stack (R68). -/
structure Jump where
  c : ClerkId
  len : Nat
  taken : Clerk → Bool
  target : Clerk → Int
  calls : Bool
  returns : Bool
  predicted : Bool     -- a conditional branch, which the direction table predicts (R142)

/-- The table of R140. -/
def branches : Instr → Option Jump
  | .bnz c q disp => some ⟨c, 1, fun k => k.rw q != 0, fun k => nextOf k 1 + disp.toInt, false, false, q != 0⟩
  | .bz c q disp => some ⟨c, 1, fun k => k.rw q == 0, fun k => nextOf k 1 + disp.toInt, false, false, q != 0⟩
  | .bnzl c q disp => some ⟨c, 2, fun k => k.rw q != 0, fun k => nextOf k 2 + disp.toInt, false, false, q != 0⟩
  | .bzl c q disp => some ⟨c, 2, fun k => k.rw q == 0, fun k => nextOf k 2 + disp.toInt, false, false, q != 0⟩
  | .jmp c t => some ⟨c, 2, fun _ => true, fun _ => t.toNat, false, false, false⟩
  | .call c t => some ⟨c, 2, fun _ => true, fun _ => t.toNat, true, false, false⟩
  | .jmpr c h l => some ⟨c, 1, fun _ => true, fun k => pairOf k h l, false, false, false⟩
  | .callr c h l => some ⟨c, 1, fun _ => true, fun k => pairOf k h l, true, false, false⟩
  | .ret c => some ⟨c, 1, fun _ => true, fun k => pairOf k 13 14, false, true, false⟩
  | _ => none

/-- The link of a call: W13 := 000h:next[19:16], W14 := next[15:0] (R141). -/
def Jump.regs (j : Jump) (k : Clerk) : Clerk :=
  if j.calls then (k.ww 13 (mod16 (nextOf k j.len % 2 ^ 20 / 65536))).ww 14 (mod16 (nextOf k j.len)) else k
/-- The return stack after it: eight entries, the newest first (R68). -/
def Jump.stack (j : Jump) (k : Clerk) : List CodeAddr :=
  if j.calls then (code (nextOf k j.len) :: k.pred.rstack).take 8
  else if j.returns then k.pred.rstack.tail else k.pred.rstack

/-- A special register as MFS reads it, by its code (R152): EXC_PCH and EXC_VECH carry bits 19:16. -/
def special (k : Clerk) (n : Nat) : Word :=
  match n with
  | 0 => k.status | 1 => k.isp | 2 => k.excCause
  | 3 => mod16 k.excPc.toNat | 4 => mod16 (k.excPc.toNat / 65536)
  | 5 => mod16 k.excVec.toNat | 6 => mod16 (k.excVec.toNat / 65536)
  | 7 => mod16 k.ctx.toNat | 8 => k.rpt | 9 => k.pl | _ => k.ph
/-- A 20-bit address with its low word replaced. -/
def lowWord (a : CodeAddr) (v : Nat) : CodeAddr := BitVec.ofNat 20 (a.toNat / 65536 * 65536 + v)
/-- A 20-bit address with bits 19:16 replaced by bits 3:0 of a word. -/
def highWord (a : CodeAddr) (v : Nat) : CodeAddr := BitVec.ofNat 20 (v % 16 * 65536 + a.toNat % 65536)
/-- The newest outstanding scalar product completes (R116). -/
def scalarDone (k : Clerk) : Clerk :=
  match k.mulPend.getLast? with
  | none => k
  | some p => { k with pl := p.2.1, ph := p.2.2, mulPend := [] }
/-- The newest outstanding sheet product completes. -/
def sheetDone (k : Clerk) : Clerk :=
  match k.smulPend.getLast? with
  | none => k
  | some p => { k with spl := p.2.1, sph := p.2.2, smulPend := [] }

/-- Do two words agree in MODE, CLASS and LM? -/
def sameMode (v w : Word) : Prop := field v 13 2 = field w 13 2 ∧ field v 10 2 = field w 10 2

/-- MTS of special register `n` where it changes no mode (R91, R92, R116, R152, R153): the writes it makes. -/
def specialWrite (n : Nat) (v : Word) (k : Clerk) : Clerk :=
  match n with
  | 0 => { k with status := (k.status &&& 0x7C00) ||| (v &&& 0x800F) }
  | 1 => { k with isp := v }
  | 2 => { k with excCause := if v.getLsbD 15 then k.excCause &&& 0x7FFF else k.excCause }
  | 3 => { k with excPc := lowWord k.excPc v.toNat }
  | 4 => { k with excPc := highWord k.excPc v.toNat }
  | 5 => { k with excVec := lowWord k.excVec (v.toNat / 8 * 8) }
  | 6 => { k with excVec := highWord k.excVec v.toNat }
  | 7 => k
  | 8 => { k with rpt := v }
  | 9 => { scalarDone k with pl := v }
  | _ => { scalarDone k with ph := v }
/-- When MTS of register `n` is allowed and changes no mode: in SUPERVISOR, or RPT, PL, PH, or STATUS with IE and LVL kept. -/
def specialPlain (n : Nat) (v : Word) (k : Clerk) : Prop :=
  (n = 0 → sameMode v k.status ∧ field v 10 2 ≠ 3) ∧ (n = 7 → v.toNat % 256 = k.ctx.toNat) ∧
    (k.sup = true ∨ 8 ≤ n ∨ n = 0 ∧ bit v 15 = k.ie ∧ field v 0 4 = k.lvl)

/-- The system instructions and moves that change no mode (R152, R153, R159): the clerk, when it is allowed, its effect. -/
def system : Instr → Option (ClerkId × (Clerk → Prop) × (Clerk → Clerk))
  | .nop c => some (c, fun _ => True, fun k => k)
  | .mfs c d sr => some (c, fun k => k.sup = true ∨ sr.val < 2 ∨ 6 < sr.val, fun k => k.ww d (special k sr.val))
  | .mts c sr r => some (c, fun k => specialPlain sr.val (k.rw r) k, fun k => specialWrite sr.val (k.rw r) k)
  | .mfsp c d hi => some (c, fun _ => True, fun k => k.ws d (if hi then k.sph else k.spl))
  | .mtsp c hi r => some (c, fun _ => True, fun k =>
      if hi then { sheetDone k with sph := k.rs r } else { sheetDone k with spl := k.rs r })
  | .ei c => some (c, fun k => k.sup = true ∨ k.ie = true, fun k => { k with status := k.status ||| 0x8000 })
  | .di c => some (c, fun k => k.sup = true ∨ k.ie = false, fun k => { k with status := k.status &&& 0x7FFF })
  | .setlm c m => some (c, fun k => k.lm = m.val, fun k => k)
  | _ => none

/-- The mode-changing instructions where they are allowed (R91, R92, R153, R160): what becomes pending, and what STATUS holds at
once. -/
def modeChanging : Instr → Option (ClerkId × (State → Clerk → Prop) × (Clerk → ModeChange) × (Clerk → Word))
  | .setlm c m => some (c, fun _ k => k.lm ≠ m.val, fun _ => .lm (BitVec.ofNat 2 m.val), fun k => k.status)
  | .mts c sr r =>
    if sr = 7 then
      some (c, fun _ k => k.sup = true ∧ k.ep = false ∧ k.susp = false ∧ (k.rw r).toNat % 256 ≠ k.ctx.toNat,
        fun k => .ctx (BitVec.ofNat 8 (k.rw r).toNat), fun k => k.status)
    else if sr = 0 then
      some (c, fun s k => k.sup = true ∧ k.ep = false ∧ k.susp = false ∧ field (k.rw r) 10 2 ≠ 3 ∧
          ¬ sameMode (k.rw r) k.status ∧ (bit (k.rw r) 13 = k.guarded ∨ s.classLocked c.val = false),
        fun k => .status (k.rw r), fun k => (k.status &&& 0x7C00) ||| (k.rw r &&& 0x800F))
    else none
  | _ => none

/-- STATUS and CTX once a pending change has taken effect (R153, R159). -/
def changed (m : ModeChange) (k : Clerk) : Word × BitVec 8 :=
  match m with
  | .status v => ((k.status &&& 0x93FF) ||| (v &&& 0x6C00), k.ctx)
  | .lm v => ((k.status &&& 0xF3FF) ||| BitVec.ofNat 16 (1024 * v.toNat), k.ctx)
  | .ctx v => (k.status, v)

/-- A cause an instruction meets, in the priority of R129, and the argument (R92, R111, R118, R127, R128, R158, R159). -/
def trapped : Instr → Option (ClerkId × (State → Clerk → Prop) × Nat)
  | .mfs c _ sr => some (c, fun _ k => k.sup = false ∧ 2 ≤ sr.val ∧ sr.val ≤ 6, 2)
  | .mts c sr r => some (c, fun _ k => k.sup = false ∧ ((1 ≤ sr.val ∧ sr.val ≤ 7) ∨
      (sr.val = 0 ∧ field (k.rw r) 10 2 ≠ 3 ∧
        (bit (k.rw r) 15 ≠ k.ie ∨ field (k.rw r) 13 2 ≠ field k.status 13 2 ∨ field (k.rw r) 0 4 ≠ k.lvl))), 2)
  | .ei c => some (c, fun _ k => k.sup = false ∧ k.ie = false, 2)
  | .di c => some (c, fun _ k => k.sup = false ∧ k.ie = true, 2)
  | .reti c => some (c, fun _ k => k.sup = false, 2)
  | .synci c => some (c, fun _ k => k.ep = true, 0xC)
  | .ins c _ m => some (c, fun _ k => (k.portEA m 8).addr.toNat % 8 ≠ 0, 4)
  | .outs c _ m => some (c, fun _ k => (k.portEA m 8).addr.toNat % 8 ≠ 0, 4)
  | .recall c r => some (c, fun _ k => (k.rw r).toNat / 512 ≠ c.val, 0xC)
  | .ld c _ m => some (c, fun s k => s.dataTarget c.val (k.dataEA m 1).addr.toNat = none, 5)
  | .st c _ m => some (c, fun s k => s.storeTarget c.val (k.dataEA m 1).addr.toNat = none, 5)
  | .geti c _ h l => some (c, fun s k => (s.winWords c.val : Int) ≤ pairOf k h l, 7)
  | .getia c _ t => some (c, fun s _ => s.winWords c.val ≤ t.toNat, 7)
  | _ => none

/-- Words of an instruction (R134), for the instructions of `trapped`. -/
def lenOf : Instr → Nat
  | .ld _ _ m | .st _ _ m => match m with | .disp _ _ => 2 | _ => 1
  | .ins _ _ m | .outs _ _ m => match m with | .disp _ _ => 2 | _ => 1
  | .geti _ _ _ _ | .getia _ _ _ => 2
  | _ => 1

/-- The clerk as an exception leaves it (R115, R130): EXC_CAUSE with ACTIVE, EXC_PC, products complete, ISP four lower, SUPERVISOR
with IE 0 and LM WRAP, and PC at the vector base + 8 × cause. -/
def entered (k : Clerk) (cause arg : Nat) (epc : CodeAddr) : Clerk :=
  { sheetDone (scalarDone k) with
      excCause := BitVec.ofNat 16 (0x8000 + 256 * arg + cause), excPc := epc, isp := k.isp - 4,
      status := (k.status ||| 0x4000) &&& 0x73FF, pc := k.excVec + BitVec.ofNat 20 (8 * cause),
      waiting := none, grant := none, loadBuf := [] }
/-- Word `j` of the four that an entry pushes, first pushed first: PC high, PC low, STATUS, W15 (R130). -/
def frameWord (k : Clerk) (epc : CodeAddr) (j : Nat) : Word :=
  match j with
  | 0 => mod16 (epc.toNat / 65536) | 1 => mod16 epc.toNat | 2 => k.status | _ => k.rw 15
/-- Private-store address of that word: ISP is decremented before each, modulo 8000h. -/
def frameAddr (k : Clerk) (j : Nat) : Nat := (k.isp.toNat + 65536 - (j + 1)) % 0x8000

/-- The effect of an exception on clerk `c` of state `s`, whose registers stand as `k`: nothing but the clerk, its counters and the
frame's four words differs; the predictor is what R74 leaves. -/
def Entry (s t : State) (c : Nat) (k : Clerk) (cause arg : Nat) (epc : CodeAddr) : Prop :=
  ∃ p mm, OnlyClerk { s with mem := mm } t c ∧ t.clerk c = { entered k cause arg epc with pred := p } ∧
    (∀ j, j < 4 → t.peek (privKey c (frameAddr k j)) = frameWord k epc j) ∧
    (∀ a, (∀ j, j < 4 → a ≠ privKey c (frameAddr k j)) → t.peek a = s.peek a)

end Sys2Proof.Claims

/-- R140, R141, R68: each branch, call and return: PC, the link, the return stack; a branch that R142 resolves at decode leaves the
direction table and the history as they were. -/
def Obligations.BranchResults : Prop :=
  ∀ (s : State) (i : Instr) (j : Claims.Jump), Claims.branches i = some j → Ready s j.c.val j.len →
    let k := s.clerk j.c.val
    ∃ t p, exec i s = .next t ∧ OnlyClerk { s with free := s.free + 1 } t j.c.val ∧
      t.clerk j.c.val =
        { k.retires (Claims.code (if j.taken k then j.target k else Claims.nextOf k j.len)) j.regs with pred := p } ∧
      p.rstack = j.stack k ∧ (j.predicted = false → p.dir = k.pred.dir ∧ p.gh = k.pred.gh)

/-- R152, R153, R159: NOP, the special-register and product moves, EI, DI and SETLM, wherever the mode allows them and they change
no mode. -/
def Obligations.SystemResults : Prop :=
  ∀ (s : State) (i : Instr) (c : ClerkId) (ok : Clerk → Prop) (f : Clerk → Clerk),
    Claims.system i = some (c, ok, f) → Ready s c.val 1 → ok (s.clerk c.val) →
    ∃ t, exec i s = .next t ∧ OnlyClerk s t c.val ∧ t.clerk c.val = (s.clerk c.val).retires ((s.clerk c.val).pc + 1) f

/-- R76, R153, R160: a mode-changing instruction applies IE and LVL at once; MODE, CLASS, LM or CTX stay as they are until three
further instructions have retired. -/
def Sys2Proof.Claims.ModeChangePends : Prop :=
  ∀ (s : State) (i : Instr) (c : ClerkId) (ok : State → Clerk → Prop) (m : Clerk → ModeChange) (st : Clerk → Word),
    Claims.modeChanging i = some (c, ok, m, st) → Ready s c.val 1 → ok s (s.clerk c.val) →
    let k := s.clerk c.val
    ∃ t, exec i s = .next t ∧ OnlyClerk s t c.val ∧
      t.clerk c.val = { k.retires (k.pc + 1) (fun k => { k with status := st k }) with
        shadow := [{ left := 3, change := m k }] }

/-- R76, R78, R80, R85: a pending change whose shadow has ended takes effect: STATUS or CTX changes, the predictor is flushed, and every
younger instruction is squashed: those in flight, whose loads keep their read-buffer entries, and those that the command says have
issued since, which took a token each (log 5). No request waits. -/
def Sys2Proof.Claims.ModeChangeTakesEffect : Prop :=
  ∀ (s : State) (c : ClerkId) (m : ModeChange), s.clerkRuns c.val = true →
    (s.clerk c.val).shadow = [{ left := 0, change := m }] → (s.clerk c.val).waiting = none → s.winner c.val = none →
    let k := s.clerk c.val
    ∀ q : Fin 65, ∃ t p n, exec (.modeChangeEffect ⟨c, q⟩) s = .next t ∧ OnlyClerk { s with free := n } t c.val ∧
      t.clerk c.val = { k with
        shadow := [], status := (Claims.changed m k).1, ctx := (Claims.changed m k).2, pred := p, window := [],
        stray := k.stray + (k.window.filter InFlight.outstanding).length, tokens := k.tokens - 5 * min q.val (k.tokens / 5) }

/-- R76, R78, R153, R160: a mode-changing instruction takes its pending change, and the change takes effect once its shadow
has ended. -/
def Obligations.ModeChanges : Prop := Claims.ModeChangePends ∧ Claims.ModeChangeTakesEffect

/-- R92, R94, R98, R111, R118, R127, R128: an instruction that meets a cause does nothing else: it enters the exception, which
names it. -/
def Obligations.TrapsEnter : Prop :=
  ∀ (s : State) (i : Instr) (c : ClerkId) (ok : State → Clerk → Prop) (cause : Nat),
    Claims.trapped i = some (c, ok, cause) → Ready s c.val (Claims.lenOf i) → ok s (s.clerk c.val) →
    bit (s.clerk c.val).excCause 15 = false →
    ∃ t, exec i s = .next t ∧ Claims.Entry s t c.val (s.clerk c.val).issued cause 0 (s.clerk c.val).pc

/-- R128, R130, R159: SVC, and BREAK where debug has not armed break-to-halt, retire and enter their exception with the number in
ARG; EXC_PC and the frame name the next instruction. -/
def Sys2Proof.Claims.CallsEnter : Prop :=
  ∀ (s : State) (c : ClerkId) (n : Fin 32), Ready s c.val 1 → bit (s.clerk c.val).excCause 15 = false →
    let k := s.clerk c.val
    let r := k.retires (k.pc + 1) (fun k => k)
    (∃ t, exec (.svc c n) s = .next t ∧ Claims.Entry s t c.val r 0xA n.val (k.pc + 1)) ∧
    (k.armed = false → ∃ t, exec (.brk c n) s = .next t ∧ Claims.Entry s t c.val r 0xB n.val (k.pc + 1))

/-- R497: with break-to-halt armed, BREAK retires and halts the clerk for debug instead. -/
def Sys2Proof.Claims.ArmedBreakHalts : Prop :=
  ∀ (s : State) (c : ClerkId) (n : Fin 32), Ready s c.val 1 → (s.clerk c.val).armed = true →
    ∃ t, exec (.brk c n) s = .next t ∧ OnlyClerk s t c.val ∧
      t.clerk c.val = (s.clerk c.val).retires ((s.clerk c.val).pc + 1) (fun k => { k with dbgHalt := true })

/-- R128, R130, R159, R497: SVC and BREAK enter their exceptions; with break-to-halt armed BREAK halts. -/
def Obligations.CallsAndBreaks : Prop := Claims.CallsEnter ∧ Claims.ArmedBreakHalts

/-- R131: an exception while EXC_CAUSE.ACTIVE is 1 halts the clerk with its registers as they were; the AON fault log has a record
of the clerk, both causes and the address. -/
def Obligations.SecondExceptionHalts : Prop :=
  ∀ (s : State) (i : Instr) (c : ClerkId) (ok : State → Clerk → Prop) (cause : Nat),
    Claims.trapped i = some (c, ok, cause) → Ready s c.val (Claims.lenOf i) → ok s (s.clerk c.val) →
    bit (s.clerk c.val).excCause 15 = true →
    let k := s.clerk c.val
    ∃ t, exec i s = .next t ∧ t.clerk c.val = { k.issued with halted := true } ∧ t.mem = s.mem ∧
      (∀ c', c' ≠ c.val → t.clerk c' = s.clerk c') ∧ t.logCount = (s.logCount + 1) % 65536 ∧
      (t.faultLog.getD (s.logCount % 64) []).take 4 =
        [BitVec.ofNat 16 (0x2000 + if c.val < 128 then c.val else c.val - 128 + 0x80),
         BitVec.ofNat 16 (k.excCause.toNat % 256 * 256 + cause), BitVec.ofNat 16 k.pc.toNat, BitVec.ofNat 16 (k.pc.toNat / 65536)]

/-- R162: RETI pops the frame: W15, STATUS, PC low, PC high from ISP up, and runs on from there; a frame with RA resumes its
repetition. No more urgent request waits to be chained to (R339), and no recall waits for this return (R191). -/
def Obligations.RetiReturns : Prop :=
  ∀ (s : State) (c : ClerkId), Ready s c.val 1 → (s.clerk c.val).sup = true → (s.clerk c.val).susp = false →
    s.winner c.val = none →
    let k := s.clerk c.val
    let at_ := fun (j : Nat) => s.peek (privKey c.val (k.isp.toNat + j))
    let f := at_ 1
    let open_ := k.young.isSome
    ∃ t p, exec (.reti c) s = .next t ∧ OnlyClerk s t c.val ∧
      t.clerk c.val = { (k.issued.tickProducts.ww 15 (at_ 0)) with
        isp := k.isp + 4, pred := p,
        status := (f &&& 0xEC0F) ||| (if bit f 12 && open_ then 0x1000 else 0),
        pc := Claims.code (65536 * ((at_ 3).toNat % 16) + (at_ 2).toNat),
        rep := if bit f 9 then
            some { left := k.rpt.toNat, unint := bit f 8, started := true, issued := false, tooMany := false,
                   pfx := Claims.code (65536 * ((at_ 3).toNat % 16) + (at_ 2).toNat) }
          else none }

/-- R117, R154: a prefix latches its count, and the instruction at the next address is the one it repeats. A REPU of more than 16 is
judged with that instruction, for the order of R129. -/
def Sys2Proof.Claims.PrefixLatches : Prop :=
  ∀ (s : State) (c : ClerkId) (n : RepCount), Ready s c.val 1 →
    let k := s.clerk c.val
    let latched := fun (u : Bool) =>
      let r : RepState := { left := RepCount.value k n, unint := u, pfx := k.pc, started := false, issued := true,
                            tooMany := u && decide (16 < RepCount.value k n) }
      ({ k.issued with pc := k.pc + 1, rep := some r } : Clerk)
    (∃ t, exec (.repi c n) s = .next t ∧ OnlyClerk s t c.val ∧ t.clerk c.val = latched false) ∧
    (∃ t, exec (.repu c n) s = .next t ∧ OnlyClerk s t c.val ∧ t.clerk c.val = latched true)

/-- The clerk stands behind a prefix that has latched `x`: the next instruction, of `len` words, is the one it repeats. -/
def Sys2Proof.Claims.Repeating (s : State) (c : Nat) (x : RepState) (len : Nat) : Prop :=
  s.clerkRuns c = true ∧ (s.clerk c).waiting = none ∧ (s.clerk c).window = [] ∧ (s.clerk c).rep = some x ∧ x.issued = true ∧
    (s.clerk c).shadow = [] ∧ s.fetchable c len = true ∧ (s.clerk c).stepping = false ∧ (s.clerk c).haltReq = false

/-- R118: a REPU with a count above 16 raises PREFIX at the prefix, before anything of its instruction is executed. -/
def Sys2Proof.Claims.PrefixTooLarge : Prop :=
  ∀ (s : State) (i : Instr) (c : ClerkId) (len : Nat) (f : Clerk → Clerk) (x : RepState),
    Claims.scalar i = some (c, len, f) ∨ Claims.compares i = some (c, len, f) ∨ Claims.sheet i = some (c, len, f) →
    Claims.Repeating s c.val x len → x.tooMany = true → bit (s.clerk c.val).excCause 15 = false →
    ∃ t, exec i s = .next t ∧
      Claims.Entry s t c.val { s.clerk c.val with rep := none, entry := none, grant := none, loadBuf := [], lastLoad := [] } 3 0 x.pfx

/-- R119: a count of 0 executes the instruction zero times; prefix and instruction retire as one, with no other effect. So of every
instruction of a clerk that may stand behind a prefix. -/
def Sys2Proof.Claims.CountZeroDoesNothing : Prop :=
  ∀ (s : State) (i : Instr) (c : ClerkId) (x : RepState), (∀ u, exec i u = .next (u.clerkInsn c.val i)) →
    isTrap i = false → repForbids (s.clerk c.val) i = false → Claims.Repeating s c.val x (insnLen i) → x.left = 0 →
    x.tooMany = false →
    let k := s.clerk c.val
    ∃ t, exec i s = .next t ∧ OnlyClerk s t c.val ∧
      t.clerk c.val = { k with rep := none, pc := k.pc + BitVec.ofNat 20 (insnLen i), entry := none, grant := none, loadBuf := [], lastLoad := [] }

/-- R117, R122: the instruction behind the prefix executes as often as the count that the prefix latched says, also where it writes
the register that the count came from. REPU: nothing stops it between two iterations. -/
def Sys2Proof.Claims.RepeatsAsLatched : Prop :=
  ∀ (s : State) (i : Instr) (c : ClerkId) (len : Nat) (f : Clerk → Clerk) (x : RepState),
    Claims.scalar i = some (c, len, f) ∨ Claims.compares i = some (c, len, f) ∨ Claims.sheet i = some (c, len, f) →
    Claims.Repeating s c.val x len → x.tooMany = false → x.unint = true →
    let k := s.clerk c.val
    let after := (List.range x.left).foldl (fun k _ => f k) k
    ∃ t, exec i s = .next t ∧ OnlyClerk s t c.val ∧ (t.clerk c.val).rep = none ∧ (t.clerk c.val).pc = k.pc + BitVec.ofNat 20 len ∧
      (t.clerk c.val).w = after.w ∧ (t.clerk c.val).s = after.s

/-- R117 to R119, R154: what a prefix latches, a count that is too large, a repetition of 0, and a repetition that runs. -/
def Obligations.Repetitions : Prop := Claims.PrefixLatches ∧ Claims.PrefixTooLarge ∧ Claims.CountZeroDoesNothing ∧ Claims.RepeatsAsLatched

/-- R161: WAIT retires at once where a source enabled for the clerk is pending, whatever IE holds; an event that moderation held
for the clerk is pending then (R332). -/
def Sys2Proof.Claims.WaitRetires : Prop :=
  ∀ (s : State) (c : ClerkId), Ready s c.val 1 → (s.releaseFor c.val).pendingFor c.val ≠ [] →
    ∃ t, exec (.wait c) s = .next t ∧ OnlyClerk { s with icu := (s.releaseFor c.val).icu } t c.val ∧
      t.clerk c.val = (s.clerk c.val).retires ((s.clerk c.val).pc + 1) (fun k => k)

/-- R99: DSYNC retires once no posted write of the clerk is outstanding. -/
def Sys2Proof.Claims.DsyncRetires : Prop :=
  ∀ (s : State) (c : ClerkId), Ready s c.val 1 → (s.clerk c.val).held = [] →
    (∀ m ∈ s.msgs, ∀ b x, m ≠ .push (8 + c.val) b x) →
    ∃ t, exec (.dsync c) s = .next t ∧ OnlyClerk s t c.val ∧
      t.clerk c.val = (s.clerk c.val).retires ((s.clerk c.val).pc + 1) (fun k => k)

/-- R84: SYNCI with an empty queue retires, and no group cache of the die holds a line any more that the queue wrote; memory and
registers stay. -/
def Sys2Proof.Claims.SynciInvalidates : Prop :=
  ∀ (s : State) (c : ClerkId), Ready s c.val 1 → (s.clerk c.val).ep = false → (s.clerk c.val).codeQueue = [] →
    ∃ t, exec (.synci c) s = .next t ∧ t.mem = s.mem ∧ (t.clerk c.val).codeDirty = [] ∧
      (t.clerk c.val).pc = (s.clerk c.val).pc + 1 ∧ (∀ r, (t.clerk c.val).rw r = (s.clerk c.val).rw r) ∧
      (∀ k, counterKey c.val k = false → t.reg k = s.reg k) ∧
      (∀ g line, g / 8 = clerkDie c.val → line ∈ (s.clerk c.val).codeDirty → (t.lineCache g).lookup line = none)

/-- R84, R99, R161: WAIT, DSYNC and SYNCI. -/
def Obligations.Barriers : Prop := Claims.WaitRetires ∧ Claims.DsyncRetires ∧ Claims.SynciInvalidates

namespace Sys2Proof.Claims

/-- The clerk after an instruction that waited has retired with effect `f` on its registers: it issued before (R59, R71). -/
def resumes (k : Clerk) (next : CodeAddr) (f : Clerk → Clerk) : Clerk :=
  { f { k with waiting := none, grant := none, loadBuf := [], lastLoad := [] } with pc := next }.tickProducts
/-- The clerk that has issued instruction `i` and waits with it. -/
def waits (k : Clerk) (kind : WaitKind) (i : Instr) : Clerk :=
  { k.issued with waiting := some { kind := kind, insn := i } }
/-- An effect `e` between the issue of an instruction of clerk `c` and its retire: counters and clerk aside, nothing else differs. -/
def Through (s t : State) (c : Nat) (e : State → State) : Prop :=
  ∃ a, OnlyClerk s a c ∧ a.clerk c = (s.clerk c).issued ∧ OnlyClerk (e a) t c
/-- Clerk `c` waits with an instruction that can go on: its die runs, nothing is in flight behind it, no repetition or mode change is
in progress, nobody else waits, and debug asks for no stop. -/
def WaitsWith (s : State) (c : Nat) (kind : WaitKind) (i : Instr) (len : Nat) : Prop :=
  s.clerkRuns c = true ∧ (s.clerk c).waiting = some { kind := kind, insn := i } ∧ (s.clerk c).rep = none ∧ (s.clerk c).window = [] ∧
    (s.clerk c).shadow = [] ∧ s.fetchable c len = true ∧ (s.clerk c).stepping = false ∧ (s.clerk c).haltReq = false ∧
    s.fbPend = [] ∧ ∀ c', c' ≠ c → (s.clerk c').waiting = none

/-- The data address of a form, before it wraps (R143). -/
def dataAddr (k : Clerk) (m : AddrMode) (step : Int) : Int :=
  match m with
  | .ind b | .postInc b | .postDec b => (k.rw b).toNat
  | .disp b x => (k.rw b).toNat + x.toNat
  | .preDec b => if b = 0 then 0 else (k.rw b).toNat - step
/-- The base register after it; W0 takes no update. -/
def dataBase (m : AddrMode) (step : Int) (k : Clerk) : Clerk :=
  match m with
  | .ind _ | .disp _ _ => k
  | .postInc b => k.ww b (mod16 ((k.rw b).toNat + step))
  | .postDec b | .preDec b => k.ww b (mod16 ((k.rw b).toNat - step))
/-- Words of an instruction with a data address. -/
def dataLen (m : AddrMode) : Nat := match m with | .disp _ _ => 2 | _ => 1
/-- The port number of a form, before it wraps, its base update and its length (R144). -/
def portAddr (k : Clerk) : PortMode → Nat
  | .ind b | .postInc b => (k.rw b).toNat
  | .disp b x => ((k.rw b).toNat + x.toNat) % 65536
def portBase (m : PortMode) (step : Int) (k : Clerk) : Clerk :=
  match m with
  | .ind _ | .disp _ _ => k
  | .postInc b => k.ww b (mod16 ((k.rw b).toNat + step))
def portLen (m : PortMode) : Nat := match m with | .disp _ _ => 2 | _ => 1

/-- What a store writes, and where: clerk, words of the instruction, address before it wraps, words stored, base update. -/
def storing (s : State) : Instr → Option (ClerkId × Nat × Int × List Word × (Clerk → Clerk))
  | .st c r m => let k := s.clerk c.val; some (c, dataLen m, dataAddr k m 1, [k.rw r], dataBase m 1)
  | .sts c r m => let k := s.clerk c.val
                  some (c, dataLen m, dataAddr k m 8, (List.range 8).map (k.rs r).lane, dataBase m 8)
  | .sti c b x imm => let k := s.clerk c.val; some (c, 3, (k.rw b).toNat + x.toNat, [imm], fun k => k)
  | _ => none

/-- A word of a window's target, where it can be read: no poisoned bank and no uncorrectable burst (R97, R100). -/
def windowWord (s : State) : Target → Option Word
  | .priv _ => none
  | .shared d a => if s.poisoned d (a / 65536) then none else some (s.peek (sharedKey d a))
  | .ddr a => if s.ddrUe a 1 then none else some (s.peek (ddrKey a))
  | .peer p a => some (s.peek (privKey p a))
/-- What the issue of a window load takes beside the clerk: a DDR load takes a stamp of its route at HUB, brings the pair's domain up,
and its request crosses to HUB (R357, R443). -/
def loadStamp (s : State) (c : Nat) (t : Target) : State :=
  match t with
  | .ddr a => ((s.takeStamp 0 (s.clerkRoute c) 1).ddrServe a).passN 1 (clerkDie c) 0
  | _ => s
/-- May it issue at once: a read-buffer entry is free, DDR5 can be reached and the route has a stamp left (R71, R262, R445)? -/
def loadMay (s : State) (c : Nat) (t : Target) : Prop :=
  (s.clerk c).stray < 8 ∧
    (t.isDdr = true → s.undeliverable (clerkDie c) 0 = none ∧ s.hasStamp 0 (s.clerkRoute c) 1 = true)
/-- The data of a DDR load has crossed from HUB (R249). -/
def loadData (s : State) (c : Nat) (t : Target) : State :=
  match t with
  | .ddr a => s.passN (ddrParcels a 1) 0 (clerkDie c)
  | _ => s
/-- A message that `p` names has come to its unit: the oldest, which no older one stands before and the fabric has carried; `u` is the
state once it is taken (R252, R254, R258). -/
def Arrives (s : State) (p : Msg → Bool) (m : Msg) (u : State) : Prop := ∃ v, s.nextIn p = (some m, v) ∧ u = v.takeOut m
/-- Is it a register of the fabric block, whose counters change with every parcel sent (R274)? -/
def fabricReg (k : Nat) : Prop := 0x7400 ≤ k ∧ k < 0x7800
/-- Registers, messages and events on their way, and the fabric aside, nothing differs. -/
def Sends (s t : State) : Prop :=
  ∃ rg ms ge rt lk, t = { s with regs := rg, msgs := ms, globalEvs := ge, routers := rt, links := lk }
/-- No register but those of the list and the fabric's own has changed. -/
def Keeps (s t : State) (ks : List Nat) : Prop := ∀ k, k ∉ ks → ¬ fabricReg k → t.reg k = s.reg k
/-- Is it a reply to a global read of requester `w`? -/
def replyTo (w : Nat) : Msg → Bool
  | .portReply x _ _ _ => x == w
  | _ => false

/-- Clerk-local ports whose read is their stored fields and nothing more, with those fields: the window registers (R94, R97). -/
def plainPort (p : Nat) : Option Word :=
  if p = 0x520 then some 0x1F3F else if p = 0x521 ∨ p = 0x522 then some 0xFFFF
  else if 0x500 ≤ p ∧ p < 0x520 ∧ p % 4 = 0 then some 0xE01F else none
/-- The selectors of the performance counters, ports 00C2h to 00C5h (R86). -/
def pcntSelPort (p : Nat) : Prop := 0xC2 ≤ p ∧ p < 0xC6

/-- A one-word port write: clerk, words, port, word, base update. -/
def writing (s : State) : Instr → Option (ClerkId × Nat × Nat × Word × (Clerk → Clerk))
  | .outPort c r m => let k := s.clerk c.val; some (c, portLen m, portAddr k m, k.rw r, portBase m 1)
  | .outi c b x imm => let k := s.clerk c.val; some (c, 3, ((k.rw b).toNat + x.toNat) % 65536, imm, fun k => k)
  | _ => none
/-- A pop through a slot: clerk, words, slot, destination, base update (R180, R206). -/
def popping (s : State) : Instr → Option (ClerkId × Nat × Nat × Reg4 × (Clerk → Clerk))
  | .ins c d m =>
    let p := portAddr (s.clerk c.val) m
    if 0x100 ≤ p ∧ p < 0x500 ∧ p % 16 = 0 then some (c, portLen m, (p - 0x100) / 16, d, portBase m 8) else none
  | .slotPop c i d => some (c, 1, i.val, d, fun k => k)
  | _ => none

/-- The clerk, register and code address of GETI and GETIA. -/
def getting (s : State) : Instr → Option (ClerkId × Reg4 × CodeAddr)
  | .geti c d h l => some (c, d, code (pairOf (s.clerk c.val) h l))
  | .getia c d a => some (c, d, a)
  | _ => none
/-- The clerk, register and code address of PUTI and PUTIA. -/
def putting (s : State) : Instr → Option (ClerkId × Reg4 × CodeAddr)
  | .puti c r h l => some (c, r, code (pairOf (s.clerk c.val) h l))
  | .putia c r a => some (c, r, a)
  | _ => none

end Sys2Proof.Claims

/-- R96, R107, R143: LD and LDS from the private store: the words at the address, the base update, PC; where base and destination
are the same W register only the loaded value is written. -/
def Sys2Proof.Claims.PrivateLoads : Prop :=
  ∀ (s : State) (c : ClerkId) (d : Reg4) (m : AddrMode), Ready s c.val (Claims.dataLen m) →
    let k := s.clerk c.val
    let next := k.pc + BitVec.ofNat 20 (Claims.dataLen m)
    (∀ a : Nat, a < 0x8000 → Claims.dataAddr k m 1 % 65536 = a →
      ∃ t, exec (.ld c d m) s = .next t ∧ OnlyClerk s t c.val ∧
        t.clerk c.val = { k.retires next (fun k => (Claims.dataBase m 1 k).ww d (s.peek (privKey c.val a))) with
          lastLoad := [d.val] }) ∧
    (∀ a : Nat, a + 7 < 0x8000 → Claims.dataAddr k m 8 % 65536 = a →
      ∃ t, exec (.lds c d m) s = .next t ∧ OnlyClerk s t c.val ∧
        t.clerk c.val = { k.retires next (fun k =>
            (Claims.dataBase m 8 k).ws d (Sheet.gen fun i => s.peek (privKey c.val (a + i)))) with lastLoad := [16 + d.val] })

/-- R96, R107, R143, R146: ST, STS and STI to the private store write their words at the address computed and no other word of any
memory; the base takes its update. -/
def Sys2Proof.Claims.PrivateStores : Prop :=
  ∀ (s : State) (i : Instr) (c : ClerkId) (len a : Nat) (n : Int) (ws : List Word) (f : Clerk → Clerk),
    Claims.storing s i = some (c, len, n, ws, f) → Ready s c.val len → (s.clerk c.val).ep = false →
    n % 65536 = a → a + ws.length ≤ 0x8000 →
    ∃ t mm, exec i s = .next t ∧ OnlyClerk { s with mem := mm } t c.val ∧
      t.clerk c.val = (s.clerk c.val).retires ((s.clerk c.val).pc + BitVec.ofNat 20 len) f ∧
      (∀ j, j < ws.length → t.peek (privKey c.val (a + j)) = ws.getD j 0) ∧
      (∀ x, (∀ j, j < ws.length → x ≠ privKey c.val (a + j)) → t.peek x = s.peek x)

/-- R174: inside an epoch a store to the private store is journalled first: the old word, under the current epoch's tag. -/
def Sys2Proof.Claims.StoresJournal : Prop :=
  ∀ (s : State) (c : ClerkId) (r : Reg4) (m : AddrMode) (a : Nat), Ready s c.val (Claims.dataLen m) →
    let k := s.clerk c.val
    k.ep = true → k.journal.length < 256 → Claims.dataAddr k m 1 % 65536 = a → a < 0x8000 →
    ∃ t mm, exec (.st c r m) s = .next t ∧ OnlyClerk { s with mem := mm } t c.val ∧
      t.clerk c.val = { k.retires (k.pc + BitVec.ofNat 20 (Claims.dataLen m)) (Claims.dataBase m 1) with
        journal := { tag := k.curTag c.val, cells := [(a, s.peek (privKey c.val a))] } :: k.journal } ∧
      t.peek (privKey c.val a) = k.rw r ∧ (∀ x, x ≠ privKey c.val a → t.peek x = s.peek x)

/-- R71, R96, R537: a load from a window issues into a read-buffer entry and waits for its data; when the data is in, it writes the word of
the target it was issued to, whatever the window maps by then, takes its base update and retires. -/
def Sys2Proof.Claims.WindowLoads : Prop :=
  ∀ (s : State) (c : ClerkId) (d : Reg4) (m : AddrMode) (a : Nat) (g : Target),
    let k := s.clerk c.val
    g.isWindow = true →
    (Claims.dataAddr k m 1 % 65536 = a → s.dataTarget c.val a = some g →
      Ready s c.val (Claims.dataLen m) → Claims.loadMay s c.val g →
      ∃ t, exec (.ld c d m) s = .next t ∧ OnlyClerk (Claims.loadStamp s c.val g) t c.val ∧
        t.clerk c.val = { Claims.waits k .window (.ld c d m) with loadBuf := [(g, 1)] }) ∧
    (∀ v b, Claims.WaitsWith s c.val .window (.ld c d m) (Claims.dataLen m) → k.loadBuf = [(g, 1)] →
      Claims.windowWord s g = some v → Claims.dataAddr k m 1 % 65536 = a → 0x8000 ≤ a →
      ∃ t, exec (.windowLoadReturn c 0 (false, b)) s = .next t ∧ OnlyClerk (Claims.loadData s c.val g) t c.val ∧
        t.clerk c.val = Claims.resumes k (k.pc + BitVec.ofNat 20 (Claims.dataLen m))
          (fun k => (Claims.dataBase m 1 k).ww d v))

/-- R100, R129: an uncorrectable reply raises DATA_ERR with the destination unchanged, and its burst is recorded as detected (R403). -/
def Sys2Proof.Claims.BadLoads : Prop :=
  ∀ (s : State) (c : ClerkId) (d : Reg4) (m : AddrMode) (a : Nat) (b : Bool),
    let k := s.clerk c.val
    Claims.WaitsWith s c.val .window (.ld c d m) (Claims.dataLen m) → k.loadBuf = [(.ddr a, 1)] → bit k.excCause 15 = false →
    let u := (Claims.loadData s c.val (.ddr a)).ddrDemand a 1 true
    ∃ t, exec (.windowLoadReturn c 0 (true, b)) s = .next t ∧
      Claims.Entry u t c.val { k with waiting := none, grant := none, lastLoad := [] } 8 0 k.pc

/-- R71, R96, R100, R107, R143: loads from the private store and from a window. -/
def Obligations.Loads : Prop := Claims.PrivateLoads ∧ Claims.WindowLoads ∧ Claims.BadLoads

/-- R97, R99: a store to a SHARED window with WR = 1, outside an epoch, writes the word of the die's shared store and nothing else
of memory. -/
def Sys2Proof.Claims.SharedStores : Prop :=
  ∀ (s : State) (i : Instr) (c : ClerkId) (len : Nat) (n : Int) (v : Word) (f : Clerk → Clerk) (d a : Nat),
    Claims.storing s i = some (c, len, n, [v], f) → Ready s c.val len → (s.clerk c.val).ep = false →
    s.storeTarget c.val (n % 65536).toNat = some (.shared d a) → s.poisoned d (a / 65536) = false →
    ∃ t mm, exec i s = .next t ∧ OnlyClerk { s with mem := mm } t c.val ∧
      t.clerk c.val = (s.clerk c.val).retires ((s.clerk c.val).pc + BitVec.ofNat 20 len) f ∧
      t.peek (sharedKey d a) = v ∧ (∀ x, x ≠ sharedKey d a → t.peek x = s.peek x)

/-- R103, R144, R251: IN of a clerk-local port that only reads back its fields; a global IN whose route has a stamp goes out as a parcel,
is read where it arrives and waits, and its reply brings the word, 0000h with ERR (R106, R263). The global port here is PST_SEL. -/
def Obligations.PortReads : Prop :=
  ∀ (s : State) (c : ClerkId) (d : Reg4) (m : PortMode),
    let k := s.clerk c.val
    let p := Claims.portAddr k m
    let len := Claims.portLen m
    let done := fun (v : Word) (k : Clerk) => (Claims.portBase m 1 k).ww d v
    (∀ mask, Claims.plainPort p = some mask → Ready s c.val len → Calm s →
      ∃ t, exec (.inPort c d m) s = .next t ∧ OnlyClerk s t c.val ∧
        t.clerk c.val = k.retires (k.pc + BitVec.ofNat 20 len) (done (s.reg (0x100000 + 0x1000 * c.val + p) &&& mask))) ∧
    (p = Reg.PST_SEL → Ready s c.val len → Calm s → 128 ≤ c.val → s.hasStamp 0 (s.clerkRoute c.val) 0 = true →
      ∃ t, exec (.inPort c d m) s = .next t ∧
        Claims.Through s t c.val (fun a => (a.takeStamp 0 (s.clerkRoute c.val) 0).send
          (.portReply c.val 0 [s.selOf c.val Reg.PST_SEL &&& 0x00FF] false)) ∧
        t.clerk c.val = Claims.waits k .portReply (.inPort c d m)) ∧
    (∀ err e v dd u, p = Reg.PST_SEL → Claims.Arrives s (Claims.replyTo c.val) (.portReply c.val dd [v] e) u →
      Claims.WaitsWith u c.val .portReply (.inPort c d m) len → (u.clerk c.val).ep = false → u.clerk c.val = k →
      ∃ t, exec (.globalPortReadReply ⟨c.val, by have := c.isLt; omega⟩ err) s = .next t ∧ OnlyClerk u t c.val ∧
        t.clerk c.val = Claims.resumes k (k.pc + BitVec.ofNat 20 len) (done (if err || e then 0 else v)))

/-- R92, R102, R144, R146, R173, R175: OUT and OUTI of a counter selector: in SUPERVISOR it takes the word's two EVT fields, in TASK
the write is denied and counted, and inside an epoch it joins the held writes. -/
def Sys2Proof.Claims.PortWrites : Prop :=
  ∀ (s : State) (i : Instr) (c : ClerkId) (len p : Nat) (v : Word) (f : Clerk → Clerk),
    Claims.writing s i = some (c, len, p, v, f) → Claims.pcntSelPort p → Ready s c.val len → Calm s →
    let k := s.clerk c.val
    let key := 0x100000 + 0x1000 * c.val + p
    (k.ep = false → k.sup = true → ∃ t, exec i s = .next t ∧
      OnlyClerk (s.setReg key (v &&& 0x3F3F ||| s.reg key &&& 0xC0C0)) t c.val ∧
      t.clerk c.val = k.retires (k.pc + BitVec.ofNat 20 len) f) ∧
    (k.ep = false → k.sup = false → ∃ t, exec i s = .next t ∧
      Claims.Through s t c.val (fun a => a.portViolation c.val true p) ∧
      t.clerk c.val = k.retires (k.pc + BitVec.ofNat 20 len) f) ∧
    (k.ep = true → k.sup = true → k.held.length < 16 → ∃ t, exec i s = .next t ∧ OnlyClerk s t c.val ∧
      t.clerk c.val = { k.retires (k.pc + BitVec.ofNat 20 len) f with
        held := k.held ++ [{ tag := k.curTag c.val, sup := true, port := p, vals := [v] }] })

/-- R106, R442, R443: OUT and OUTI of a global port take a stamp of the clerk's route; without one left the clerk waits. The port
here is a postmaster's own selection register PST_SEL. -/
def Sys2Proof.Claims.GlobalPortWrites : Prop :=
  ∀ (s : State) (i : Instr) (c : ClerkId) (len : Nat) (v : Word) (f : Clerk → Clerk),
    Claims.writing s i = some (c, len, Reg.PST_SEL, v, f) → Ready s c.val len → Calm s → 128 ≤ c.val →
    (s.clerk c.val).ep = false →
    let k := s.clerk c.val
    let rt := s.clerkRoute c.val
    (s.hasStamp 0 rt 0 = true → ∃ t, exec i s = .next t ∧
      OnlyClerk { s.takeStamp 0 rt 0 with sels := s.sels.set (ownKey c.val Reg.PST_SEL) ((v &&& 0xFF) |||
        (s.selOf c.val Reg.PST_SEL &&& 0xFF00)) } t c.val ∧
      t.clerk c.val = k.retires (k.pc + BitVec.ofNat 20 len) f) ∧
    (s.hasStamp 0 rt 0 = false → ∃ t, exec i s = .next t ∧ OnlyClerk (s.noteWait rt 0) t c.val ∧
      t.clerk c.val = Claims.waits k .postage i)

/-- R206: a pop through a slot bound to POP, outside an epoch, takes the oldest sheet of its mailbag, here a good ordinary sheet at
the head, and no other mailbag changes. -/
def Sys2Proof.Claims.SlotPops : Prop :=
  ∀ (s : State) (i : Instr) (c : ClerkId) (len slot n : Nat) (d : Reg4) (f : Clerk → Clerk) (x : BagItem) (rest : List BagItem),
    Claims.popping s i = some (c, len, slot, d, f) → Ready s c.val len → Calm s → (s.clerk c.val).ep = false →
    field (s.reg (Reg.SL_CFG c.val slot)) 14 2 = 1 →
    128 * field (s.reg (Reg.SL_CFG c.val slot)) 7 3 + field (s.reg (Reg.SL_CFG c.val slot)) 0 7 = n →
    bit (s.reg (Reg.MB_CFG n)) 15 = true → (s.bag n).head = x :: rest → x.tag = 0 → x.flips = 0 →
    ∃ t, exec i s = .next t ∧ OnlyClerk { s with bags := t.bags } t c.val ∧
      t.clerk c.val = (s.clerk c.val).retires ((s.clerk c.val).pc + BitVec.ofNat 20 len) (fun k => (f k).ws d x.data) ∧
      (t.bag n).head ++ (t.bag n).tail = rest ++ (s.bag n).tail ∧ (t.bag n).spill = (s.bag n).spill ∧
      (∀ m, m ≠ n → t.bag m = s.bag m)

/-- R203, R205: OUTS through a slot bound to PUSH of a mailbag of the clerk's own die with room puts the sheet last; only the
mailbag and its high-water mark change. -/
def Sys2Proof.Claims.SlotPushes : Prop :=
  ∀ (s : State) (c : ClerkId) (r : Reg4) (m : PortMode) (slot n : Nat),
    let k := s.clerk c.val
    Ready s c.val (Claims.portLen m) → Calm s → k.ep = false →
    Claims.portAddr k m = 0x100 + 16 * slot → slot < 64 →
    field (s.reg (Reg.SL_CFG c.val slot)) 14 2 = 2 →
    128 * field (s.reg (Reg.SL_CFG c.val slot)) 7 3 + field (s.reg (Reg.SL_CFG c.val slot)) 0 7 = n →
    n / 128 = clerkDie c.val → bit (s.reg (Reg.MB_CFG n)) 15 = true → (s.bag n).held < s.bagCap n → (s.bag n).tail.length < 8 →
    s.savedBags.find? n = none → (∀ e ∈ s.arrivalsOf (n / 128), e.1 ≠ n) →
    ∃ t u, exec (.outs c r m) s = .next t ∧ OnlyClerk u t c.val ∧ u = { s with bags := u.bags, regs := u.regs } ∧
      t.clerk c.val = k.retires (k.pc + BitVec.ofNat 20 (Claims.portLen m)) (Claims.portBase m 8) ∧
      (t.bag n).head ++ (t.bag n).tail = (s.bag n).head ++ (s.bag n).tail ++
        [{ data := k.rs r, tag := 0, depth := 0, flips := 0 }] ∧
      (t.bag n).spill = (s.bag n).spill ∧ (∀ b, b ≠ n → t.bag b = s.bag b) ∧
      (∀ x, x ≠ Reg.MB_HWMARKL n → x ≠ Reg.MB_HWMARKH n → u.reg x = s.reg x)

/-- R180, R181, R214: a pop of a draft outside an epoch opens a lineage epoch one deeper in the lowest free slot, retains the sheet
and journals the pop. -/
def Sys2Proof.Claims.DraftPopOpens : Prop :=
  ∀ (s : State) (c : ClerkId) (slot : Fin 64) (d : Reg4) (n : Nat) (x : BagItem) (rest : List BagItem),
    let k := s.clerk c.val
    Ready s c.val 1 → Calm s → c.val < 128 → k.susp = false → k.ep = false → k.slots = Vector.replicate 4 EpSlot.reset →
    k.journal.length < 256 →
    field (s.reg (Reg.SL_CFG c.val slot.val)) 14 2 = 1 →
    128 * field (s.reg (Reg.SL_CFG c.val slot.val)) 7 3 + field (s.reg (Reg.SL_CFG c.val slot.val)) 0 7 = n →
    bit (s.reg (Reg.MB_CFG n)) 15 = true → (s.bag n).head = x :: rest → x.tag ≠ 0 → x.flips = 0 → x.depth < 4 →
    s.retainedCount (n / 128) < 256 → s.undeliverable (clerkDie c.val) 7 = none →
    ∃ t, exec (.draftPop c slot d) s = .next t ∧ (t.clerk c.val).rs d = x.data ∧ (t.clerk c.val).ep = true ∧
      ((t.clerk c.val).slot 0).state = .isOpen ∧ ((t.clerk c.val).slot 0).lineage = true ∧
      ((t.clerk c.val).slot 0).depth = x.depth + 1 ∧ ((t.clerk c.val).slot 0).parent = x.tag ∧
      (t.clerk c.val).journal.length = k.journal.length + 1 ∧ (t.clerk c.val).pc = k.pc + 1 ∧
      (t.bag n).head ++ (t.bag n).tail = rest ++ (s.bag n).tail ∧
      (t.bag n).retained = (s.bag n).retained ++ [{ item := x, popper := (t.clerk c.val).slotTag c.val 0 }] ∧
      Msg.lineage ((t.clerk c.val).slotTag c.val 0) x.tag ∈ t.msgs ∧ t.mem = s.mem ∧
      (∀ c', c' ≠ c.val → t.clerk c' = s.clerk c')

/-- R94, R146: GETI and GETIA inside the window: a word the clerk has queued comes from its queue; else from the group's line cache, as
the fetch of the instruction itself leaves it, and on a miss the clerk waits for the code store. -/
def Sys2Proof.Claims.CodeReads : Prop :=
  ∀ (s : State) (i : Instr) (c : ClerkId) (d : Reg4) (a : CodeAddr), Claims.getting s i = some (c, d, a) →
    Ready s c.val 2 → a.toNat < s.winWords c.val →
    let k := s.clerk c.val
    let w := field (s.reg (Reg.CLK_IWIN c.val)) 0 6 * 65536 + a.toNat
    let x := (s.fetchLines c.val 2).lineCache (groupKey c.val)
    (∀ v, k.queued w = some v → ∃ t, exec i s = .next t ∧ OnlyClerk s t c.val ∧
      t.clerk c.val = k.retires (k.pc + 2) (fun k => k.ww d v)) ∧
    (∀ ws, k.queued w = none → x.lookup (w / 16) = some ws →
      ∃ t lc, exec i s = .next t ∧ OnlyClerk { s with lineCaches := lc } t c.val ∧
        t.clerk c.val = k.retires (k.pc + 2) (fun k => k.ww d (ws.getD (w % 16) 0)) ∧
        (∀ g, g ≠ groupKey c.val → t.lineCache g = s.lineCache g)) ∧
    (k.queued w = none → x.lookup (w / 16) = none →
      ∃ t, exec i s = .next t ∧ OnlyClerk s t c.val ∧ t.clerk c.val = Claims.waits k .codeLine i)

/-- R81, R95, R146: PUTI and PUTIA inside the clerk's writable lines, outside an epoch and with room in the queue: the word is
queued, and every other queued word stays; memory does not change yet. -/
def Sys2Proof.Claims.CodeWrites : Prop :=
  ∀ (s : State) (i : Instr) (c : ClerkId) (r : Reg4) (a : CodeAddr), Claims.putting s i = some (c, r, a) →
    Ready s c.val 2 → a.toNat < s.winWords c.val →
    (s.reg (Reg.CLK_IWR_BASE c.val)).toNat ≤ a.toNat / 16 →
    a.toNat / 16 < (s.reg (Reg.CLK_IWR_BASE c.val)).toNat + (s.reg (Reg.CLK_IWR_LEN c.val)).toNat →
    (s.clerk c.val).ep = false → (s.clerk c.val).codeQueue.length < 8 →
    let k := s.clerk c.val
    let w := field (s.reg (Reg.CLK_IWIN c.val)) 0 6 * 65536 + a.toNat
    ∃ t q, exec i s = .next t ∧ OnlyClerk s t c.val ∧
      t.clerk c.val = k.retires (k.pc + 2) (fun k => { k with codeQueue := q }) ∧
      (∀ x, (t.clerk c.val).queued x = if x = w then some (k.rw r) else k.queued x)

/-- R81: the oldest entry of a code-write queue is written to the die's code store: its words and no others; the line is one that
SYNCI has yet to invalidate (R84). -/
def Sys2Proof.Claims.CodeQueueWrites : Prop :=
  ∀ (s : State) (c : ClerkId) (e : CodeEntry) (q : List CodeEntry), s.live = true → (s.die (clerkDie c.val)).running = true →
    (s.clerk c.val).waiting = none → (s.clerk c.val).codeQueue = e :: q → (e.words.map Prod.fst).Nodup →
    ∃ t mm cl, exec (.codeWriteQueueWrite c) s = .next t ∧ t = { s with mem := mm, clerks := cl } ∧
      (t.clerk c.val).codeQueue = q ∧ e.line ∈ (t.clerk c.val).codeDirty ∧
      (∀ l, l ∈ (s.clerk c.val).codeDirty → l ∈ (t.clerk c.val).codeDirty) ∧ (t.clerk c.val).pc = (s.clerk c.val).pc ∧
      (∀ c', c' ≠ c.val → t.clerk c' = s.clerk c') ∧
      (∀ j v, (j, v) ∈ e.words → t.peek (codeKey (clerkDie c.val) (16 * e.line + j)) = v) ∧
      (∀ x, (∀ j v, (j, v) ∈ e.words → x ≠ codeKey (clerkDie c.val) (16 * e.line + j)) → t.peek x = s.peek x)

/-- R81, R84, R95, R146: writes to the instruction space: into the queue, and from the queue to the code store. -/
def Obligations.CodeSpaceWrites : Prop := Claims.CodeWrites ∧ Claims.CodeQueueWrites

/-- R64, R65, R133: a good demand read of a code-store line fills the line cache of the clerk's group, and no other group's. Where it brings
an undefined encoding to PC, the clerk enters ILLEGAL with EXC_PC there. -/
def Sys2Proof.Claims.LineReadFills : Prop :=
  ∀ (s : State) (c : ClerkId) (line : Nat), s.clerkRuns c.val = true → line < 262144 → (s.clerk c.val).waiting = none →
    let u := s.lineFill c.val line
    (u.undefinedAtPc c.val = false →
      ∃ t lc, exec (.codeStoreLineRead c line .good) s = .next t ∧ OnlyClerk { s with lineCaches := lc } t c.val ∧
        t.clerk c.val = s.clerk c.val ∧
        (t.lineCache (groupKey c.val)).lookup line =
          some ((List.range 16).map fun j => s.peek (codeKey (clerkDie c.val) (16 * line + j))) ∧
        (∀ g, g ≠ groupKey c.val → t.lineCache g = s.lineCache g)) ∧
    (u.undefinedAtPc c.val = true → (s.clerk c.val).window = [] → (s.clerk c.val).shadow = [] → (s.clerk c.val).rep = none →
      (s.clerk c.val).stepping = false → (s.clerk c.val).haltReq = false → bit (s.clerk c.val).excCause 15 = false →
      ∃ t, exec (.codeStoreLineRead c line .good) s = .next t ∧
        Claims.Entry s t c.val { s.clerk c.val with entry := none } 1 0 (s.clerk c.val).pc)

/-- R493: an uncorrectable demand read of the line of PC raises FETCH there; the line fills no cache. -/
def Sys2Proof.Claims.BadLineRaisesFetch : Prop :=
  ∀ (s : State) (c : ClerkId) (line : Nat), s.clerkRuns c.val = true → line < 262144 → (s.clerk c.val).waiting = none →
    s.codeLine c.val (s.clerk c.val).pc = line → (s.clerk c.val).window = [] → (s.clerk c.val).shadow = [] →
    (s.clerk c.val).rep = none → (s.clerk c.val).stepping = false → (s.clerk c.val).haltReq = false →
    bit (s.clerk c.val).excCause 15 = false →
    ∃ t, exec (.codeStoreLineRead c line .uncorrectable) s = .next t ∧
      Claims.Entry ((s.pcnt c.val 8 1).codeLineBad (clerkDie c.val) line) t c.val { s.clerk c.val with entry := none } 7 0 (s.clerk c.val).pc ∧
      t.lineCaches = s.lineCaches

/-- R64, R65, R94, R133, R146, R493: reads of the instruction space and the line read that fills a group's cache. -/
def Obligations.CodeSpaceReads : Prop := Claims.CodeReads ∧ Claims.LineReadFills ∧ Claims.BadLineRaisesFetch

namespace Sys2Proof.Claims

/-- The words copied one after the other, in order: word j from `src j` to `dst j` of clerk `c`'s private store. -/
def copied (c : Nat) (src dst : Nat → Word) : Nat → State → State
  | 0, s => s
  | n + 1, s =>
    let u := copied c src dst n s
    u.poke (privKey c (dst n).toNat) (u.peek (privKey c (src n).toNat))
/-- Words written one after the other. -/
def filled (c : Nat) (dst val : Nat → Word) : Nat → State → State
  | 0, s => s
  | n + 1, s => (filled c dst val n s).poke (privKey c (dst n).toNat) (val n)
/-- Registers written one after the other. -/
def stored (key : Nat → Nat) (val : Nat → Word) : Nat → State → State
  | 0, s => s
  | n + 1, s => (stored key val n s).setReg (key n) (val n)
/-- The ones'-complement sum of two words: a carry out of bit 15 is added back into bit 0 (R124). -/
def onesSum (a b : Word) : Word := mod16 (a.toNat + b.toNat + (a.toNat + b.toNat) / 65536)
/-- `W` register `r` moved by `j` steps of `v`. -/
def steps (k : Clerk) (r : Reg4) (v : Word) (j : Nat) : Word := mod16 ((k.rw r).toNat + j * v.toNat)
/-- Is it an address of the private store? -/
def inPriv (a : Word) : Prop := a.toNat < 0x8000

/-- What a block instruction of the private store does (R124): the words it reads and writes, the state after them, and the
registers. -/
structure BlockJob where
  c : ClerkId
  touches : Clerk → Nat → List Word      -- the data addresses of word j
  stores : Bool
  mem : State → Clerk → Nat → State      -- after n words
  regs : State → Clerk → Nat → Clerk → Clerk

/-- BGATH, BSCAT, BRAMP and BSUM. -/
def blocks : Instr → Option BlockJob
  | .bgath c => some ⟨c, fun k j => [steps k 8 (k.rw 11) j, steps k 9 1 j], true,
      fun s k n => copied c.val (steps k 8 (k.rw 11)) (steps k 9 1) n s,
      fun _ k n x => ((x.ww 8 (steps k 8 (k.rw 11) n)).ww 9 (steps k 9 1 n)).ww 10 0⟩
  | .bscat c => some ⟨c, fun k j => [steps k 8 1 j, steps k 9 (k.rw 11) j], true,
      fun s k n => copied c.val (steps k 8 1) (steps k 9 (k.rw 11)) n s,
      fun _ k n x => ((x.ww 8 (steps k 8 1 n)).ww 9 (steps k 9 (k.rw 11) n)).ww 10 0⟩
  | .bramp c => some ⟨c, fun k j => [steps k 9 1 j], true,
      fun s k n => filled c.val (steps k 9 1) (steps k 11 (k.rw 12)) n s,
      fun _ k n x => ((x.ww 11 (steps k 11 (k.rw 12) n)).ww 9 (steps k 9 1 n)).ww 10 0⟩
  | .bsum c => some ⟨c, fun k j => [steps k 8 1 j], false, fun s _ _ => s,
      fun s k n x =>
        ((x.ww 7 (((List.range n).map fun j => s.peek (privKey c.val (steps k 8 1 j).toNat)).foldl onesSum (k.rw 7))).ww 8
          (steps k 8 1 n)).ww 10 0⟩
  | _ => none

/-- Does word j of BMATCH's block match: (D:[W8 + j] and W12) = W11 (R124)? -/
def matchesAt (s : State) (c : Nat) (k : Clerk) (j : Nat) : Prop :=
  s.peek (privKey c (steps k 8 1 j).toNat) &&& k.rw 12 = k.rw 11

/-- The epoch tag of R163: clerk, slot, generation. -/
def tagOf (c slot gen : Nat) : Word := BitVec.ofNat 16 (512 * c + 128 * slot + gen)
/-- A parcel that crosses the links from die `a` to die `b`, charged nothing (R257, R274). -/
def crossing (a b : Nat) (s : State) : State := s.passRoute a b
/-- Is it a settle parcel for clerk `c`? -/
def settleFor (c : Nat) : Msg → Bool
  | .settleClerk t => decide (t.toNat / 512 = c)
  | _ => false
/-- Is it a recall parcel for clerk `c` that no engine has still to act on, or an answer to its RECALL (R187, R193)? -/
def recallFor (s : State) (c : Nat) : Msg → Bool
  | .recallClerk e t _ => e == c && !(s.enginesDue t)
  | .recallAnswer e => e == c
  | _ => false

/-- Fifths of a token that a reference period adds at a level (R59). -/
def rate (level : Nat) : Nat :=
  match level with
  | 0 => 40 | 1 => 64 | 2 => 90 | 3 => 116 | 4 => 144 | 5 => 200 | 6 => 250 | _ => 290

end Sys2Proof.Claims

/-- R124, R156: BGATH, BSCAT, BRAMP and BSUM over blocks in the private store, outside an epoch, with no interrupt to stop them:
memory, W7 to W11, and W10 = 0 at the end. -/
def Sys2Proof.Claims.BlockResults : Prop :=
  ∀ (s : State) (i : Instr) (b : Claims.BlockJob), Claims.blocks i = some b → Ready s b.c.val 1 → s.winner b.c.val = none →
    let k := s.clerk b.c.val
    let n := (k.rw 10).toNat
    (b.stores = true → k.ep = false) → (∀ j, j < n → ∀ a ∈ b.touches k j, Claims.inPriv a) →
    ∃ t, exec i s = .next t ∧ OnlyClerk { s with mem := (b.mem s k n).mem } t b.c.val ∧
      t.clerk b.c.val = k.retires (k.pc + 1) (b.regs s k n)

/-- R124: BMATCH stops at the first word that matches, with W7 = 1, W8 at the word and W10 counting it; with none, W7 = 0. -/
def Sys2Proof.Claims.MatchResults : Prop :=
  ∀ (s : State) (c : ClerkId), Ready s c.val 1 → s.winner c.val = none →
    let k := s.clerk c.val
    let n := (k.rw 10).toNat
    (∀ j, j < n → Claims.inPriv (Claims.steps k 8 1 j)) →
    (∀ j, j < n → Claims.matchesAt s c.val k j → (∀ i, i < j → ¬ Claims.matchesAt s c.val k i) →
      ∃ t, exec (.bmatch c) s = .next t ∧ OnlyClerk s t c.val ∧ t.clerk c.val = k.retires (k.pc + 1) (fun x =>
        ((x.ww 8 (Claims.steps k 8 1 j)).ww 10 (Claims.mod16 (n - j))).ww 7 1)) ∧
    ((∀ j, j < n → ¬ Claims.matchesAt s c.val k j) →
      ∃ t, exec (.bmatch c) s = .next t ∧ OnlyClerk s t c.val ∧ t.clerk c.val = k.retires (k.pc + 1) (fun x =>
        ((x.ww 8 (Claims.steps k 8 1 n)).ww 10 0).ww 7 0))

/-- R124, R102: BPGET copies consecutive ports to the private store, BPPUT writes consecutive ports from it, one port access a word.
The ports here are the instruction-window registers, and the counter selectors, written in SUPERVISOR. -/
def Sys2Proof.Claims.BlockPorts : Prop :=
  ∀ (s : State) (c : ClerkId), Ready s c.val 1 → s.winner c.val = none → Calm s →
    let k := s.clerk c.val
    let n := (k.rw 10).toNat
    let port := fun (p : Nat) => 0x100000 + 0x1000 * c.val + p
    k.ep = false →
    ((∀ j, j < n → Claims.inPriv (Claims.steps k 9 1 j)) → (k.rw 8).toNat + n ≤ 0x523 → 0x520 ≤ (k.rw 8).toNat →
      ∃ t, exec (.bpget c) s = .next t ∧
        OnlyClerk { s with mem := (Claims.filled c.val (Claims.steps k 9 1) (fun j =>
          s.reg (port ((k.rw 8).toNat + j)) &&& (if (k.rw 8).toNat + j = 0x520 then 0x1F3F else 0xFFFF)) n s).mem } t c.val ∧
        t.clerk c.val = k.retires (k.pc + 1) (fun x =>
          ((x.ww 8 (Claims.steps k 8 1 n)).ww 9 (Claims.steps k 9 1 n)).ww 10 0)) ∧
    ((∀ j, j < n → Claims.inPriv (Claims.steps k 8 1 j)) → k.sup = true → 0xC2 ≤ (k.rw 9).toNat → (k.rw 9).toNat + n ≤ 0xC6 →
      ∃ t, exec (.bpput c) s = .next t ∧
        OnlyClerk (Claims.stored (fun j => port ((k.rw 9).toNat + j)) (fun j =>
          s.peek (privKey c.val (Claims.steps k 8 1 j).toNat) &&& 0x3F3F |||
            s.reg (port ((k.rw 9).toNat + j)) &&& 0xC0C0) n s) t c.val ∧
        t.clerk c.val = k.retires (k.pc + 1) (fun x =>
          ((x.ww 8 (Claims.steps k 8 1 n)).ww 9 (Claims.steps k 9 1 n)).ww 10 0))

/-- R102, R124, R156: the block instructions. -/
def Obligations.Blocks : Prop := Claims.BlockResults ∧ Claims.MatchResults ∧ Claims.BlockPorts

/-- R163, R168 to R171: EOPEN that nothing of R169 refuses opens an epoch in the lowest free slot, with the next generation and the
checkpoint that restarts behind it, sets EP, writes the tag to d, counts, and sends the registration to DISPATCH. -/
def Sys2Proof.Claims.EpochOpens : Prop :=
  ∀ (s : State) (c : ClerkId) (d r : Reg4) (i : Nat),
    let k := s.clerk c.val
    let x := k.rs r
    Ready s c.val 1 → c.val < 128 → x.l0.toNat % 4096 = 0 → k.freeSlot = some i → d ≠ 0 →
    s.refuseReason c.val (markAxis x.l0) (markPos x.l1 x.l2 x.l3) = 0 → s.undeliverable (clerkDie c.val) 7 = none →
    let gen := if (k.slot i).gen ≥ 127 then 1 else (k.slot i).gen + 1
    let tag := Claims.tagOf c.val i gen
    ∃ t ch, exec (.eopen c d r) s = .next t ∧ (t.clerk c.val).rw d = tag ∧ (t.clerk c.val).ep = true ∧
      (t.clerk c.val).pc = k.pc + 1 ∧ ((t.clerk c.val).slot i).state = .isOpen ∧ ((t.clerk c.val).slot i).gen = gen ∧
      ((t.clerk c.val).slot i).mark = (x.l0, x.l1, x.l2, x.l3) ∧ ((t.clerk c.val).slot i).chk = some ch ∧
      ch.w = k.w ∧ ch.s = k.s ∧ ch.a = k.a ∧ ch.status = k.status ∧ ch.rpt = k.rpt ∧ ch.isp = k.isp ∧
      ch.excCause = k.excCause ∧ ch.pc = k.pc + 1 ∧ (∀ j, j ≠ i → (t.clerk c.val).slot j = k.slot j) ∧
      t.reg (Reg.EP_OPENCNT c.val) = satAdd (s.reg (Reg.EP_OPENCNT c.val)) 1 ∧
      (∃ n, Msg.registration tag (markPos x.l1 x.l2 x.l3) (markAxis x.l0) n ∈ t.msgs) ∧ t.mem = s.mem ∧
      (∀ c', c' ≠ c.val → t.clerk c' = s.clerk c')

/-- R169: an open that is refused writes 0000h to d and the reason to EP_REFUSE, and opens nothing. -/
def Sys2Proof.Claims.EpochRefused : Prop :=
  ∀ (s : State) (c : ClerkId) (d r : Reg4),
    let k := s.clerk c.val
    let x := k.rs r
    let why := s.refuseReason c.val (markAxis x.l0) (markPos x.l1 x.l2 x.l3)
    Ready s c.val 1 → c.val < 128 → x.l0.toNat % 4096 = 0 → why ≠ 0 →
    ∃ t, exec (.eopen c d r) s = .next t ∧ OnlyClerk (s.setReg (Reg.EP_REFUSE c.val) (BitVec.ofNat 16 (0x8000 + why))) t c.val ∧
      t.clerk c.val = k.retires (k.pc + 1) (fun x => x.ww d 0)

/-- R163, R168 to R171: EOPEN, where it opens an epoch and where it is refused. -/
def Obligations.Opens : Prop := Claims.EpochOpens ∧ Claims.EpochRefused

/-- R157, R158: POST sends its entry to DISPATCH, charged to the clerk's route, if lane 7 is 0000h outside an epoch or the tag of an
open epoch of the clerk; in every other case it raises EPOCH and sends nothing. -/
def Sys2Proof.Claims.PostSends : Prop :=
  ∀ (s : State) (c : ClerkId) (r : Reg4), Ready s c.val 1 →
    let k := s.clerk c.val
    let e := k.rs r
    let own := if e.l7 = 0 then k.ep = false else c.val < 128 ∧ ∃ i, i < 4 ∧ k.slotTag c.val i = e.l7
    (own → s.hasStamp (clerkDie c.val) (s.clerkRoute c.val) 0 = true →
      ∃ t, exec (.post c r) s = .next t ∧
        Claims.Through s t c.val (fun a =>
          (a.takeStamp (clerkDie c.val) (s.clerkRoute c.val) 0).launch (.entry c.val e)) ∧
        t.clerk c.val = k.retires (k.pc + 1) (fun x => x)) ∧
    (¬ own → bit k.excCause 15 = false →
      ∃ t, exec (.post c r) s = .next t ∧ Claims.Entry s t c.val k.issued 0xC 0 k.pc)

/-- R158, R187: RECALL of an open epoch of the clerk sends the request to DISPATCH and waits for the answer; of a tag of the clerk
that is no longer open it does nothing. -/
def Sys2Proof.Claims.RecallRequests : Prop :=
  ∀ (s : State) (c : ClerkId) (r : Reg4), Ready s c.val 1 → c.val < 128 →
    let k := s.clerk c.val
    let tag := k.rw r
    tag.toNat / 512 = c.val →
    ((∃ i, i < 4 ∧ tag ≠ 0 ∧ k.slotTag c.val i = tag) →
      ∃ t, exec (.recall c r) s = .next t ∧
        Claims.Through s t c.val (fun a => a.launch (.recallReq tag)) ∧
        t.clerk c.val = k.retires (k.pc + 1) (fun x => { x with waiting := some { kind := .recall, insn := .recall c r } })) ∧
    ((∀ i, i < 4 → k.slotTag c.val i ≠ tag ∨ tag = 0) →
      ∃ t, exec (.recall c r) s = .next t ∧ OnlyClerk s t c.val ∧ t.clerk c.val = k.retires (k.pc + 1) (fun x => x))

/-- R157, R158, R187: POST and RECALL. -/
def Obligations.EntriesAndRecalls : Prop := Claims.PostSends ∧ Claims.RecallRequests

/-- R336, R337: the clerk accepts its offer: the frame's four words at ISP, STATUS SUPERVISOR with IE 0, LM WRAP and the source's LVL
and CLASS, PC at the source's vector, LIC_SRC with VALID, priority and source, and the source's PEND cleared. -/
def Obligations.InterruptEnters : Prop :=
  ∀ (s : State) (c : ClerkId) (p src : Nat), s.clerkRuns c.val = true → s.winner c.val = some (p, src) →
    let k := s.clerk c.val
    let d := clerkDie c.val
    k.entry = none → k.shadow = [] → k.rep = none → k.waiting = none → k.stepping = false → k.ie = true → p < k.lvl →
    ∀ q : Fin 65, ∃ t, exec (.interruptEntry ⟨c, q⟩) s = .next t ∧ (t.clerk c.val).isp = k.isp - 4 ∧
      (t.clerk c.val).status = BitVec.ofNat 16 (0x4000 + (if bit (s.scfg d src) 14 then 0x2000 else 0) + p) ∧
      (t.clerk c.val).pc = s.icuVector d src ∧ (t.clerk c.val).entry = some src ∧
      (t.clerk c.val).mulPend = [] ∧ (t.clerk c.val).smulPend = [] ∧ (t.clerk c.val).susp = (k.susp || k.ep) ∧
      (t.clerk c.val).w = k.w ∧ (t.clerk c.val).s = k.s ∧ (t.clerk c.val).a = k.a ∧ (t.clerk c.val).rpt = k.rpt ∧
      t.reg (Reg.LIC_SRC c.val) = BitVec.ofNat 16 (0x8000 + 256 * p + src) ∧ (t.icuSrc d src).pend = false ∧
      (∀ j, j < 4 → t.peek (privKey c.val (Claims.frameAddr k j)) = Claims.frameWord k k.pc j) ∧
      (∀ a, (∀ j, j < 4 → a ≠ privKey c.val (Claims.frameAddr k j)) → t.peek a = s.peek a) ∧
      (∀ c', c' ≠ c.val → t.clerk c' = s.clerk c')

/-- R59, R87: a reference period fills the issue limiter by the rate of its die's level, at most to 64 tokens; PM0 and PM1 have a fixed
rate. The duration events noted in it have been counted. -/
def Sys2Proof.Claims.TokensArrive : Prop :=
  ∀ (s : State) (c : ClerkId), s.live = true → (s.die (clerkDie c.val)).running = true → Calm s →
    let k := s.clerk c.val
    let add := if c.val < 128 then Claims.rate (field (s.reg (Reg.PWR_PL (clerkDie c.val - 3))) 4 3) else 180
    ∃ t, exec (.tokenArrival c) s = .next t ∧ OnlyClerk s t c.val ∧
      t.clerk c.val = { k with tokens := min 320 (k.tokens + add), durs := [] }

/-- R59, R70, R71, R85: a misprediction takes back nothing but time: the squashed instructions had taken their tokens and their loads
keep read-buffer entries until the data returns; only counters show it otherwise. -/
def Sys2Proof.Claims.MispredictionSquashes : Prop :=
  ∀ (s : State) (c : ClerkId) (p : WrongPath) (b : Bool), (s.clerk c.val).pred.mispred = some b →
    let k := s.clerk c.val
    let issued := min p.squashed.val (k.tokens / 5)
    ∃ t, exec (.branchMisprediction c p) s = .next t ∧ OnlyClerk s t c.val ∧
      t.clerk c.val = { k with tokens := k.tokens - 5 * issued, stray := k.stray + min p.loads.val (min issued (8 - k.bufferUsed)),
                               pred := { k.pred with mispred := none } }

/-- R59, R70, R85: the token arrival and the branch misprediction. -/
def Obligations.IssueEvents : Prop := Claims.TokensArrive ∧ Claims.MispredictionSquashes

/-- R207: a waiting pop ends when a sheet is there for it: the INS then takes it as if it had found it at once. -/
def Sys2Proof.Claims.PopWaitEnds : Prop :=
  ∀ (s : State) (c : ClerkId) (d : Reg4) (b : Reg4) (slot n : Nat) (x : BagItem) (rest : List BagItem),
    let k := s.clerk c.val
    Claims.WaitsWith s c.val .pop (.ins c d (.ind b)) 1 → k.ep = false → (k.rw b).toNat = 0x100 + 16 * slot → slot < 64 →
    field (s.reg (Reg.SL_CFG c.val slot)) 14 2 = 1 →
    128 * field (s.reg (Reg.SL_CFG c.val slot)) 7 3 + field (s.reg (Reg.SL_CFG c.val slot)) 0 7 = n →
    bit (s.reg (Reg.MB_CFG n)) 15 = true → (s.bag n).head = x :: rest → x.tag = 0 → x.flips = 0 →
    ∃ t, exec (.popWaitEnd c) s = .next t ∧ OnlyClerk { s with bags := t.bags } t c.val ∧
      t.clerk c.val = Claims.resumes k (k.pc + 1) (fun k => k.ws d x.data) ∧
      (t.bag n).head ++ (t.bag n).tail = rest ++ (s.bag n).tail ∧ (∀ m, m ≠ n → t.bag m = s.bag m)

/-- R180, R181, R203, R205 to R207, R214: pops and pushes through slots: of an ordinary sheet, after a wait, of a draft; and a
push to a mailbag. -/
def Obligations.Slots : Prop := Claims.SlotPops ∧ Claims.SlotPushes ∧ Claims.DraftPopOpens ∧ Claims.PopWaitEnds

/-- R174: a store that waits for journal room is journalled and performed once there is room. -/
def Sys2Proof.Claims.JournalWaitEnds : Prop :=
  ∀ (s : State) (c : ClerkId) (r b : Reg4),
    let k := s.clerk c.val
    Claims.WaitsWith s c.val .journal (.st c r (.ind b)) 1 → k.ep = true → k.journal.length < 256 → Claims.inPriv (k.rw b) →
    ∃ t mm, exec (.journalWaitEnd c) s = .next t ∧ OnlyClerk { s with mem := mm } t c.val ∧
      t.clerk c.val = { Claims.resumes k (k.pc + 1) (fun k => k) with
        journal := { tag := k.curTag c.val, cells := [((k.rw b).toNat, s.peek (privKey c.val (k.rw b).toNat))] } :: k.journal } ∧
      t.peek (privKey c.val (k.rw b).toNat) = k.rw r ∧ (∀ x, x ≠ privKey c.val (k.rw b).toNat → t.peek x = s.peek x)

/-- R96, R97, R99, R107, R143, R146, R174: stores to the private store, journalled inside an epoch, at once or after waiting
for journal room; and to a SHARED window. -/
def Obligations.Stores : Prop := Claims.PrivateStores ∧ Claims.StoresJournal ∧ Claims.SharedStores ∧ Claims.JournalWaitEnds

/-- R173, R175: the oldest held write of a settled epoch is performed and leaves the queue; the port here is a counter selector,
which the clerk wrote in SUPERVISOR. -/
def Sys2Proof.Claims.HeldWritePerforms : Prop :=
  ∀ (s : State) (c : ClerkId) (p : Nat) (v : Word) (rest : List HeldWrite),
    let k := s.clerk c.val
    let key := 0x100000 + 0x1000 * c.val + p
    s.live = true → (s.die (clerkDie c.val)).running = true → Calm s → Claims.pcntSelPort p →
    k.held = { tag := 0, sup := true, port := p, vals := [v] } :: rest →
    exec (.heldWritePerformed c) s = .next ((s.modClerk c.val fun k => { k with held := rest }).setReg key
      (s.reg key &&& 0xC0C0 ||| v &&& 0x3F3F))

/-- R92, R102, R106, R144, R146, R173, R175, R442, R443: port writes: local, denied, held and performed; and global ones, with
a stamp or waiting for it. -/
def Obligations.PortStores : Prop := Claims.PortWrites ∧ Claims.GlobalPortWrites ∧ Claims.HeldWritePerforms

/-- R185: a settle that reaches its clerk frees the epoch's slot and journal entries, lets its held writes begin, and clears EP where
no epoch stays open; nothing of memory changes. -/
def Sys2Proof.Claims.ClerkSettles : Prop :=
  ∀ (s u : State) (c : Fin 128) (i : Nat) (tag : Word),
    let k := u.clerk c.val
    Claims.Arrives s (Claims.settleFor c.val) (.settleClerk tag) u →
    Calm u → (s.clerk c.val).parked = false → i < 4 → tag.toNat / 512 = c.val → tag ≠ 0 → k.slotTag c.val i = tag →
    (∀ j, j < i → k.slotTag c.val j ≠ tag) →
    ∃ t, exec (.clerkSettle c) s = .next t ∧ ((t.clerk c.val).slot i).state = .free ∧
      (∀ j, j ≠ i → (t.clerk c.val).slot j = k.slot j) ∧
      (t.clerk c.val).journal = k.journal.filter (fun e => e.tag != tag) ∧
      (t.clerk c.val).held = k.held.map (fun h => if h.tag = tag then { h with tag := 0 } else h) ∧
      ((∀ j, j < 4 → j ≠ i → (k.slot j).state = .free) → (t.clerk c.val).ep = false) ∧
      ((∃ j, j < 4 ∧ j ≠ i ∧ (k.slot j).state ≠ .free) → (t.clerk c.val).status = k.status) ∧
      (t.clerk c.val).w = k.w ∧ (t.clerk c.val).pc = k.pc ∧ t.mem = u.mem ∧ t.regs = u.regs ∧
      (∀ c', c' ≠ c.val → t.clerk c' = u.clerk c')

/-- R189, R192: a recall that reaches a running clerk restarts it from the epoch's checkpoint with the recall word in the register
that EOPEN named, every journalled word back, held writes of the epoch gone. The epoch here is the clerk's only one. -/
def Sys2Proof.Claims.ClerkRecalls : Prop :=
  ∀ (s u : State) (c : Fin 128) (i cause : Nat) (tag : Word) (ch : Checkpoint),
    let k := u.clerk c.val
    Claims.Arrives s (Claims.recallFor s c.val) (.recallClerk c.val tag cause) u →
    (s.clerk c.val).parked = false → s.inWait c.val = false → k.halted = false → k.dbgHalt = false → k.susp = false → i < 4 → tag.toNat / 512 = c.val → tag ≠ 0 →
    k.slotTag c.val i = tag → (∀ j, j < 4 → j ≠ i → (k.slot j).state = .free) → (k.slot i).chk = some ch →
    (k.slot i).lineage = false → (k.slot i).dReg ≠ 0 → cause < 16 → (∀ e ∈ k.journal, e.tag = tag ∧ ∃ x, e.cells = [x] ∧ x.1 < 0x8000) →
    (k.journal.map fun e => (e.cells.map Prod.fst)).Nodup →
    ∃ t, exec (.clerkRecall c) s = .next t ∧ ((t.clerk c.val).slot i).state = .free ∧ (t.clerk c.val).pc = ch.pc ∧
      (t.clerk c.val).rw (k.slot i).dReg = BitVec.ofNat 16 (256 * cause) ∧
      (∀ r, r ≠ (k.slot i).dReg → r ≠ 0 → (t.clerk c.val).rw r = ch.w.get r) ∧ (t.clerk c.val).s = ch.s ∧
      (t.clerk c.val).a = ch.a ∧ (t.clerk c.val).rpt = ch.rpt ∧ (t.clerk c.val).isp = ch.isp ∧
      (t.clerk c.val).excCause = ch.excCause ∧ (t.clerk c.val).ep = false ∧ (t.clerk c.val).journal = [] ∧
      (∀ h ∈ (t.clerk c.val).held, h.tag ≠ tag) ∧ (t.clerk c.val).waiting = none ∧
      (∀ e ∈ k.journal, ∀ x ∈ e.cells, t.peek (privKey c.val x.1) = x.2) ∧
      (∀ a, (∀ e ∈ k.journal, ∀ x ∈ e.cells, a ≠ privKey c.val x.1) → t.peek a = u.peek a) ∧
      t.reg (Reg.EP_RECALLCNT c.val) = satAdd (u.reg (Reg.EP_RECALLCNT c.val)) 1 ∧
      (∀ c', c' ≠ c.val → t.clerk c' = u.clerk c')

/-- R173, R185, R189, R192: a settle and a recall that reach their clerk. -/
def Obligations.EpochEnds : Prop := Claims.ClerkSettles ∧ Claims.ClerkRecalls

/-! ## Clears -/

namespace Sys2Proof.Claims

/-- The global port a party writes, and the registers that the write clears, each with its value after. -/
structure Clear where
  who : Nat
  port : Nat
  regs : List (Nat × Word)

/-- Every register of the list to 0000h. -/
def zeros (who port : Nat) (ks : List Nat) : Option Clear := some ⟨who, port, ks.map fun k => (k, 0)⟩

/-- The CLRCNT of each block: its port, and what it clears (R55, R86, R195, R196, R220, R242, R246, R274, R298, R299, R326, R345,
R366, R388, R408, R427, R447, R448, R470, R498). High-water marks take the present level. -/
def clears (s : State) : Instr → Option Clear
  | .axnCtrlClrcnt who n => zeros who.val (Reg.AX_CTRL n.val) [Reg.AX_DEVCNT n.val, Reg.AX_EDGEERR n.val]
  | .epochCtlClrcnt who =>
    zeros who.val Reg.EPOCH_CTL [Reg.EPOCH_RECALLS, Reg.EPOCH_REGREC, Reg.EPOCH_REVOKED, Reg.EPOCH_LATEPOST]
  | .mbCtlClrcnt who b => some ⟨who.val, Reg.MB_CTL b.val,
      [(Reg.MB_CORR b.val, 0), (Reg.MB_DEAD b.val, 0), (Reg.MB_FULLDROP b.val, 0),
       (Reg.MB_HWMARKL b.val, mod16 (s.bag b.val).visible), (Reg.MB_HWMARKH b.val, mod16 ((s.bag b.val).visible / 65536))]⟩
  | .camCtlClrcnt who i k => zeros who.val (Reg.CAM_CTL i.val k.val)
      [Reg.CAM_FRAMEL i.val k.val, Reg.CAM_FRAMEH i.val k.val, Reg.CAM_LINEDROP i.val k.val, Reg.CAM_FRAMEDROP i.val k.val,
       Reg.CAM_FSOVER i.val k.val]
  | .intCtlClrcnt who i => zeros who.val (Reg.INT_CTL i.val)
      [Reg.INT_DEADLINES i.val, Reg.INT_EVCNT i.val, Reg.INT_EVDROP i.val, Reg.INT_EVTRUNC i.val, Reg.INT_CSERR i.val]
  | .cxCtlClrcnt who i c => zeros who.val (Reg.CX_CTL i.val c.val)
      [Reg.CX_CRCERR i.val c.val, Reg.CX_SEQERR i.val c.val, Reg.CX_LOSS i.val c.val]
  | .flCtlClrcnt who l => zeros who.val (Reg.FL_CTL l.val)
      [Reg.FL_CRCERR l.val, Reg.FL_RETRY l.val, Reg.FL_DUP l.val, Reg.FL_RETRAIN l.val, Reg.FL_REFUSED l.val,
       Reg.FL_FLUSHED l.val, Reg.FL_PARAL l.val, Reg.FL_PARAH l.val, Reg.FL_PARBL l.val, Reg.FL_PARBH l.val, Reg.FL_HOLD l.val]
  | .fdCtlClrcnt who d => zeros who.val (Reg.FD_CTL d.val)
      ([Reg.FD_DL d.val 0, Reg.FD_DL d.val 1, Reg.FD_DL d.val 2, Reg.FD_DL d.val 3, Reg.FD_BCDISC d.val] ++
       ((List.range (crossingCount d.val)).map fun i => [crossKey d.val i 1, crossKey d.val i 2, crossKey d.val i 3]).flatten)
  | .obCtlClrcnt who => some ⟨who.val, Reg.OB_CTL,
      [(Reg.OB_LATE, 0), (Reg.OB_STALE, 0), (Reg.OB_FORMAT, 0), (Reg.OB_MODE, 0), (Reg.OB_SUPP, 0), (Reg.OB_PURGED, 0),
       (Reg.OB_SPERR, 0), (Reg.OB_HWMARK, mod16 s.outbox.count)]⟩
  | .feCtlClrcnt who => zeros who.val Reg.FE_CTL
      (Reg.FE_SAFECNT :: ((List.range 64).map fun n => [Reg.CH_APPLIED n, Reg.CH_SUPP n]).flatten)
  | .chCtlClrcnt who n => zeros who.val (Reg.CH_CTL n.val) [Reg.CH_APPLIED n.val, Reg.CH_SUPP n.val]
  | .nodeCtlClrcnt who p a =>
      if 1 ≤ a.val then zeros who.val (Reg.NODE_CTL p.val (a.val - 1)) [Reg.NODE_ERR p.val (a.val - 1)] else none
  | .zpCtlClrcnt who p => zeros who.val (Reg.ZP_CTL p.val)
      (Reg.ZP_SKIP p.val :: Reg.ZP_RXLOST p.val :: (List.range 62).map fun a => Reg.NODE_ERR p.val a)
  | .icuCtlClrcnt who d =>
    if hasIcu d.val then zeros who.val (Reg.ICU_CTL d.val) ((List.range (icuCount d.val)).map fun src => icuKey d.val src 8)
    else none
  | .pwrCtlClrcnt who => zeros who.val Reg.PWR_CTL (Reg.PWR_PLFAIL :: (List.range 8).map Reg.PMB_ERR)
  | .aonCtlClrcnt who =>
    zeros who.val Reg.AON_CTL [Reg.AON_SLEEPCNT, Reg.AON_ABORTCNT, Reg.AON_REFUSECNT, Reg.AON_WAKECNT]
  | .ddrChctlClrcnt who c => zeros who.val (Reg.DDR_CHCTL c.val)
      [Reg.DDR_CE c.val, Reg.DDR_UE c.val, Reg.DDR_RMWDROP c.val, Reg.DDR_ROWOVF c.val, Reg.DDR_PPRCNT c.val, Reg.DDR_SCRUBPASS c.val]
  | .ddrCtlClrcnt who => zeros who.val Reg.DDR_CTL [Reg.DDR_PROTDROP]
  | .hostCtlClrcnt who => zeros who.val Reg.HOST_CTL
      [Reg.HOST_BADACC, Reg.HOST_UE, Reg.HOST_PORTERR, Reg.HOST_PHDUP, Reg.HOST_PHREFUSED, Reg.HOST_PHTOUTCNT, Reg.HOST_PHSDROP]
  | .csCtlClrcnt who => zeros who.val Reg.CS_CTL ((List.range 12).map fun i => Reg.CS_APPLIED + i)
  | .pstCtlClrcnt who => zeros who.val Reg.PST_CTL
      ((List.range 256).map fun rt => [routeKey rt 8, routeKey rt 9, routeKey rt 10, routeKey rt 11]).flatten
  | .imgCtlClrcnt who => zeros who.val Reg.IMG_CTL
      [Reg.IMG_AUTHFAIL, Reg.IMG_RPCNT, Reg.IMG_RPFAIL, Reg.IMG_RPDISC, Reg.IMG_FBSKIP, Reg.IMG_RDERR]
  | .errCtlClrcnt who => zeros who.val Reg.ERR_CTL ((List.range 16).map Reg.DLO_CNT ++ (List.range 6).map Reg.FW_LAST)
  | _ => none

/-- The clears a clerk makes at its own ports: the clerk, when it may, and the registers with their values after (R86, R102, R195,
R498). -/
def ownClears (s : State) : Instr → Option (Nat × Prop × List (Nat × Word))
  | .epCtlClrcnt c => if c.val < 128 then some (c.val, True, [(Reg.EP_OPENCNT c.val, 0), (Reg.EP_RECALLCNT c.val, 0)]) else none
  | .cstCtlClrcnt c => some (c.val, (s.clerk c.val).sup = true,
      [(Reg.CST_CE (clerkDie c.val), 0), (Reg.CST_UE (clerkDie c.val), 0), (Reg.CST_LCPAR (clerkDie c.val), 0)])
  | .pcntCtlClrall c => some (c.val, (s.clerk c.val).sup = true,
      (Reg.PCNT_CTL c.val, s.reg (Reg.PCNT_CTL c.val) &&& 0xB0FF) :: (Reg.PCNT_OVF c.val, 0) ::
        ((List.range 8).map fun j => [(Reg.PCNT_L c.val j, 0), (Reg.PCNT_H c.val j, 0)]).flatten)
  | .epRefuseNewClear c =>
    if c.val < 128 then some (c.val, True, [(Reg.EP_REFUSE c.val, s.reg (Reg.EP_REFUSE c.val) &&& 0x7FFF)]) else none
  | .mbeStatClear c v => some (c.val, (s.clerk c.val).sup = true,
      [(Reg.MBE_STAT (clerkDie c.val), s.reg (Reg.MBE_STAT (clerkDie c.val)) &&& ~~~(v &&& 0xE000))])
  | _ => none

/-- Registers after: those of the list hold its values, every other holds what it held in `s`. -/
def Leaves (s t : State) (ks : List (Nat × Word)) : Prop :=
  (∀ k v, (k, v) ∈ ks → t.reg k = v) ∧ (∀ k, (∀ v, (k, v) ∉ ks) → t.reg k = s.reg k)

end Sys2Proof.Claims

/-- The CLRCNT commands clear the counters they name and change nothing else; a clerk's own ports it clears by itself, those of a
global block by HOST, PM0 or PM1. EP_REFUSE.NEW and MBE_STAT are cleared likewise, by writing 1 to the bit. -/
def Sys2Proof.Claims.CountersClear : Prop :=
  (∀ (s : State) (i : Instr) (x : Claims.Clear), Claims.clears s i = some x → Reaches s x.who x.port → Calm s →
    ∃ t r lk, exec i s = .next t ∧ t = { s.crossed x.port with regs := r, links := lk } ∧ Claims.Leaves (s.crossed x.port) t x.regs ∧
      ((∀ who l, i ≠ .flCtlClrcnt who l) → lk = (s.crossed x.port).links) ∧
      (∀ l, ∃ h n, t.link l = { (s.crossed x.port).link l with holdFrom := h, holdNext := n })) ∧
  (∀ (s : State) (i : Instr) (c : Nat) (may : Prop) (ks : List (Nat × Word)), Claims.ownClears s i = some (c, may, ks) → may →
    s.live = true → Calm s → ∃ t r, exec i s = .next t ∧ t = { s with regs := r } ∧ Claims.Leaves s t ks)

/-- R274, R333, R345, R380, R388, R491, R498: what else a write of 1 clears: captured dead letters, lasting windows of classes 1
and 2, pending interrupts, dies' changed bits, and the poison of a shared-store bank with its words. -/
def Sys2Proof.Claims.FlagsClear : Prop :=
  ∀ (s : State), Calm s →
    (∀ who : Requester, Reaches s who.val Reg.ERR_CTL →
      exec (.errCtlClrcap who) s = .next { s with deadCaps := [] } ∧
      ∃ t w, exec (.errCtlClrlast who) s = .next t ∧ t = { s with faultWins := w } ∧
        ∀ k, t.faultWins.getD k FaultWin.reset =
          if (k / 65536 = 1 ∨ k / 65536 = 2) ∧ (s.faultWins.getD k FaultWin.reset).lasting = true then FaultWin.reset
          else s.faultWins.getD k FaultWin.reset) ∧
    (∀ (who : Requester) (d : DieId), hasIcu d.val = true → Reaches s who.val (Reg.ICU_CTL d.val) →
      ∃ t w, exec (.icuCtlClrpend who d) s = .next t ∧ t = { s.crossed (Reg.ICU_CTL d.val) with icu := w } ∧
        (∀ e src, src < 256 → t.icuSrc e src = if e = d.val then { s.icuSrc e src with pend := false } else s.icuSrc e src)) ∧
    (∀ (who : Requester) (d : DieId) (j : Fin 16) (v : Word), hasIcu d.val = true → 16 * j.val < icuCount d.val →
      Reaches s who.val (Reg.ICU_PEND d.val j.val) →
      ∃ t w, exec (.icuPendClear who d j v) s = .next t ∧ t = { s.crossed (Reg.ICU_PEND d.val j.val) with icu := w } ∧
        (∀ e src, src < 256 → t.icuSrc e src =
          if e = d.val ∧ src / 16 = j.val ∧ bit v (src % 16) = true then { s.icuSrc e src with pend := false }
          else s.icuSrc e src)) ∧
    (∀ (who : Requester) (v : Word), Reaches s who.val Reg.DEVICE_DIES →
      exec (.deviceDiesClear who v) s =
        .next (s.setReg Reg.DEVICE_DIES (s.reg Reg.DEVICE_DIES &&& ~~~(v &&& 0xFF00)))) ∧
    (∀ (c : Fin 128) (hi : Bool) (v : Word), s.live = true → (s.clerk c.val).sup = true →
      let d := clerkDie c.val
      let lifted := fun (b : Nat) => b / 16 = (if hi then 1 else 0) ∧ bit v (b % 16) = true ∧ s.poisoned d b = true
      ∃ t r m w, exec (.ssPoisonClear c hi v) s = .next t ∧ t = { s with regs := r, mem := m, faultWins := w } ∧
        (∀ b, b < 32 → (lifted b → t.poisoned d b = false) ∧ (¬ lifted b → t.poisoned d b = s.poisoned d b)) ∧
        (∀ b a, b < 32 → a < 65536 →
          t.peek (sharedKey d (65536 * b + a)) = if lifted b then 0 else s.peek (sharedKey d (65536 * b + a))) ∧
        (∀ x, (∀ b a, b < 32 → a < 65536 → x ≠ sharedKey d (65536 * b + a)) → t.peek x = s.peek x) ∧
        (∀ k, k ≠ Reg.SS_POISON d 0 → k ≠ Reg.SS_POISON d 1 → k ≠ Reg.SS_RLRAISED d 0 → k ≠ Reg.SS_RLRAISED d 1 →
          t.reg k = s.reg k))

/-- The commands that clear counters and those that clear flags or set off a block's small acts. -/
def Obligations.ClearCommands : Prop := Claims.CountersClear ∧ Claims.FlagsClear

/-! ## Axes -/

namespace Sys2Proof.Claims

/-- Is the change of (A, B) from `va`, `vb` to `a`, `b` one step of the forward sequence 00, 10, 11, 01 (R27)? -/
def stepUp (va vb a b : Bool) : Prop := (a ≠ va ∧ b = vb ∧ a = !vb) ∨ (a = va ∧ b ≠ vb ∧ b = va)
/-- One step of the reverse sequence? -/
def stepDown (va vb a b : Bool) : Prop := stepUp a b va vb
/-- Shortest pulse in ticks that an axis's filter passes (R53). -/
def filterTicks (cfg : Word) : Nat := match field cfg 0 3 with | 0 => 0 | f => 4 ^ (f - 1)
/-- Word `j` of a 48-bit position. -/
def posWord (p : Pos) (j : Nat) : Word := mod16 (p.toNat / 65536 ^ j)
/-- The registers that a deviation of axis `n` with this cause at position `p` writes (R36). -/
def Deviated (s t : State) (n cause : Nat) (p : Pos) : Prop :=
  t.reg (Reg.AX_DEVSEQ n) = s.reg (Reg.AX_DEVSEQ n) + 1 ∧ t.reg (Reg.AX_DEVCNT n) = satAdd (s.reg (Reg.AX_DEVCNT n)) 1 ∧
    t.reg (Reg.AX_DEVCAUSE n) = mod16 cause ∧ t.reg (Reg.AX_DEVPOSF n) = posWord p 0 ∧ t.reg (Reg.AX_DEVPOSL n) = posWord p 1 ∧
    t.reg (Reg.AX_DEVPOSH n) = posWord p 2 ∧ bit (t.reg (Reg.AX_STAT n)) 15 = true
/-- A deviation with what follows from it: its event goes to HUB and each sorting die in service (R330), and every open epoch on the
axis whose mark is not due there is recalled (R13, R37). -/
def Deviates (s t : State) (n cause : Nat) (p : Pos) : Prop :=
  Deviated s t n cause p ∧ (t.axis n).devSince = true ∧
    ((s.globalEvs.getD n GlobalEv.reset).held = 0 → (s.globalEvs.getD n GlobalEv.reset).sentUs ≠ some s.refUs → s.paused = false →
      (s.undeliverable 7 0 = none → Msg.globalEv 0 n 1 false ∈ t.msgs) ∧
      ∀ d, isSort d = true → s.undeliverable 7 d = none → Msg.globalEv d (128 + n) 1 false ∈ t.msgs) ∧
    (∀ c i, c < 128 → i < 4 → let r := s.epRow c i
      r.state = .isOpen → r.lineage = false → r.axis = n → r.met = false → 2 ^ 47 ≤ (p - r.mark).toNat →
      (t.epRow c i).state = .ending ∧ (t.epRow c i).lastGen = r.gen ∧ (t.epRow c i).lastSettled = false)
/-- Every copy of axis `n` raises a deviation with cause SOURCE (R31). -/
def CopiesDeviate (s t : State) (n : Nat) : Prop :=
  ∀ k, k < 15 → s.axSrc k = 3 → s.axSel k = n → s.axState k ≠ .off → t.reg (Reg.AX_DEVSEQ k) = s.reg (Reg.AX_DEVSEQ k) + 1 ∧
    t.reg (Reg.AX_DEVCAUSE k) = 9
/-- What the axis unit, the epoch table and the parcels they send hold; everything else of the device stays. -/
def OnlyAxes (s t : State) : Prop :=
  ∃ ax rg ms ep ob ge rt lk, t = { s with axes := ax, regs := rg, msgs := ms, epochs := ep, outbox := ob, globalEvs := ge,
                                          routers := rt, links := lk }
/-- Every axis that is neither `n` nor a copy keeps its state. -/
def OthersStay (s t : State) (n : Nat) : Prop := ∀ m, m ≠ n → s.axSrc m ≠ 3 → t.axis m = s.axis m
/-- Does the axis interpolate from a measured interval, or not interpolate at all? -/
def measured (s : State) (n : Nat) : Prop := (s.axis n).state ≠ .track ∨ 0 < (s.axis n).tpred

/-- The SRC and SEL that AXn_CFG accepts (R25, R31, R32, R54), of pads in use (R508). -/
def cfgAccepted (s : State) (n : Nat) (v : Word) : Prop :=
  let sel := field v 8 4
  n ≠ 15 ∧ (field v 12 4 = 0 ∨
    (field v 12 4 = 1 ∧ sel < 12 ∧ s.padEn (0x140 + 3 * sel) = true ∧ s.padEn (0x141 + 3 * sel) = true) ∨
    (field v 12 4 = 2 ∧ sel < 6 ∧ s.padEn (0x164 + sel) = true ∧ field v 3 3 ≤ 3) ∨
    (field v 12 4 = 3 ∧ (sel < n ∨ sel = 15)))
/-- A new broadcast epoch is announced to HUB and each sorting die in service (R55, R267). -/
def Announces (s t : State) : Prop :=
  let e := ((s.reg Reg.AX_BEPOCH).toNat + 1) % 256
  t.reg Reg.AX_BEPOCH = mod16 e ∧
    ∀ d, (d = 0 ∨ isSort d = true) → s.inService d = true →
      (s.undeliverable 7 d = none → Msg.bepoch d e ∈ t.msgs) ∧ (t.die d).bePend = true ∧ t.bePause = some s.now

end Sys2Proof.Claims

/-- R27, R28, R30, R33, R34, R38: an edge moves the count by one, in the direction the pair of levels or the mains edge gives, with
fraction 0000h; an illegal transition counts in EDGEERR and deviates; an edge against the direction in TRACK deviates with REVERSE and
returns the axis to ACQUIRE, and an axis in STOPPED or LOST returns there too. -/
def Sys2Proof.Claims.EdgesCount : Prop :=
  (∀ (s : State) (e : Fin 12) (a b : Bool) (hold : Nat), s.live = true → s.padEn (0x140 + 3 * e.val) = true →
    s.padEn (0x141 + 3 * e.val) = true →
    ∃ t pn wk, exec (.encoderTransition e a b hold) s = .next t ∧ Claims.OnlyAxes { s with encPins := pn, encWake := wk } t ∧
      ∀ n, n < 15 → s.axSrc n = 1 → s.axSel n = e.val →
        let x := s.axis n
        let inv := bit (s.reg (Reg.AX_CFG n)) 7
        (hold < Claims.filterTicks (s.reg (Reg.AX_CFG n)) → t.axis n = x) ∧
        (Claims.filterTicks (s.reg (Reg.AX_CFG n)) ≤ hold →
          (t.axis n).va = a ∧ (t.axis n).vb = b ∧
          (a = x.va ∧ b = x.vb → t.axis n = x) ∧
          (∀ back, (Claims.stepUp x.va x.vb a b ∧ back = inv) ∨ (Claims.stepDown x.va x.vb a b ∧ back = !inv) →
            (t.axis n).int = (if back then x.int - 1 else x.int + 1) ∧ (t.axis n).base = 0 ∧ (t.axis n).t0 = s.now ∧
            (t.axis n).back = back ∧ bit (t.reg (Reg.AX_STAT n)) 3 = back ∧
            (x.state = .track → back = x.back → (t.axis n).state = .track) ∧
            (x.state = .track → back ≠ x.back → (t.axis n).state = .acquire ∧
              Claims.Deviates s t n 4 (BitVec.ofNat 48 (65536 * (t.axis n).int.toNat))) ∧
            (x.state = .stopped → (t.axis n).state = .acquire ∧ t.reg (Reg.AX_DEVSEQ n) = s.reg (Reg.AX_DEVSEQ n))) ∧
          (a ≠ x.va → b ≠ x.vb → x.state ≠ .off →
            (t.axis n).int = x.int ∧ (t.axis n).state = x.state ∧ bit (t.reg (Reg.AX_STAT n)) 14 = true ∧
            t.reg (Reg.AX_EDGEERR n) = satAdd (s.reg (Reg.AX_EDGEERR n)) 1 ∧ Claims.Deviates s t n 5 (s.axPos n)))) ∧
  (∀ (s : State) (m : Fin 6) (falling : Bool), s.live = true → s.padEn (0x164 + m.val) = true →
    ∃ t ch fe, exec (.mainsZeroCross m falling) s = .next t ∧ Claims.OnlyAxes { s with chans := ch, fe := fe } t ∧
      ∀ n, n < 15 → s.axSrc n = 2 → s.axSel n = m.val → bit (s.reg (Reg.AX_CFG n)) 6 = falling →
        let x := s.axis n
        let gap := s.now - x.lastEdge
        (t.axis n).int = x.int + 1 ∧ (t.axis n).base = 0 ∧ (t.axis n).t0 = s.now ∧
        (x.state = .lost → (t.axis n).state = .acquire ∧ (t.axis n).same = 1) ∧
        (x.state = .acquire → x.edges ≠ [] → 2857200 ≤ gap → gap ≤ 5000000 → (t.axis n).same = x.same + 1 ∧
          ((t.axis n).state = .track ↔ 3 ≤ x.same + 1)) ∧
        (x.state = .acquire → x.edges ≠ [] → (gap < 2857200 ∨ 5000000 < gap) → (t.axis n).same = 1 ∧ (t.axis n).state = .acquire))

/-- R30, R33 to R35, R289: the timeouts of an axis: LATE deviates once; STOPPED and LOST freeze the position, and deviate only where
no deviation has been raised since the last edge; a PHASE channel of a lost axis goes SAFE. -/
def Sys2Proof.Claims.AxisTimeouts : Prop :=
  ∀ (s : State) (n : AxisId), s.live = true → n.val < 15 →
    let x := s.axis n.val
    let dv := field x.live 8 8
    let k := max (field x.live 4 4) 2
    (s.axSrc n.val = 1 ∨ s.axSrc n.val = 2 → x.state = .track → x.lateDone = false → dv ≠ 0 → 1 ≤ x.m →
      x.refEdge * 256 + x.m * x.tpred * (256 + dv) ≤ s.now * 256 →
      ∃ t, exec (.lateTimeout n) s = .next t ∧ Claims.OnlyAxes s t ∧ Claims.Deviates s t n.val 2 (s.axPos n.val) ∧
        Claims.CopiesDeviate s t n.val ∧ (t.axis n.val).state = .track ∧ (t.axis n.val).lateDone = true ∧ Claims.OthersStay s t n.val) ∧
    (s.axSrc n.val = 1 → x.state = .track → min (k * x.tpred) 268000000 ≤ s.now - x.lastEdge →
      ∃ t, exec (.stopTimeout n) s = .next t ∧ Claims.OnlyAxes s t ∧ (t.axis n.val).state = .stopped ∧
        (t.axis n.val).pos = s.axPos n.val ∧ (t.axis n.val).int = x.int ∧ Claims.OthersStay s t n.val ∧
        (x.devSince = false → Claims.Deviates s t n.val 3 (s.axPos n.val) ∧ Claims.CopiesDeviate s t n.val) ∧
        (x.devSince = true → t.regs = s.regs ∧ t.epochs = s.epochs)) ∧
    (s.axSrc n.val = 2 → x.state = .track → 3 * x.tpred ≤ 2 * (s.now - x.lastEdge) →
      ∃ t ch fe, exec (.mainsLostTimeout n) s = .next t ∧ Claims.OnlyAxes { s with chans := ch, fe := fe } t ∧
        (t.axis n.val).state = .lost ∧ t.axPos n.val = s.axPos n.val ∧ Claims.OthersStay s t n.val ∧
        (∀ c, c < 64 → field (s.reg (Reg.CH_CFG c)) 12 3 = 2 → field (s.reg (Reg.CH_CFG c)) 4 4 = n.val →
          (s.chans.getD c Chan.reset).state ≠ .off → bit (s.reg (Reg.CH_CFG c)) 15 = true → (t.chans.getD c Chan.reset).state = .safe) ∧
        (x.devSince = false → Claims.Deviates s t n.val 8 (s.axPos n.val)))

/-- R32, R34, R38, R54, R55: the axis commands of HOST and the postmasters: a forced deviation; a new position, which deviates with SET;
a new configuration, which keeps the position, deviates with RECONFIG and announces a new broadcast epoch; broadcast settings, which
announce one too. A refused write sets CFGERR alone. -/
def Sys2Proof.Claims.AxisCommands : Prop :=
  ∀ (s : State) (who : Requester) (n : AxisId), Calm s →
    let x := s.axis n.val
    (Reaches s who.val (Reg.AX_CTRL n.val) →
      let u := s.crossed (Reg.AX_CTRL n.val)
      (n.val = 15 ∨ s.axState n.val = .off → exec (.forceDev who n) s = .next u) ∧
      (n.val < 15 → s.axState n.val ≠ .off →
        ∃ t, exec (.forceDev who n) s = .next t ∧ Claims.OnlyAxes u t ∧ Claims.Deviates u t n.val 0xB (s.axPos n.val) ∧
          Claims.CopiesDeviate u t n.val ∧ t.axis n.val = { x with devSince := true, devAt := s.now } ∧ Claims.OthersStay s t n.val)) ∧
    (∀ h, Reaches s who.val (Reg.AX_SETH n.val) →
      let u := (s.crossed (Reg.AX_SETH n.val)).clearStage who.val (Reg.AX_SETF n.val) 3
      let p : Pos := BitVec.ofNat 48 ((s.staged who.val (Reg.AX_SETF n.val) 0).toNat +
        65536 * (s.staged who.val (Reg.AX_SETL n.val) 0).toNat + 2 ^ 32 * h.toNat)
      (n.val = 15 → exec (.axnSetWrite who n h) s = .next (u.setReg (Reg.AX_STAT 15) (u.reg (Reg.AX_STAT 15) ||| 0x1000))) ∧
      (n.val < 15 → s.axState n.val = .off → exec (.axnSetWrite who n h) s = .next u) ∧
      (n.val < 15 → s.axState n.val ≠ .off → s.axSrc n.val ≠ 3 → Claims.measured s n.val →
        ∃ t, exec (.axnSetWrite who n h) s = .next t ∧ Claims.OnlyAxes u t ∧ t.axPos n.val = p ∧ Claims.Deviates u t n.val 7 p ∧
          (t.axis n.val).state = x.state ∧ Claims.OthersStay s t n.val)) ∧
    (∀ v, Reaches s who.val (Reg.AX_CFG n.val) →
      let u := s.crossed (Reg.AX_CFG n.val)
      (¬ Claims.cfgAccepted s n.val v →
        exec (.axnCfgWrite who n v) s = .next (u.setReg (Reg.AX_STAT n.val) (u.reg (Reg.AX_STAT n.val) ||| 0x1000))) ∧
      (Claims.cfgAccepted s n.val v →
        ∃ t ds bp, exec (.axnCfgWrite who n v) s = .next t ∧ Claims.OnlyAxes { u with dies := ds, bePause := bp } t ∧
          t.reg (Reg.AX_CFG n.val) = v ∧ (t.axis n.val).state = (if field v 12 4 = 0 then .off else .acquire) ∧
          (field v 12 4 ≠ 0 → t.axPos n.val = s.axPos n.val) ∧ (t.axis n.val).edges = [] ∧ (t.axis n.val).tpred = x.tpred ∧
          Claims.Deviated u t n.val 0xA (if field v 12 4 = 0 then 0 else s.axPos n.val) ∧ Claims.Announces u t ∧
          Claims.OthersStay s t n.val)) ∧
    (∀ v (mask : Bool), let p := if mask then Reg.AX_BCAST_MASK else Reg.AX_BCAST_CFG
      Reaches s who.val p →
      ∃ t rg ds ms bp rt lk, exec (.axBcastWrite who mask v) s = .next t ∧
        t = { s.crossed p with regs := rg, dies := ds, msgs := ms, bePause := bp, routers := rt, links := lk } ∧
        t.reg p = (if mask then v else v &&& 0x803F) ∧ Claims.Announces (s.crossed p) t ∧
        Claims.Keeps (s.crossed p) t [p, Reg.AX_BEPOCH])

/-- Axes: timeouts of an axis and the commands to it. -/
def Obligations.AxisEvents : Prop := Claims.AxisTimeouts ∧ Claims.AxisCommands

/-- R39, R40: on the index edge LATCH, CHECK and CORRECT latch the position; CHECK and CORRECT raise INDEX where it is more than ZTOL
counts off, CORRECT moves it onto ZPOS with fraction 0000h. -/
def Sys2Proof.Claims.IndexEdges : Prop :=
  ∀ (s : State) (e : Fin 12) (hold n : Nat), s.live = true → s.padEn (0x142 + 3 * e.val) = true →
    n < 15 → s.axSrc n = 1 → s.axSel n = e.val → Claims.filterTicks (s.reg (Reg.AX_CFG n)) ≤ hold →
    let z := s.reg (Reg.AX_ZCFG n)
    let p := s.axPos n
    let md := 65536 * s.reg2 (Reg.AX_MODL n) (Reg.AX_MODH n)
    let zp := 65536 * s.reg2 (Reg.AX_ZPOSL n) (Reg.AX_ZPOSH n)
    let off := fun (d : Nat) => (p.toNat + d) % md = zp % md ∨ (p.toNat + md * 65536 - d) % md = zp % md
    let far := ∀ d, d ≤ 65536 * field z 0 8 → ¬ off d
    ∃ t, exec (.indexEdge e hold) s = .next t ∧ Claims.OnlyAxes s t ∧
      (field z 14 2 = 0 → t.axis n = s.axis n ∧ ∀ j, j < 3 → t.reg (Reg.AX_ZLATF n + j) = s.reg (Reg.AX_ZLATF n + j)) ∧
      (field z 14 2 ≠ 0 → ∀ j, j < 3 → t.reg (Reg.AX_ZLATF n + j) = Claims.posWord p j) ∧
      (field z 14 2 = 1 → t.axis n = s.axis n ∧ t.reg (Reg.AX_DEVSEQ n) = s.reg (Reg.AX_DEVSEQ n)) ∧
      (field z 14 2 = 2 → 0 < md → (t.axis n).int = (s.axis n).int ∧
        (far → bit (t.reg (Reg.AX_STAT n)) 13 = true ∧ Claims.Deviates s t n 6 p) ∧
        (¬ far → t.reg (Reg.AX_DEVSEQ n) = s.reg (Reg.AX_DEVSEQ n) ∧ t.reg (Reg.AX_STAT n) = s.reg (Reg.AX_STAT n))) ∧
      (field z 14 2 = 3 → 0 < md → Claims.measured s n → md ≤ p.toNat → p.toNat + md < 2 ^ 48 →
        (t.axPos n).toNat % md = zp % md ∧
        (far → bit (t.reg (Reg.AX_STAT n)) 13 = true ∧ Claims.Deviates s t n 6 (t.axPos n)) ∧
        (¬ far → t.reg (Reg.AX_DEVSEQ n) = s.reg (Reg.AX_DEVSEQ n)))

/-- Encoder transitions and index edges: what each does to the axis that counts it. -/
def Obligations.EncoderEdges : Prop := Claims.EdgesCount ∧ Claims.IndexEdges

/-- R46 to R48, R50, R267: a broadcast sample goes out for every axis of the mask with the next BSEQ; a die's replica applies a newer
parcel of the agreed epoch and discards and counts any other; it becomes STALE after four missed intervals; a die adopts an announced
broadcast epoch, and broadcasts resume when all have, or 200 µs after, with the silent dies out. -/
def Obligations.Broadcasts : Prop :=
  ∀ (s : State), s.live = true →
    (bit (s.reg Reg.AX_BCAST_CFG) 15 = true → s.bePause = none → s.inService 7 = true → s.paused = false →
      (∀ u, s.bcLast = some u → u + field (s.reg Reg.AX_BCAST_CFG) 0 6 + 1 ≤ s.refUs) →
      ∃ t rg ms rt lk, exec .broadcastSample s = .next t ∧
        t = { s with regs := rg, msgs := ms, routers := rt, links := lk, bcLast := some s.refUs } ∧
        t.reg Reg.AX_BSEQ = s.reg Reg.AX_BSEQ + 1 ∧
        ∀ d n, (d = 0 ∨ isSort d = true) → s.inService d = true → n < 16 → bit (s.reg Reg.AX_BCAST_MASK) n = true →
          s.undeliverable 7 d = none →
          Msg.bcast d n ⟨Claims.posWord (s.axPos n) 0, Claims.posWord (s.axPos n) 1, Claims.posWord (s.axPos n) 2,
            Claims.mod16 (256 * (s.reg Reg.AX_BEPOCH).toNat + (s.axState n).code), s.reg (Reg.AX_DEVSEQ n),
            Claims.mod16 (s.axTpred n), Claims.mod16 (s.axTpred n / 65536), s.reg Reg.AX_BSEQ + 1⟩ ∈ t.msgs) ∧
    (∀ (d : DieId) (n : AxisId) (x : Sheet) (u : State),
      Claims.Arrives s (fun m => match m with | .bcast e a _ => e == d.val && a == n.val | _ => false) (.bcast d.val n.val x) u →
      let r := u.replica d.val n.val
      let ok := (r.fresh = true ∨ (x.l7 ≠ BitVec.ofNat 16 r.seq ∧ (x.l7 - BitVec.ofNat 16 r.seq).toNat < 0x8000)) ∧
        field x.l3 8 8 = (u.die d.val).bepoch
      ∃ t, exec (.broadcastApply d n) s = .next t ∧
        (ok → ∃ rp, t = { u with replicas := rp } ∧
          (t.replica d.val n.val).pos = BitVec.ofNat 48 (x.l0.toNat + 65536 * x.l1.toNat + 2 ^ 32 * x.l2.toNat) ∧
          (t.replica d.val n.val).state = field x.l3 0 3 ∧ (t.replica d.val n.val).devSeq = x.l4 ∧
          (t.replica d.val n.val).seq = x.l7.toNat ∧ (t.replica d.val n.val).lastUs = u.refUs ∧
          (r.stale = false → (x.l7 - BitVec.ofNat 16 r.seq).toNat < 5 → (t.replica d.val n.val).stale = false) ∧
          (r.stale = true → r.fresh = false → r.run = 1 → x.l7 = BitVec.ofNat 16 r.seq + 1 → (t.replica d.val n.val).stale = false) ∧
          (∀ e a, a < 16 → (e ≠ d.val ∨ a ≠ n.val) → t.replica e a = u.replica e a)) ∧
        (¬ ok → t = { u with regs := t.regs } ∧ t.reg (Reg.FD_BCDISC d.val) = satAdd (u.reg (Reg.FD_BCDISC d.val)) 1 ∧
          (∀ k, k ≠ Reg.FD_BCDISC d.val → t.reg k = u.reg k))) ∧
    (∀ (d : DieId) (n : AxisId), (s.replica d.val n.val).stale = false →
      let missed := 4 * (field (s.reg Reg.AX_BCAST_CFG) 0 6 + 1) ≤ s.refUs - (s.replica d.val n.val).lastUs
      (missed → exec (.replicaStale d n) s =
          .next (s.setReplica d.val n.val { s.replica d.val n.val with stale := true, run := 0 })) ∧
      (¬ missed → exec (.replicaStale d n) s = .next s)) ∧
    (∀ (d : DieId) (e : Nat) (u : State),
      Claims.Arrives s (fun m => match m with | .bepoch x _ => x == d.val | _ => false) (.bepoch d.val e) u →
      ∃ t rg ds bp, exec (.bepochAnnouncement d) s = .next t ∧
        t = { u with regs := rg, dies := ds, bePause := bp } ∧ (t.die d.val).bepoch = e ∧
        t.reg (Reg.FD_BEPOCH d.val) = Claims.mod16 e ∧ (∀ f, f ≠ d.val → t.die f = u.die f) ∧
        (e = (u.reg Reg.AX_BEPOCH).toNat → (∀ f, f ≠ d.val → (u.die f).bePend = false) → t.bePause = none)) ∧
    (∀ t0, s.bePause = some t0 → Calm s →
      (s.now < t0 + 40000 → exec .bepochAckTimeout s = .next s) ∧
      (t0 + 40000 ≤ s.now → (∀ d, d < 8 → (s.die d).bePend = false) → exec .bepochAckTimeout s = .next { s with bePause := none }) ∧
      (∀ d, t0 + 40000 ≤ s.now → 3 ≤ d → d ≤ 6 → (s.die d).bePend = true → (∀ f, f ≠ d → (s.die f).bePend = false) →
        s.inService d = true → s.fallback d true = [] →
        ∃ t, exec .bepochAckTimeout s = .next t ∧ t.bePause = none ∧ t.inService d = false ∧ (t.die d).state = .out))

/-! ## The epoch table and the mailbags -/

namespace Sys2Proof.Claims

/-- Does no clerk wait for postage-free work of this kind? -/
def NoneWaits (s : State) (kind : WaitKind) : Prop := ∀ c w, (s.clerk c).waiting = some w → w.kind ≠ kind
/-- Is the epoch of a row not decided yet (R166)? -/
def undecided (r : EpRow) : Prop := r.state = .isOpen ∨ r.state = .held
/-- Has the epoch with this tag been decided settled, or is the tag 0000h (R538)? -/
def committed (s : State) (tag : Word) : Prop :=
  let r := s.epRow (tag.toNat / 512) (tag.toNat / 128 % 4)
  tag = 0 ∨ (¬ (undecided r ∧ r.gen = tag.toNat % 128) ∧ r.lastGen = tag.toNat % 128 ∧ r.lastGen ≠ 0 ∧ r.lastSettled = true)
/-- Is it the tag of an undecided epoch? -/
def open_ (s : State) (tag : Word) : Prop :=
  let r := s.epRow (tag.toNat / 512) (tag.toNat / 128 % 4)
  tag ≠ 0 ∧ undecided r ∧ r.gen = tag.toNat % 128
/-- Entries of an epoch on DISPATCH: no list and no write buffer holds one under its tag any more. -/
def noEntries (t : State) (tag : Word) : Prop :=
  (∀ a l, (a, l) ∈ t.outbox.lists → ∀ e ∈ l, e.tag ≠ tag) ∧ ∀ e ∈ t.outbox.wbuf, e.tag ≠ tag
/-- What the epoch table's decisions change. -/
def OnlyTable (s t : State) : Prop :=
  ∃ rg ms ep ob rt lk, t = { s with regs := rg, msgs := ms, epochs := ep, outbox := ob, routers := rt, links := lk }
/-- The epoch in slot `i` of clerk `c` is recalled with this cause (R186, R188, R193): it is ENDING, with every epoch that followed
from it; none of its entries stays under its tag; the clerk gets the recall where it has no older epoch. -/
def Recalled (s t : State) (c i cause : Nat) : Prop :=
  let r := s.epRow c i
  let tag := tagOf c i r.gen
  OnlyTable s t ∧ (t.epRow c i).state = .ending ∧ (t.epRow c i).lastGen = r.gen ∧ (t.epRow c i).lastSettled = false ∧
    (∀ j, j < 4 → undecided (s.epRow c j) → r.seq < (s.epRow c j).seq → (t.epRow c j).state = .ending) ∧
    (∀ e j, e < 128 → j < 4 → undecided (s.epRow e j) → (s.epRow e j).lineage = true → (s.epRow e j).parent = tag →
      (t.epRow e j).state = .ending) ∧
    noEntries t tag ∧
    ((∀ j, j < 4 → j ≠ i → ¬ undecided (s.epRow c j)) → s.undeliverable 7 (clerkDie c) = none →
      Msg.recallClerk c tag cause ∈ t.msgs)
/-- A registration that no recall of its clerk overtakes: the clerk still holds the epoch and no recall of its other epochs is being
carried out. -/
def arrives (s : State) (c : Nat) (tag : Word) : Prop :=
  tag ≠ 0 ∧ tag.toNat / 512 = c ∧ (∃ i, i < 4 ∧ (s.clerk c).slotTag c i = tag) ∧
    ∀ i, i < 4 → ¬ ((s.epRow c i).state = .ending ∧ (s.epRow c i).lastSettled = false)
/-- The row of a registered epoch, OPEN, younger than every other of its clerk. -/
def Entered (s t : State) (c : Nat) (tag : Word) (p : EpRow → Prop) : Prop :=
  let i := tag.toNat / 128 % 4
  (t.epRow c i).state = .isOpen ∧ (t.epRow c i).gen = tag.toNat % 128 ∧ p (t.epRow c i) ∧
    (∀ j, j < 4 → (s.epRow c j).seq < (t.epRow c i).seq) ∧ (∀ e j, e < 128 → j < 4 → (e ≠ c ∨ j ≠ i) → t.epRow e j = s.epRow e j)

end Sys2Proof.Claims

/-- R172, R182: a registration opens its row; one planned before the axis's last deviation, or whose parent was recalled, is recalled
at once, with causes 2 and 5. -/
def Sys2Proof.Claims.Registrations : Prop :=
  ∀ (s u : State) (c : Fin 128) (tag : Word), Claims.arrives u c.val tag →
    (∀ e j, e < 128 → j < 4 → (u.epRow e j).parent ≠ tag) →
    let i := tag.toNat / 128 % 4
    let told := fun (t : State) (cause : Nat) =>
      u.undeliverable 7 (clerkDie c.val) = none → Msg.recallClerk c.val tag cause ∈ t.msgs
    (∀ (p : Pos) (ax : Nat) (seq : Word), ax < 16 →
      Claims.Arrives s (fun m => match m with | .registration x _ _ _ => decide (x.toNat / 512 = c.val) | _ => false)
        (.registration tag p ax seq) u →
      let ahead := u.reg (Reg.AX_DEVSEQ ax) - seq
      ((0 < ahead.toNat ∧ ahead.toNat < 0x8000) → ∃ t, exec (.epochRegistration c) s = .next t ∧ Claims.OnlyTable u t ∧
        (t.epRow c.val i).state = .ending ∧ (t.epRow c.val i).lastSettled = false ∧ (t.epRow c.val i).lastGen = tag.toNat % 128 ∧
        t.reg Reg.EPOCH_REGREC = satAdd (u.reg Reg.EPOCH_REGREC) 1 ∧ told t 2) ∧
      (ahead.toNat = 0 ∨ 0x8000 ≤ ahead.toNat → (u.axis ax).devSince = false →
        ∃ t ep, exec (.epochRegistration c) s = .next t ∧ t = { u with epochs := ep } ∧
          Claims.Entered u t c.val tag fun r => r.lineage = false ∧ r.axis = ax ∧ r.mark = p ∧
            (r.met = true ↔ (u.axPos ax - p).toNat < 2 ^ 47))) ∧
    (∀ parent : Word,
      Claims.Arrives s (fun m => match m with
        | .lineage x p => decide (x.toNat / 512 = c.val) && !(s.msgs.any fun o => match o with
            | .registration y _ _ _ => y == p
            | .lineage y _ => y == p
            | _ => false)
        | _ => false) (.lineage tag parent) u →
      (Claims.committed u parent ∨ Claims.open_ u parent →
        ∃ t ep, exec (.lineageRegistration c) s = .next t ∧ t = { u with epochs := ep } ∧
          Claims.Entered u t c.val tag fun r => r.lineage = true ∧ r.parent = parent ∧ (r.met = true ↔ Claims.committed u parent)) ∧
      (¬ Claims.committed u parent → ¬ Claims.open_ u parent →
        ∃ t, exec (.lineageRegistration c) s = .next t ∧ Claims.OnlyTable u t ∧ (t.epRow c.val i).state = .ending ∧
          (t.epRow c.val i).lastSettled = false ∧ t.reg Reg.EPOCH_REGREC = satAdd (u.reg Reg.EPOCH_REGREC) 1 ∧ told t 5))

/-- R183 to R188, R193: decisions of the table: an epoch whose condition is met settles, or is HELD behind an older one; a RECALL and
EPOCH_RECALL recall an undecided epoch, with causes 3 and 4, and nothing else. -/
def Sys2Proof.Claims.Decisions : Prop :=
  (∀ (s : State) (c : Fin 128) (i : Fin 4), s.live = true →
    let r := s.epRow c.val i.val
    let tag := Claims.tagOf c.val i.val r.gen
    let met := r.met = true ∨ (r.lineage = true ∧ Claims.committed s r.parent) ∨
      (r.lineage = false ∧ (s.axPos r.axis - r.mark).toNat < 2 ^ 47)
    let older := ∃ j, j < 4 ∧ Claims.undecided (s.epRow c.val j) ∧ (s.epRow c.val j).seq < r.seq
    (¬ Claims.undecided r ∨ ¬ met → exec (.epochSettle c i) s = .next s) ∧
    (Claims.undecided r → met → older →
      exec (.epochSettle c i) s = .next (s.setEpRow c.val i.val { r with met := true, state := .held })) ∧
    (Claims.undecided r → met → ¬ older → r.gen ≠ 0 → r.gen < 128 →
      ∃ t, exec (.epochSettle c i) s = .next t ∧ Claims.OnlyTable s t ∧
        t.epRow c.val i.val = { r with state := .ending, lastGen := r.gen, lastSettled := true } ∧
        (∀ e j, e < 128 → j < 4 → (e ≠ c.val ∨ j ≠ i.val) → t.epRow e j = s.epRow e j) ∧ Claims.Keeps s t [] ∧
        Claims.noEntries t tag ∧ (∀ a, (t.outbox.lists.getD a []).map ObEntry.e = (s.outbox.lists.getD a []).map ObEntry.e) ∧
        (s.undeliverable 7 (clerkDie c.val) = none → Msg.settleClerk tag ∈ t.msgs) ∧ (∀ d n x, Msg.push d n x ∈ t.msgs → x.tag ≠ tag))) ∧
  (∀ (s u : State) (c : Fin 128) (i : Fin 4),
    let r := u.epRow c.val i.val
    let tag := Claims.tagOf c.val i.val r.gen
    Claims.NoneWaits u .dsync → r.gen ≠ 0 → r.gen < 128 →
    Claims.Arrives s (fun m => match m with
      | .recallReq _ => true
      | .recallHalt _ => true
      | .recallDie _ => true
      | .recallDrain _ => true
      | _ => false) (.recallReq tag) u →
    (Claims.undecided r → ∃ t, exec .recallDecision s = .next t ∧ Claims.Recalled u t c.val i.val 3) ∧
    (¬ Claims.undecided r → exec .recallDecision s = .next (u.launch (.recallAnswer c.val)))) ∧
  (∀ (s : State) (who : Requester) (c : Fin 128) (i : Fin 4), Reaches s who.val Reg.EPOCH_RECALL → Calm s →
    let r := s.epRow c.val i.val
    let tag := Claims.tagOf c.val i.val r.gen
    let u := s.crossed Reg.EPOCH_RECALL
    r.gen ≠ 0 → r.gen < 128 →
    (Claims.undecided r → ∃ t, exec (.epochRecall who tag) s = .next t ∧ Claims.Recalled u t c.val i.val 4) ∧
    (¬ Claims.undecided r → exec (.epochRecall who tag) s = .next u))

namespace Sys2Proof.Claims

/-- The sheet a settle of `tag` makes of a draft: ordinary, where it carries the tag (R185). -/
def settledItem (tag : Word) (x : BagItem) : BagItem := if x.tag = tag then { x with tag := 0, depth := 0 } else x
/-- Everything the mailbag holds in registers, oldest first. -/
def Bag.inHand (b : Bag) : List BagItem := b.head ++ b.tail

end Sys2Proof.Claims

/-- R179, R185, R193, R213, R214, R220: the engine of a die carries out a settle: drafts of the epoch become ordinary, retained copies
of its pops go; and a recall: drafts of the recalled epochs go, the sheets they popped return ahead of every other, and the high-water
marks follow. Other dies' mailbags stay. -/
def Sys2Proof.Claims.EngineParcels : Prop :=
  ∀ (s u : State) (d : DieId), Claims.NoneWaits u .push →
    (∀ tag : Word, tag ≠ 0 →
      Claims.Arrives s (fun m => match m with | .settleMbe e _ => e == d.val | _ => false) (.settleMbe d.val tag) u →
      ∃ t bs ar, exec (.settleParcelMbe d) s = .next t ∧ t = { u with bags := bs, arrivals := ar } ∧
        (∀ n, n / 128 = d.val → (t.bag n).head = (u.bag n).head.map (Claims.settledItem tag) ∧
          (t.bag n).tail = (u.bag n).tail.map (Claims.settledItem tag) ∧ ∀ r ∈ (t.bag n).retained, r.popper ≠ tag) ∧
        (∀ n, n / 128 ≠ d.val → t.bag n = u.bag n)) ∧
    (∀ tags : List Word, 0 ∉ tags →
      Claims.Arrives s (fun m => match m with | .recallMbe e _ => e == d.val | _ => false) (.recallMbe d.val tags) u →
      ∃ t bs ar ms rg, exec (.recallParcelMbe d) s = .next t ∧ t = { u with bags := bs, arrivals := ar, msgs := ms, regs := rg } ∧
        (∀ n, n / 128 = d.val → (u.bag n).spill = [] → Claims.Bag.inHand (t.bag n) =
          (((u.bag n).retained.filter fun r => tags.contains r.popper && !(tags.contains r.item.tag)).map Retained.item) ++
            (Claims.Bag.inHand (u.bag n)).filter (fun x => !(tags.contains x.tag))) ∧
        (∀ n, n / 128 = d.val → ∀ r ∈ (t.bag n).retained, r.popper ∉ tags) ∧
        (∀ n, n / 128 = d.val → n < 1024 → (t.bag n).visible < 2 ^ 32 →
          (t.bag n).visible ≤ t.reg2 (Reg.MB_HWMARKL n) (Reg.MB_HWMARKH n)) ∧
        (∀ n, n / 128 ≠ d.val → t.bag n = u.bag n))

/-- R172, R179, R182 to R188, R193: the epoch table registers, settles and recalls, and the mailbag engines carry it out. -/
def Obligations.EpochTable : Prop := Claims.Registrations ∧ Claims.Decisions ∧ Claims.EngineParcels

namespace Sys2Proof.Claims

/-- Words of three sheets of a spill block and its sequence word, as they lie in DDR5 from word `a` on (R201). -/
def blockHolds (t : State) (a : Nat) (is : List BagItem) (seq : Nat) : Prop :=
  (∀ i x, is[i]? = some x → (∀ j, j < 8 → t.peek (ddrKey (a + 8 * i + j)) = x.data.lane j) ∧ t.peek (ddrKey (a + 27 + i)) = x.tag) ∧
    t.peek (ddrKey (a + 30)) = mod16 seq ∧ (t.peek (ddrKey (a + 31))).toNat % 4 = is.length
/-- Are spill blocks moved now: the device runs, no sleep entry pauses it, and the mailbag's route has a DDR stamp (R202, R370)? -/
def spills (s : State) (n : Nat) : Prop :=
  s.live = true ∧ s.paused = false ∧ s.hasStamp 0 (field (s.reg (Reg.MB_CFG n)) 0 8) 1 = true
/-- The mark a spilled sheet leaves with the engine. -/
def markOf (x : BagItem) : SpillMark := { tag := x.tag, depth := x.depth, removed := false, flips := x.flips }

end Sys2Proof.Claims

/-- R198, R203 to R205: a push that arrives enters an enabled mailbag with room, last; at a full or disabled one it is a dead letter with
cause 1, and counted; with no register free it waits in the arrival buffer, from which it enters later. -/
def Sys2Proof.Claims.Arrivals : Prop :=
  ∀ (s : State) (n : Fin 1024) (src : Nat) (x : BagItem) (flips : Fin 3), s.live = true → x.tag = 0 →
    let d := n.val / 128
    let b := s.bag n.val
    let item : BagItem := { x with flips := flips.val }
    let can := bit (s.reg (Reg.MB_CFG n.val)) 15 = true ∧ b.held < s.bagCap n.val
    let entered := fun (t : State) => Claims.Bag.inHand (t.bag n.val) = Claims.Bag.inHand b ++ [item] ∧
      (t.bag n.val).spill = b.spill ∧ (t.bag n.val).retained = b.retained ∧ (∀ m, m ≠ n.val → t.bag m = s.bag m) ∧
      (∀ k, k ≠ Reg.MB_HWMARKL n.val → k ≠ Reg.MB_HWMARKH n.val → t.reg k = s.reg k)
    (∀ s0, Claims.Arrives s0 (fun m => match m with | .push _ b _ => b == n.val | _ => false) (.push src n.val x) s →
      s0.live = true → (s0.arrivalsOf d).length < 32 → Claims.NoneWaits s .dsync → (s.arrivalsOf d).length < 32 →
      let ahead := ∃ e ∈ s.arrivalsOf d, e.1 = n.val
      let free := b.tail.length + s.savedTail n.val < 8
      (can → ¬ ahead → free → ∃ t bs rg, exec (.mailbagPush n flips) s0 = .next t ∧
        t = { s with bags := bs, regs := rg } ∧ entered t) ∧
      (¬ can → ∃ t rg ms, exec (.mailbagPush n flips) s0 = .next t ∧ t = { s with regs := rg, msgs := ms } ∧
        t.reg (Reg.MB_FULLDROP n.val) = satAdd (s.reg (Reg.MB_FULLDROP n.val)) 1 ∧ bit (t.reg (Reg.MB_STAT n.val)) 14 = true ∧
        (∀ k, k ≠ Reg.MB_FULLDROP n.val → k ≠ Reg.MB_STAT n.val → t.reg k = s.reg k) ∧ ∃ w, Msg.dead 1 d w ∈ t.msgs) ∧
      (can → (ahead ∨ ¬ free) → ∃ t ar rg ms, exec (.mailbagPush n flips) s0 = .next t ∧
        t = { s with arrivals := ar, regs := rg, msgs := ms } ∧ t.arrivalsOf d = s.arrivalsOf d ++ [(n.val, item)] ∧
        (∀ e, e ≠ d → t.arrivalsOf e = s.arrivalsOf e))) ∧
    (∀ (dd : DieId) (rest : List (Nat × BagItem)), dd.val = d → Claims.NoneWaits s .push → s.arrivalsOf d = (n.val, item) :: rest →
      can → b.tail.length + s.savedTail n.val < 8 → ∃ t bs ar rg, exec (.arrivalBufferDrain dd) s = .next t ∧
        t = { s with bags := bs, arrivals := ar, regs := rg } ∧ entered t ∧ t.arrivalsOf d = rest)

/-- R200 to R202, R208, R211, R220: a pop through MB_DATA0 takes the oldest ordinary sheet, and its lanes stand latched for the reader;
an empty mailbag sets EMPTYRD. FLUSH discards every ordinary sheet. The oldest three sheets of the tail go to DDR5 as one block, and a
block read back returns its sheets to the head; without a stamp of the route the block waits. -/
def Sys2Proof.Claims.BagCommands : Prop :=
  (∀ (s : State) (who : Requester) (n : Fin 1024), Reaches s who.val (Reg.MB_DATA n.val 0) → Calm s → (s.clerk who.val).ep = false →
    s.popSlot n.val = none → bit (s.reg (Reg.MB_CFG n.val)) 15 = true →
    let d := n.val / 128
    let u := (s.crossed (Reg.MB_DATA n.val 0)).passRoute d 0
    let b := s.bag n.val
    (∀ x rest, b.head = x :: rest → x.tag = 0 → x.flips = 0 →
      ∃ t bs sn, exec (.mbData0Read who n) s = .next t ∧ t = { u with bags := bs, snaps := sn } ∧
        Claims.Bag.inHand (t.bag n.val) = rest ++ b.tail ∧ (∀ m, m ≠ n.val → t.bag m = s.bag m) ∧
        (∀ j, 1 ≤ j → j < 8 → t.snaps.getD (ownKey who.val (Reg.MB_DATA n.val j)) 0 = x.data.lane j)) ∧
    (b.head = [] → b.tail = [] →
      ∃ t bs sn, exec (.mbData0Read who n) s = .next t ∧ t = { u with regs := t.regs, bags := bs, snaps := sn } ∧
        t.reg (Reg.MB_STAT n.val) = s.reg (Reg.MB_STAT n.val) ||| 0x1000 ∧ (∀ m, t.bag m = s.bag m) ∧
        (∀ j, 1 ≤ j → j < 8 → t.snaps.getD (ownKey who.val (Reg.MB_DATA n.val j)) 0 = 0))) ∧
  (∀ (s : State) (who : Requester) (n : Fin 1024), Reaches s who.val (Reg.MB_CTL n.val) → Calm s →
    ∃ t bs, exec (.mbCtlFlush who n) s = .next t ∧ t = { s.crossed (Reg.MB_CTL n.val) with bags := bs } ∧
      (∀ x ∈ Claims.Bag.inHand (t.bag n.val), x.tag ≠ 0) ∧
      Claims.Bag.inHand (t.bag n.val) = (Claims.Bag.inHand (s.bag n.val)).filter (fun x => x.tag != 0) ∧
      (∀ m ∈ (t.bag n.val).marks, m.tag = 0 → m.removed = true) ∧ (t.bag n.val).retained = (s.bag n.val).retained ∧
      (∀ m, m ≠ n.val → t.bag m = s.bag m)) ∧
  (∀ (s : State) (n : Fin 1024) (x y z : BagItem) (rest : List BagItem), Claims.NoneWaits s .push →
    let b := s.bag n.val
    let a := s.blockAddr n.val b.nextBlock
    b.tail = x :: y :: z :: rest → b.spill.length < s.spLen n.val → (b.spill ≠ [] ∨ 8 ≤ b.head.length) →
    (Claims.spills s n.val → ∃ t, exec (.spillBlockWrite n) s = .next t ∧ (t.bag n.val).tail = rest ∧ (t.bag n.val).head = b.head ∧
      (t.bag n.val).spill = b.spill ++ [{ idx := b.nextBlock, marks := [Claims.markOf x, Claims.markOf y, Claims.markOf z] }] ∧
      (t.bag n.val).retained = b.retained ∧ (∀ m, m ≠ n.val → t.bag m = s.bag m) ∧
      Claims.blockHolds t a [x, y, z] b.nextBlock ∧ (∀ k, (∀ j, j < 32 → k ≠ ddrKey (a + j)) → t.peek k = s.peek k) ∧
      t.clerks = s.clerks) ∧
    (s.live = true → s.paused = false → s.hasStamp 0 (field (s.reg (Reg.MB_CFG n.val)) 0 8) 1 = false →
      ∃ t, exec (.spillBlockWrite n) s = .next t ∧ t.bags = s.bags ∧ t.mem = s.mem ∧
        bit (t.mbStat n.val) 11 = true)) ∧
  (∀ (s : State) (n : Fin 1024) (blk : SpillBlock) (rest : List SpillBlock) (is : List BagItem),
    let b := s.bag n.val
    b.spill = blk :: rest → b.head.length ≤ 5 → is.length < 4 → is ≠ [] → blk.marks = is.map Claims.markOf →
    s.peeks (ddrKey (s.blockAddr n.val blk.idx)) 32 = blockWords is blk.idx → s.ddrUe (s.blockAddr n.val blk.idx) 32 = false →
    Claims.spills s n.val → ∃ t, exec (.spillBlockRead n) s = .next t ∧ (t.bag n.val).spill = rest ∧
      Claims.Bag.inHand (t.bag n.val) = b.head ++ is ++ b.tail ∧ (t.bag n.val).retained = b.retained ∧ t.mem = s.mem ∧
      (∀ m, m ≠ n.val → t.bag m = s.bag m))

/-- R198 to R205, R208, R211, R220: the mailbags: arrivals, pops by port, FLUSH and the spill. -/
def Obligations.Mailbags : Prop := Claims.Arrivals ∧ Claims.BagCommands

/-! ## DDR5 -/

/-- What errors of DDR5 change: counters and records, the row table and its windows, the uncorrectable bursts, and events sent. -/
def Sys2Proof.Claims.OnlyDdr (s t : State) : Prop :=
  ∃ rg rw fw bd ms ge rt lk,
    t = { s with regs := rg, ddrRows := rw, faultWins := fw, ddrBad := bd, msgs := ms, globalEvs := ge, routers := rt, links := lk }

/-- R399 to R408: a corrected read counts in DDR_CE and sets CE, an uncorrectable one counts in DDR_UE, marks the burst and sets UE,
each with its address recorded and an event of its row; patrol scrub goes on to the channel's next burst, a pass counted at the last; a
soft repair logs its row and counts, or sets NOSPARE; DDR_HPPR makes a logged repair permanent in SERVICE alone; a pair leaves
self-refresh where its domain is on. -/
def Obligations.DdrCommands : Prop :=
  ∀ (s : State), s.live = true →
    (∀ (b : Fin 0x200000000) (dev : Fin 32),
      let p := s.ddrLocal (32 * b.val)
      let row := s.ddrRowOf p.2
      let noted := fun (t : State) (ue : Bool) =>
        let a0 := t.reg (Reg.DDR_ERRA0 p.1)
        bit a0 15 = true ∧ bit a0 14 = ue ∧ field a0 13 1 = row.sub ∧ field a0 12 1 = row.rank ∧ field a0 9 3 = row.bg ∧
          field a0 7 2 = row.bank ∧ field a0 0 5 = dev.val ∧ t.reg (Reg.DDR_ERRA1 p.1) = Claims.mod16 row.row
      (32 * b.val < s.ddrCap → s.ddrState p.1 = 2 → b.val ∉ s.ddrBad →
        exec (.ddrBurstRead b .good) s = .next s ∧
        (∃ t, exec (.ddrBurstRead b (.corrected dev)) s = .next t ∧ Claims.OnlyDdr s t ∧ t.ddrBad = s.ddrBad ∧
          t.reg (Reg.DDR_CE p.1) = satAdd (s.reg (Reg.DDR_CE p.1)) 1 ∧ bit (t.reg (Reg.DDR_CHSTAT p.1)) 15 = true ∧
          (field (s.reg (Reg.DDR_ERRA0 p.1)) 14 2 ≠ 3 → noted t false) ∧ ∃ i, Msg.fwEvent 0 (64 * p.1 + i) ∈ t.msgs) ∧
        (∃ t, exec (.ddrBurstRead b (.uncorrectable dev)) s = .next t ∧ Claims.OnlyDdr s t ∧ t.ddrBad = s.ddrBad ++ [b.val] ∧
          t.reg (Reg.DDR_UE p.1) = satAdd (s.reg (Reg.DDR_UE p.1)) 1 ∧ bit (t.reg (Reg.DDR_CHSTAT p.1)) 14 = true ∧ noted t true)) ∧
      (∀ r, s.ddrCap ≤ 32 * b.val ∨ s.ddrState p.1 ≠ 2 → exec (.ddrBurstRead b r) s = .next s)) ∧
    (∀ ch : Fin 4, ch.val < s.ddrChans → s.ddrState ch.val = 2 → 0 < s.ddrCap →
      let i := s.scrubAt.getD ch.val 0
      let at_ := fun (j : Nat) => { s with scrubAt := s.scrubAt.set ch.val j }
      s.ddrGlobal ch.val (32 * i) / 32 ∉ s.ddrBad →
      (i + 1 < s.chanWords / 32 → exec (.patrolScrub ch .good) s = .next (at_ (i + 1))) ∧
      (i + 1 = s.chanWords / 32 → exec (.patrolScrub ch .good) s =
        .next ((at_ 0).setReg (Reg.DDR_SCRUBPASS ch.val) (s.reg (Reg.DDR_SCRUBPASS ch.val) + 1)))) ∧
    (∀ (u : State) (ch : Fin 4) (i e : Nat) (r : DdrRow), i < 64 →
      Claims.Arrives s (fun m => match m with | .ppr x => x / 64 == ch.val | _ => false) (.ppr (64 * ch.val + i)) u →
      u.ddrRows.find? (64 * ch.val + i) = some r → e < 8 → bit (u.reg (Reg.DDR_PPRLOG ch.val (2 * e))) 15 = false →
      (∀ f, f < e → bit (u.reg (Reg.DDR_PPRLOG ch.val (2 * f))) 15 = true) →
      (∃ t, exec (.softPpr ch true) s = .next t ∧ Claims.Sends u t ∧
        t.reg (Reg.DDR_PPRLOG ch.val (2 * e)) = Claims.mod16 (0x8000 + 8192 * r.sub + 4096 * r.rank + 512 * r.bg + 128 * r.bank +
          r.row / 65536 % 4) ∧ t.reg (Reg.DDR_PPRLOG ch.val (2 * e + 1)) = Claims.mod16 r.row ∧
        t.reg (Reg.DDR_PPRCNT ch.val) = satAdd (u.reg (Reg.DDR_PPRCNT ch.val)) 1 ∧ bit (t.reg (Reg.DDR_CHSTAT ch.val)) 13 = true ∧
        Claims.Keeps u t [Reg.DDR_PPRLOG ch.val (2 * e), Reg.DDR_PPRLOG ch.val (2 * e + 1), Reg.DDR_PPRCNT ch.val,
          Reg.DDR_CHSTAT ch.val]) ∧
      (∃ t, exec (.softPpr ch false) s = .next t ∧ Claims.Sends u t ∧
        t.reg (Reg.DDR_CHSTAT ch.val) = u.reg (Reg.DDR_CHSTAT ch.val) ||| 0x1000 ∧ Claims.Keeps u t [Reg.DDR_CHSTAT ch.val])) ∧
    (∀ (who : Requester) (v : Word), Reaches s who.val Reg.DDR_HPPR → Calm s → bit v 15 = true →
      let k := Reg.DDR_PPRLOG (field v 3 2) (2 * field v 0 3)
      (s.mode = 7 → bit (s.reg k) 15 = true → exec (.ddrHppr who v) s = .next (s.setReg k (s.reg k ||| 0x4000))) ∧
      (s.mode ≠ 7 ∨ bit (s.reg k) 15 = false → ∃ t, exec (.ddrHppr who v) s = .next t ∧ Claims.Sends s t ∧
        t.reg Reg.DDR_STAT = s.reg Reg.DDR_STAT ||| 0x4000 ∧ Claims.Keeps s t [Reg.DDR_STAT])) ∧
    (∀ pair : Fin 2, let on := bit (s.reg (Reg.PWR_ON 3)) (3 + pair.val)
      (on = false → exec (.selfRefreshExit pair) s = .next s) ∧
      (on = true → ∃ t rg, exec (.selfRefreshExit pair) s = .next t ∧ t = { s with regs := rg } ∧
        ∀ ch, ch < 4 → t.ddrState ch = if ch / 2 = pair.val ∧ s.ddrState ch = 3 then 2 else s.ddrState ch))

/-! ## The outbox and the firing engine -/

namespace Sys2Proof.Claims

/-- Entries of the outbox's list for an axis and a direction (R278). -/
def listOf (s : State) (ax : Nat) (back : Bool) : List ObEntry := s.outbox.lists.getD (2 * ax + if back then 1 else 0) []
/-- A mark's place ahead of the axis, signed (R278). -/
def ahead (s : State) (e : Sheet) : Int := (markPos e.l1 e.l2 e.l3 - s.axPos (markAxis e.l0)).toInt
/-- An entry that passes the checks of R276: a well-formed one for an enabled direct channel on a configured axis. -/
def wellMade (s : State) (e : Sheet) : Prop :=
  field e.l0 8 3 = 0 ∧ s.axSrc (markAxis e.l0) ≠ 0 ∧ e.l4.toNat < 64 ∧ e.l6.toNat < 8 ∧ (e.l6 = 0 → e.l5.toNat < 2) ∧
    bit (s.reg (Reg.CH_CFG e.l4.toNat)) 15 = true
/-- The list of the entry's axis and direction has the entry in serial order, behind those with equal marks; other lists stay. -/
def Listed (s t : State) (e : Sheet) (tag : Word) : Prop :=
  let back := markBack e.l0
  (∃ pre post x, listOf s (markAxis e.l0) back = pre ++ post ∧ listOf t (markAxis e.l0) back = pre ++ x :: post ∧ x.e = e ∧
    x.tag = tag ∧ (∀ y ∈ pre, if back then ahead s e ≤ ahead s y.e else ahead s y.e ≤ ahead s e) ∧
    (∀ y q, post = y :: q → if back then ahead s y.e < ahead s e else ahead s e < ahead s y.e)) ∧
  (∀ ax b, (ax ≠ markAxis e.l0 ∨ b ≠ back) → ax < 16 → listOf t ax b = listOf s ax b)
/-- What the outbox changes as it takes entries in: its own store and counters, and the reports it sends. -/
def OnlyOutbox (s t : State) : Prop := ∃ ob, Sends { s with outbox := ob } t
/-- A format drop (R276): counted, FORMATEV set, a dead letter with cause OUTBOX_FORMAT. -/
def FormatDrop (s t : State) (e : Sheet) : Prop :=
  OnlyOutbox s t ∧ t.outbox.lists = s.outbox.lists ∧ t.reg Reg.OB_FORMAT = satAdd (s.reg Reg.OB_FORMAT) 1 ∧
    bit (t.reg Reg.OB_STAT) 14 = true ∧ ∃ w, Msg.dead 9 7 (entryWords e ++ w) ∈ t.msgs
/-- The entry that a party has staged in OB_PUSH0 to OB_PUSH6, with its lane 7 (R297). -/
def pushed (s : State) (who : Nat) (v : Word) : Sheet :=
  let st := fun (j : Nat) => s.staged who (Reg.OB_PUSH j) 0
  ⟨st 0, st 1, st 2, st 3, st 4, st 5, st 6, v⟩
/-- Is there room on the die, and nothing spilled (R277, R283)? -/
def onDie (s : State) : Prop := s.outbox.count < 4096 ∧ s.outbox.spill = [] ∧ s.outbox.wbuf = []
/-- Is the spill on, and a place free in its write buffer (R283)? -/
def spillRoom (s : State) : Prop := bit (s.reg Reg.OB_CFG) 15 = true ∧ 0 < (s.reg Reg.OB_SPLEN).toNat ∧ s.outbox.wbuf.length < 4
/-- The outbox withholds no credits (R277): there is room on the die or in the spill, and no arrival waits for more than that. -/
def takes (s : State) : Prop := onDie s ∨ (spillRoom s ∧ s.outbox.hold = none)

end Sys2Proof.Claims

/-- R276 to R278, R283, R284, R433: an entry that arrives is listed in serial order; a malformed one is dropped, as is one without
permission; one of a recalled or unknown epoch is discarded and counted. With the store full and the spill off it is not taken; with
the spill on it joins the write buffer, but where 1,024 undecided epochs have spilled entries one of another epoch waits, and HOLDEV
sets. Here `v` is the state once the fabric has carried the entry to the outbox, and `u` that once its credit has returned. -/
def Sys2Proof.Claims.OutboxTakes : Prop :=
  ∀ (s v : State) (who : Nat) (e : Sheet), s.nextIn isEntry = (some (.entry who e), v) → who < 128 →
    let u := v.takeOut (.entry who e)
    (Claims.takes u → field e.l0 8 3 ≠ 0 → ∃ t, exec .outboxArrival s = .next t ∧ Claims.FormatDrop u t e) ∧
    (Claims.takes u → Claims.wellMade u e → u.permitted who 4 e.l4.toNat = false →
      ∃ t, exec .outboxArrival s = .next t ∧ Claims.OnlyOutbox u t ∧ t.outbox = u.outbox ∧
        t.reg Reg.CS_PVCNT = satAdd (u.reg Reg.CS_PVCNT) 1 ∧ ∃ w, Msg.dead 0xA 7 (entryWords e ++ w) ∈ t.msgs) ∧
    (Claims.wellMade u e → u.permitted who 4 e.l4.toNat = true →
      (Claims.onDie u → Claims.committed u e.l7 ∨ Claims.open_ u e.l7 →
        ∃ t ms, exec .outboxArrival s = .next t ∧ Claims.OnlyOutbox u t ∧ t.msgs = u.msgs ++ ms ∧
          (u.outbox.count < 4095 → ms = []) ∧
          (Claims.committed u e.l7 → Claims.Listed u t e 0) ∧ (Claims.open_ u e.l7 → Claims.Listed u t e e.l7)) ∧
      (Claims.takes u → ¬ Claims.committed u e.l7 → ¬ Claims.open_ u e.l7 →
        ∃ t, exec .outboxArrival s = .next t ∧ Claims.OnlyOutbox u t ∧ t.msgs = u.msgs ∧ t.outbox.lists = u.outbox.lists ∧
          t.reg Reg.EPOCH_LATEPOST = satAdd (u.reg Reg.EPOCH_LATEPOST) 1) ∧
      (u.outbox.count = 4096 → bit (u.reg Reg.OB_CFG) 15 = false → exec .outboxArrival s = .next v) ∧
      (u.outbox.count = 4096 → Claims.spillRoom u → u.outbox.hold = none →
        (Claims.committed u e.l7 → u.outbox.wbuf.length < 3 → ∃ t, exec .outboxArrival s = .next t ∧
          t = { u with outbox := t.outbox } ∧ t.outbox.lists = u.outbox.lists ∧
          t.outbox.wbuf = u.outbox.wbuf ++ [{ e := e, tag := 0, late := false }]) ∧
        (Claims.open_ u e.l7 → 1024 ≤ u.outbox.verdicts.length → (∀ b ∈ u.outbox.spill, ∀ x ∈ b, x.tag ≠ e.l7) →
          (∀ x ∈ u.outbox.wbuf, x.tag ≠ e.l7) → ∃ t, exec .outboxArrival s = .next t ∧ Claims.OnlyOutbox v t ∧
            t.outbox = { v.outbox with hold := some e.l7 } ∧ bit (t.reg Reg.OB_STAT) 11 = true ∧
            bit t.obStat 1 = true)))

/-- R4, R277, R297: OB_PUSH7 pushes the staged entry: it is listed, a malformed one is dropped, and with the outbox full it waits for
room (log 11). OB_PURGE removes an axis's entries. -/
def Sys2Proof.Claims.OutboxPorts : Prop :=
  (∀ (s : State) (who : Requester) (v : Word), Reaches s who.val (Reg.OB_PUSH 7) → Calm s → s.outbox.pushes = [] →
    let u := (s.crossed (Reg.OB_PUSH 7)).clearStage who.val (Reg.OB_PUSH 0) 8
    let e := Claims.pushed s who.val v
    (v ≠ 0 → Claims.takes s → ∃ t, exec (.obPush7Write who v) s = .next t ∧ Claims.FormatDrop u t e) ∧
    (v = 0 → Claims.wellMade s e → Claims.onDie s →
      ∃ t, exec (.obPush7Write who v) s = .next t ∧ Claims.OnlyOutbox u t ∧ Claims.Listed u t e 0) ∧
    (s.outbox.count = 4096 → bit (s.reg Reg.OB_CFG) 15 = false →
      exec (.obPush7Write who v) s = .next { u with outbox := { u.outbox with pushes := [e] } })) ∧
  (∀ (s : State) (who : Requester) (ax : AxisId), Reaches s who.val Reg.OB_PURGE → Calm s →
    let u := s.crossed Reg.OB_PURGE
    let n := (Claims.listOf s ax.val false).length + (Claims.listOf s ax.val true).length +
      (s.outbox.wbuf.filter fun x => markAxis x.e.l0 == ax.val).length
    s.outbox.pushes = [] → s.outbox.hold = none → ∃ t ob, exec (.obPurge who ax) s = .next t ∧
      t = { u with outbox := ob, regs := u.regs.set Reg.OB_PURGED (satAdd (u.reg Reg.OB_PURGED) n) } ∧
      (∀ b, Claims.listOf t ax.val b = []) ∧ (∀ a b, a < 16 → a ≠ ax.val → Claims.listOf t a b = Claims.listOf s a b) ∧
      t.outbox.wbuf = s.outbox.wbuf.filter (fun x => markAxis x.e.l0 != ax.val) ∧
      ∀ b ∈ t.outbox.spill, ∀ x ∈ b, x.axis = ax.val → x.purged = true)

/-- R42, R278, R279, R286, R287: at a tick every due entry is released or dropped, so that no list's head is due after it; a released
LEVEL entry becomes its channel's action, a stale one is a dead letter, one not yet due stays. Room that frees goes to the pushes that
wait for it (R277). -/
def Sys2Proof.Claims.OutboxReleases : Prop :=
  ∀ (s : State), s.phase = .awake → s.dispatchIsOut = false → s.sleep = none →
    (∃ t, exec .outboxTick s = .next t ∧ t.now = s.now + 1 ∧ t.ticks = s.ticks + 1 ∧
      (s.outbox.pushes = [] → ∀ ax b x q, ax < 16 → Claims.listOf t ax b = x :: q →
        ¬ due (t.entryPos x.e (t.axPos ax)) (entryMark x.e) (markBack x.e.l0) = true)) ∧
    (∀ (e : Sheet) (late : Bool) (l n : Nat), s.outbox.lists = [(2 * 15, [{ e := e, tag := 0, late := late }])] →
      s.outbox.pushes = [] → e.l4.toNat = n → n < 64 →
      markAxis e.l0 = 15 → markBack e.l0 = false →
      (BitVec.ofNat 48 ((s.now + 1) / 200 * 65536 + (s.now + 1) % 200 * 65536 / 200) - entryMark e).toNat = l →
      ∃ t, exec .outboxTick s = .next t ∧
        (2 ^ 47 ≤ l → t.outbox = s.outbox ∧ t.regs = s.regs) ∧
        (l < 2 ^ 47 → 65536 * markLate e.l0 < l → markLate e.l0 ≠ 0 → t.outbox.count = 0 ∧
          t.reg Reg.OB_STALE = satAdd (s.reg Reg.OB_STALE) 1 ∧ bit (t.reg Reg.OB_STAT) 15 = true ∧
          (∃ w, Msg.dead 0xC 7 (entryWords e ++ w) ∈ t.msgs)) ∧
        (l < 2 ^ 47 → (markLate e.l0 = 0 ∨ l ≤ 65536 * markLate e.l0) → s.chMode n = 0 → bit (s.reg (Reg.CH_CFG n)) 15 = true →
          e.l6 = 0 → (s.chan n).state = .active → t.outbox.count = 0 ∧ (t.chan n).state = .active ∧ (t.chan n).driving = bit e.l5 0 ∧
            t.reg (Reg.CH_ACT0 n) = e.l5 ∧ t.reg (Reg.CH_ACT1 n) = e.l6 ∧
            t.reg (Reg.CH_APPLIED n) = satAdd (s.reg (Reg.CH_APPLIED n)) 1 ∧
            t.reg2 Reg.OB_RELL Reg.OB_RELH = (s.reg2 Reg.OB_RELL Reg.OB_RELH + 1) % 2 ^ 32 ∧
            (late = true → t.reg Reg.OB_LATE = satAdd (s.reg Reg.OB_LATE) 1)))

/-- R282 to R284: the write buffer goes to the ring 1 µs after its first entry; the oldest block returns once 512 places are free, its
entries listed, or dropped as dead letters where the burst is uncorrectable. The block here holds committed entries. -/
def Sys2Proof.Claims.OutboxSpills : Prop :=
  ∀ (s : State), s.live = true → s.hasStamp 0 (field (s.reg Reg.OB_CFG) 0 8) 1 = true → s.outbox.pushes = [] →
    let o := s.outbox
    (s.now < o.wbufAt + 200 → exec .obSpillBufferTimeout s = .next s) ∧
    (o.wbufAt + 200 ≤ s.now → o.wbuf ≠ [] → o.wbuf.length ≤ 4 → o.spill.length < s.obSpLen →
      let a := s.obBlockAddr (o.firstBlock + o.spill.length)
      ∃ t, exec .obSpillBufferTimeout s = .next t ∧ t.outbox.wbuf = [] ∧ t.outbox.lists = o.lists ∧
        t.outbox.spill = o.spill ++ [o.wbuf.map fun x => { tag := x.tag, axis := markAxis x.e.l0, purged := false }] ∧
        (∀ i x, o.wbuf[i]? = some x → ∀ j, j < 7 → t.peek (ddrKey (a + 8 * i + j)) = x.e.lane j) ∧
        (∀ i, o.wbuf.length ≤ i → i < 4 → t.peek (ddrKey (a + 8 * i + 4)) = 0xFFFF) ∧
        (∀ k, (∀ j, j < 32 → k ≠ ddrKey (a + j)) → t.peek k = s.peek k)) ∧
    (∀ (e : Sheet) (ax : Nat) (rest : List (List ObSpilled)), o.spill = [{ tag := 0, axis := ax, purged := false }] :: rest →
      o.count + 512 ≤ 4096 → s.peeks (ddrKey (s.obBlockAddr o.firstBlock)) 32 = obBlockWords [{ e := e, tag := 0, late := false }] →
      e.l4 ≠ 0xFFFF → s.ddrUe (s.obBlockAddr o.firstBlock) 32 = false → o.wbuf.length < 4 →
      (∃ t, exec (.obSpillRead false) s = .next t ∧ t.outbox.spill = rest ∧ Claims.Listed s t { e with l7 := 0 } 0 ∧ t.mem = s.mem) ∧
      (∃ t, exec (.obSpillRead true) s = .next t ∧ t.outbox.spill = rest ∧ t.outbox.lists = o.lists ∧ t.mem = s.mem ∧
        t.reg Reg.OB_SPERR = satAdd (s.reg Reg.OB_SPERR) 1 ∧ ∃ w, Msg.dead 0xD 7 w ∈ t.msgs)) ∧
    (4096 < o.count + 512 → o.spill ≠ [] → ∀ bad, exec (.obSpillRead bad) s = .next s)

/-- R42, R276 to R284, R286, R287, R297: the outbox. -/
def Obligations.Outbox : Prop := Claims.OutboxTakes ∧ Claims.OutboxPorts ∧ Claims.OutboxReleases ∧ Claims.OutboxSpills

namespace Sys2Proof.Claims

/-- What the firing engine's events change. -/
def OnlyFiring (s t : State) : Prop := ∃ ch fe, Sends { s with chans := ch, fe := fe } t
/-- Every channel that is not OFF is in SAFE with cause bit `c` added, and drives nothing (R285, R291). -/
def AllSafe (s t : State) (c : Nat) : Prop :=
  ∀ n, n < 64 → if (s.chan n).state = .off then t.chan n = s.chan n
    else (t.chan n).state = .safe ∧ (t.chan n).causes = (s.chan n).causes ||| c ∧ (t.chan n).driving = false
/-- A fall or difference of the safe inputs is counted (R291). -/
def SafeCounted (s t : State) : Prop :=
  bit (t.reg Reg.FE_STAT) 15 = true ∧ t.reg Reg.FE_SAFECNT = satAdd (s.reg Reg.FE_SAFECNT) 1
/-- Only channel `n` differs. -/
def OnlyChan (s t : State) (n : Nat) : Prop := ∃ ch, t = { s with chans := ch } ∧ ∀ m, m ≠ n → t.chan m = s.chan m
/-- Is the channel ACTIVE in this mode? -/
def runs (s : State) (n mode : Nat) : Prop := s.live = true ∧ (s.chan n).state = .active ∧ field (s.reg (Reg.CH_CFG n)) 12 3 = mode
/-- The unit and the action that govern a BURST or PHASE channel once the point of unit `u` is seen to have passed: `new` where that
point passes now, else what governed before (R287). -/
def governs (c : Chan) (u : Nat) (new : Option (Nat × Nat)) : Option (Nat × Nat) :=
  match c.point with
  | some q => if q = u then c.govern else new
  | none => c.govern
/-- A channel that one more of its causes leaves: back to ACTIVE where an entry has been released to it, else WAITING (R291). -/
def Resumed (s t : State) (n mask : Nat) : Prop :=
  let left := (s.chan n).causes &&& (63 - mask)
  (left ≠ 0 → t.chan n = { s.chan n with causes := left }) ∧
    (left = 0 → (t.chan n).causes = 0 ∧ (t.chan n).state = if (s.chan n).hasEntry then .active else .waiting)

end Sys2Proof.Claims

/-- R285, R289 to R293, R299: the safe inputs force every channel to SAFE and are counted; REARM ends the causes whose conditions have
ended, and is ignored while DISCREP is set; a channel that no entry refreshes goes SAFE; CH_CFG starts, stops or refuses. -/
def Sys2Proof.Claims.FiringSafety : Prop :=
  ∀ (s : State),
    (∀ (b : Bool) (ns : Nat), let low := if b then s.fe.bLow else s.fe.aLow
      (ns < 100 ∨ low = true → exec (.safeInputFall (b, ns)) s = .next s) ∧
      (100 ≤ ns → low = false → s.fe.watching = true → ∃ t, exec (.safeInputFall (b, ns)) s = .next t ∧ Claims.OnlyFiring s t ∧
        (if b then t.fe.bLow else t.fe.aLow) = true ∧ (if b then t.fe.aLow else t.fe.bLow) = (if b then s.fe.aLow else s.fe.bLow) ∧
        Claims.AllSafe s t 32 ∧ Claims.SafeCounted s t ∧ t.hsafe = true) ∧
      (ns < 100 ∨ low = false → exec (.safeInputRise (b, ns)) s = .next s) ∧
      (100 ≤ ns → low = true → s.fe.watching = true → ∃ t, exec (.safeInputRise (b, ns)) s = .next t ∧ Claims.OnlyFiring s t ∧
        (if b then t.fe.bLow else t.fe.aLow) = false ∧ t.chans = s.chans ∧
        ((if b then s.fe.aLow else s.fe.bLow) = true → Claims.SafeCounted s t) ∧
        ((if b then s.fe.aLow else s.fe.bLow) = false → t.regs = s.regs ∧ t.fe.diffAt = none))) ∧
    (∀ t0, s.live = true → s.fe.diffAt = some t0 →
      let ms := max (field (s.reg Reg.FE_DISCT) 0 8) 1
      (s.now - t0 ≤ 200000 * ms → exec .discrepancyTimeout s = .next s) ∧
      (200000 * ms < s.now - t0 → s.fe.watching = true → ∃ t, exec .discrepancyTimeout s = .next t ∧ Claims.OnlyFiring s t ∧
        bit (t.reg Reg.FE_STAT) 14 = true ∧ t.reg Reg.FE_SAFECNT = satAdd (s.reg Reg.FE_SAFECNT) 1 ∧ t.hsafe = true ∧
        t.chans = s.chans)) ∧
    (∀ who : Requester, Reaches s who.val Reg.FE_CTL → Calm s → let u := s.crossed Reg.FE_CTL
      (bit (s.reg Reg.FE_STAT) 14 = true → exec (.feCtlRearm who) s = .next u) ∧
      (bit (s.reg Reg.FE_STAT) 14 = false → s.fe.aLow = false → s.fe.bLow = false → s.dispatchIsOut = false → s.mode ≠ 7 →
        ∃ t ch fe, exec (.feCtlRearm who) s = .next t ∧ t = { u with chans := ch, fe := fe } ∧ t.hsafe = false ∧
          ∀ n, n < 64 → ((s.chan n).state ≠ .safe → t.chan n = s.chan n) ∧
            ((s.chan n).state = .safe → (s.chan n).causes < 64 → Claims.Resumed s t n 56))) ∧
    (s.live = true → s.axRounds (field (s.reg Reg.FE_RNDCFG) 12 4) = true →
      let rnd := (s.axPos (field (s.reg Reg.FE_RNDCFG) 12 4)).toNat / 65536 / s.refreshLen
      (rnd = s.fe.rndMax → exec .refreshRoundBoundary s = .next s) ∧
      (rnd = s.fe.rndMax + 1 → rnd < (2 ^ 32 + s.refreshLen - 1) / s.refreshLen → 3 ≤ (2 ^ 32 + s.refreshLen - 1) / s.refreshLen →
        ∃ t, exec .refreshRoundBoundary s = .next t ∧ Claims.OnlyFiring s t ∧ t.fe.rndMax = rnd ∧
        ∀ n, n < 64 → let c := s.chan n
          let lim := field (s.reg (Reg.CH_REFR n)) 0 8
          (c.state = .off ∨ c.hasEntry = false ∨ lim = 0 → t.chan n = c) ∧
          (c.state ≠ .off → c.hasEntry = true → lim ≠ 0 → (t.chan n).refr = c.refr + 1 ∧
            (lim ≤ c.refr + 1 → (t.chan n).state = .safe ∧ (t.chan n).causes = c.causes ||| 2) ∧
            (c.refr + 1 < lim → (t.chan n).state = c.state)))) ∧
    (∀ (who : Requester) (n : Fin 64) (v : Word), Reaches s who.val (Reg.CH_CFG n.val) → Calm s →
      let u := s.crossed (Reg.CH_CFG n.val)
      let mode := field v 12 3
      (4 < mode ∨ ((mode = 1 ∨ mode = 2) ∧ s.axSrc (field v 4 4) ≠ 2) ∨
          (bit (s.reg (Reg.CH_CFG n.val)) 15 = true ∧ v &&& 0x7EF0 ≠ s.reg (Reg.CH_CFG n.val) &&& 0x7EF0) →
        exec (.chCfgWrite who n v) s = .next (u.setReg (Reg.CH_STAT n.val) (u.reg (Reg.CH_STAT n.val) ||| 0x2000))) ∧
      (mode = 0 → field v 9 2 ≠ 3 → bit (s.reg (Reg.CH_CFG n.val)) 15 = false → s.padEn (0x100 + n.val) = true →
        bit v 15 = true → ∃ t, exec (.chCfgWrite who n v) s = .next t ∧ Claims.OnlyFiring u t ∧
          t.reg (Reg.CH_CFG n.val) = v &&& 0xFEF0 ∧ (∀ m, m ≠ n.val → t.chan m = s.chan m) ∧
          (s.fe.aLow = false → s.fe.bLow = false → s.dispatchIsOut = false → s.mode ≠ 7 → s.padHold.testBit 1 = false →
            (t.chan n.val).state = .waiting) ∧
          (s.fe.aLow = true ∨ s.fe.bLow = true → (t.chan n.val).state = .safe ∧ (t.chan n.val).causes / 32 % 2 = 1)) ∧
      (mode ≤ 4 → field v 9 2 ≠ 3 → bit v 15 = false → (mode ≠ 1 ∧ mode ≠ 2 ∨ s.axSrc (field v 4 4) = 2) →
        bit (s.reg (Reg.CH_CFG n.val)) 15 = false ∨ v &&& 0x7EF0 = s.reg (Reg.CH_CFG n.val) &&& 0x7EF0 →
        ∃ t, exec (.chCfgWrite who n v) s = .next t ∧ t = { u with chans := t.chans, regs := t.regs } ∧
          t.reg (Reg.CH_CFG n.val) = v &&& 0xFEF0 ∧ (t.chan n.val).state = .off ∧ (∀ m, m ≠ n.val → t.chan m = s.chan m)))

/-- R287, R288: the modes of an ACTIVE channel: a PWM period applies the duty for floor(u × T × 200 / 65,536) ticks; its end, a PULSE's
and a PHASE gate's stop the output; a BURST unit is decided by sigma-delta; a PHASE channel turns on once a half-cycle. -/
def Sys2Proof.Claims.FiringModes : Prop :=
  ∀ (s : State) (n : Fin 64),
    let c := s.chan n.val
    let p0 := (s.reg (Reg.CH_P0 n.val)).toNat
    let p1 := (s.reg (Reg.CH_P1 n.val)).toNat
    let act := (s.reg (Reg.CH_ACT0 n.val)).toNat
    let ax := field (s.reg (Reg.CH_CFG n.val)) 4 4
    let pos := (s.axPos ax).toNat
    (Claims.runs s n.val 3 → 2 ≤ p0 → (c.pwmNext = none ∧ s.now / 200 % 2 ^ 32 % p0 = p1 ∨ ∃ us, c.pwmNext = some us ∧ us ≤ s.refUs) →
      ∃ t, exec (.pwmPeriodStart n) s = .next t ∧ Claims.OnlyChan s t n.val ∧
        (t.chan n.val).pwmNext = some (c.pwmNext.getD s.refUs + p0) ∧
        (act = 0xFFFF → (t.chan n.val).driving = true ∧ (t.chan n.val).endAt = none) ∧
        (act ≠ 0xFFFF → (t.chan n.val).endAt = some (s.now + act * p0 * 200 / 65536) ∧
          ((t.chan n.val).driving = true ↔ 65536 ≤ act * p0 * 200))) ∧
    (∀ us, Claims.runs s n.val 3 → c.pwmNext = some us → s.refUs < us → exec (.pwmPeriodStart n) s = .next s) ∧
    (∀ t0, c.endAt = some t0 → t0 ≤ s.now →
      let ended := s.setChan n.val { c with driving := false, endAt := none }
      (Claims.runs s n.val 3 → exec (.pwmActiveEnd n) s = .next ended) ∧
      (Claims.runs s n.val 4 → exec (.pulseEnd n) s = .next ended) ∧
      (Claims.runs s n.val 2 → exec (.phaseGateEnd n) s = .next ended)) ∧
    (∀ t0, c.endAt = some t0 → s.now < t0 → Claims.runs s n.val 4 → exec (.pulseEnd n) s = .next s) ∧
    (Claims.runs s n.val 1 → s.axState ax = .track →
      let len := if p0 % 2 = 1 then 65536 else 32768
      let now := pos / len
      let u := (pos + p1) % 2 ^ 48 / len
      let g := Claims.governs c u (some (u, act))
      let on := if c.begun.map Prod.fst = some now then c.driving else c.unit == some now && c.conduct
      (∀ x d, g = some (x, d) → c.unit ≠ some x → ∃ t, exec (.burstDecision n) s = .next t ∧ Claims.OnlyChan s t n.val ∧
        (t.chan n.val).unit = some x ∧ ((t.chan n.val).conduct = true ↔ 65536 ≤ c.acc + d) ∧
        (t.chan n.val).acc = (if 65536 ≤ c.acc + d then c.acc + d - 65536 else c.acc + d) ∧
        (x ≠ now → (t.chan n.val).driving = on) ∧
        (x = now → c.begun.map Prod.fst ≠ some now ∨ c.begun = some (now, true) → (t.chan n.val).driving = (t.chan n.val).conduct)) ∧
      (g = none ∨ (∃ x d, g = some (x, d) ∧ c.unit = some x) → ∃ t, exec (.burstDecision n) s = .next t ∧ Claims.OnlyChan s t n.val ∧
        (t.chan n.val).acc = c.acc ∧ (t.chan n.val).unit = c.unit ∧ (t.chan n.val).driving = on)) ∧
    (Claims.runs s n.val 2 → s.axState ax = .track →
      let h := pos / 32768
      let at_ := pos % 32768
      c.begun = some (h, true) → c.unit ≠ some h →
      (∀ d, Claims.governs c ((pos + (2 ^ 48 - 128)) % 2 ^ 48 / 32768) (if 128 ≤ at_ then some (h, act) else none) = some (h, d) →
        (d + p1 < 32768 → max d 128 ≤ at_ → ∃ t, exec (.phaseTurnOn n) s = .next t ∧ Claims.OnlyChan s t n.val ∧
          (t.chan n.val).driving = true ∧ (t.chan n.val).unit = some h ∧
          (t.chan n.val).endAt = if p0 = 0 then none else some (s.now + 200 * p0)) ∧
        (at_ < max d 128 ∨ 32768 ≤ d + p1 → ∃ t, exec (.phaseTurnOn n) s = .next t ∧ Claims.OnlyChan s t n.val ∧
          (t.chan n.val).driving = c.driving ∧ (t.chan n.val).unit = c.unit))) ∧
    (Claims.runs s n.val 2 → c.begun = some (pos / 32768, false) → c.point ≠ some (pos / 32768) → 128 ≤ pos % 32768 →
      ∃ t, exec (.phaseTurnOn n) s = .next t ∧ Claims.OnlyChan s t n.val ∧ (t.chan n.val).point = some (pos / 32768) ∧
        (c.govern.map Prod.fst ≠ some (pos / 32768) → (t.chan n.val).driving = c.driving ∧ (t.chan n.val).unit = c.unit)) ∧
    (Claims.runs s n.val 2 → c.endAt = none → c.driving = true → 32768 ≤ pos % 32768 + p1 →
      exec (.phaseGateEnd n) s = .next (s.setChan n.val { c with driving := false }))

/-- R276 to R297: firing channels, what makes them safe, and the modes they fire in. -/
def Obligations.Firing : Prop := Claims.FiringSafety ∧ Claims.FiringModes

/-! ## Camera intake -/

namespace Sys2Proof.Claims

/-- What camera events change: the cameras, the signal at the connections, control channels, gaps, and what is counted and sent. -/
def OnlyCams (s t : State) : Prop := ∃ cm sg cc gp, Sends { s with cams := cm, cxSignal := sg, ccChans := cc, rgGap := gp } t
/-- Every other camera keeps its state. -/
def OtherCams (s t : State) (i k : Nat) : Prop := ∀ i' k', k' < 16 → (i' ≠ i ∨ k' ≠ k) → t.cam i' k' = s.cam i' k'
/-- CAM_CFG.MASTER and the number of connections. -/
def master (s : State) (i k : Nat) : Nat := field (s.reg (Reg.CAM_CFG i k)) 4 5
def conns (s : State) (i k : Nat) : Nat := field (s.reg (Reg.CAM_CFG i k)) 9 3 + 1
/-- Samples of a sensor row (R232), sensor rows of an output line, samples of one, and output lines of an image (R232, R235). -/
def comps (s : State) (i k : Nat) : Nat := if 8 ≤ field (s.reg (Reg.CAM_FMT i k)) 12 4 then 3 else 1
def rowLen (s : State) (i k : Nat) : Nat := (s.reg (Reg.CAM_XSIZE i k)).toNat * comps s i k
def binV (s : State) (i k : Nat) : Nat := 2 ^ field (s.reg (Reg.CAM_FRANK i k)) 8 2
def lineRows (s : State) (i k : Nat) : Nat :=
  if field (s.reg (Reg.CAM_CFG i k)) 12 3 = 2 then max (s.reg (Reg.CAM_YSIZE i k)).toNat 1 else binV s i k
def lineLen (s : State) (i k : Nat) : Nat := max (rowLen s i k * lineRows s i k) 1
def imageLines (s : State) (i k : Nat) : Nat :=
  if field (s.reg (Reg.CAM_CFG i k)) 12 3 = 2 then 1 else (s.reg (Reg.CAM_YSIZE i k)).toNat / binV s i k
/-- Is an output line in assembly: part of it taken, or later packets held back (R226, R238)? -/
def lineBegun (s : State) (i k : Nat) : Bool :=
  match (s.cam i k).image with
  | .inside p => (decide (p % lineLen s i k ≠ 0) && decide (p / lineLen s i k < imageLines s i k)) || !(s.cam i k).ahead.isEmpty
  | _ => false
/-- The camera's frame is cut short: FEND with ABORT where one was in progress, an incomplete line counted as dropped (R226, R238). -/
def abortJobs (s : State) (i k : Nat) : List (Bool × CamJob) :=
  let c := s.cam i k
  let stamp := c.first.getD (s.camStamp i)
  if c.active then
    [(c.gap || lineBegun s i k,
      .frameEnd { no := c.frame, delivered := c.delivered, dropped := c.dropped + if lineBegun s i k then 1 else 0, first := stamp,
                  lastLine := if c.first.isSome then c.stamp else stamp, last := if c.first.isSome then c.last else stamp,
                  abort := true, fmt := c.fmt })]
  else []
/-- The CAMSTATE sheet of a camera that has left its frame for a state (R226, R241). -/
def stateJob (s : State) (i k code : Nat) : Bool × CamJob :=
  let c := s.cam i k
  (!c.active && (c.gap || lineBegun s i k), .camState code (if c.active then (c.frame + 1) % 65536 else c.frame) (s.camStamp i))
/-- Where a discovery begins: DISCOVER with signal at the master, ABSENT without, FAULT while a connection is LASTING (R225, R227). -/
def begins (s : State) (i k : Nat) : CamState :=
  if (List.range (conns s i k)).any fun j => s.cxLasting i (master s i k + j) then .fault
  else if s.signal i (master s i k) then .discover else .absent
/-- Discovery has begun again at step 1 (R225). -/
def Discovers (s t : State) (i k : Nat) : Prop :=
  (t.cam i k).state = begins s i k ∧ (t.cam i k).step = 1 ∧ (t.cam i k).timer = none ∧
    ∀ j, j < conns s i k → field (t.reg (Reg.CX_STAT i (master s i k + j))) 0 3 =
      if s.cxLasting i (master s i k + j) then 4 else if begins s i k = .discover then 2 else 1
/-- A discovery step failed: again from step 1 in 100 ms (R225). -/
def Retries (s t : State) (i k : Nat) : Prop :=
  (t.cam i k).state = .discover ∧ (t.cam i k).step = 1 ∧ (t.cam i k).timer = some (s.now + 20000000)
/-- Stream bytes of one output line (R243). -/
def lineBytes (s : State) (i k type : Nat) : Nat :=
  let rows := if type = 2 then max (s.reg (Reg.CAM_YSIZE i k)).toNat 1 else 2 ^ field (s.reg (Reg.CAM_FRANK i k)) 8 2
  let pf := field (s.reg (Reg.CAM_FMT i k)) 12 4
  let bits := if pf % 8 = 1 then 10 else if pf % 8 = 2 then 12 else if pf = 3 then 14 else if pf = 4 then 16 else 8
  (rows * (s.reg (Reg.CAM_XSIZE i k)).toNat * (if 8 ≤ pf then 3 else 1) * bits + 7) / 8
/-- Is the band selection accepted (R235)? -/
def bandsFit (s : State) (i k type : Nat) : Prop :=
  let first := (s.reg (Reg.CAM_BAND0 i k)).toNat
  let step := field (s.reg (Reg.CAM_BAND1 i k)) 8 8
  let count := field (s.reg (Reg.CAM_BAND1 i k)) 0 8 + 1
  if type = 2 then 1 ≤ step ∧
      first + (count - 1) * step < (s.reg (Reg.CAM_YSIZE i k)).toNat / 2 ^ field (s.reg (Reg.CAM_FRANK i k)) 8 2
  else first = 0 ∧ step = 1 ∧ count = if 8 ≤ field (s.reg (Reg.CAM_FMT i k)) 12 4 then 3 else 1

end Sys2Proof.Claims

/-- R225 to R228: a loss puts a connection in DISCOVER or UP to DOWN and its camera to LOST, aborts the frame, and sends FEND and
CAMSTATE; signal at the master of an ABSENT camera starts discovery, and at any connection of a READY one resets its link; each step
of discovery goes on, retries in 100 ms, or ends MISWIRED or READY. -/
def Sys2Proof.Claims.CameraLinks : Prop :=
  ∀ (s : State) (i : Fin 2) (k : Fin 16), s.live = true → s.camEn i.val k.val = true →
    let c := s.cam i.val k.val
    let m := Claims.master s i.val k.val
    let n := Claims.conns s i.val k.val
    let rdly := field (s.reg (Reg.CAM_FMT i.val k.val)) 8 4
    let stat := fun (t : State) (j : Nat) => t.reg (Reg.CX_STAT i.val j)
    let loses := fun (u t : State) => Claims.OnlyCams s t ∧ Claims.OtherCams s t i.val k.val ∧
      bit (t.reg (Reg.CAM_STAT i.val k.val)) 14 = true ∧
      (0 < rdly → (t.cam i.val k.val).state = .lost ∧ (t.cam i.val k.val).timer = some (s.now + rdly * 20000000) ∧
        (t.cam i.val k.val).jobs = c.jobs ++ Claims.abortJobs s i.val k.val ++ [Claims.stateJob s i.val k.val 6]) ∧
      (rdly = 0 → Claims.Discovers u t i.val k.val)
    m + n ≤ 20 →
    (∀ cx : Fin 20, s.camOf i.val cx.val = some k.val →
      let dark : State := { s with cxSignal := s.cxSignal.set (20 * i.val + cx.val) false }
      let lit : State := { s with cxSignal := s.cxSignal.set (20 * i.val + cx.val) true }
      let linked := field (stat s cx.val) 0 3 = 2 ∨ field (stat s cx.val) 0 3 = 3
      (¬ linked → exec (.connectionLoss i cx) s = .next dark) ∧
      (linked → c.state = .ready →
        ∃ t, exec (.connectionLoss i cx) s = .next t ∧ bit (stat t cx.val) 15 = true ∧
          t.reg (Reg.CX_LOSS i.val cx.val) = satAdd (s.reg (Reg.CX_LOSS i.val cx.val)) 1 ∧
          Msg.fwEvent 4 (20 * i.val + cx.val) ∈ t.msgs ∧ (0 < rdly → field (stat t cx.val) 0 3 = 1) ∧ loses dark t) ∧
      (c.state = .absent → cx.val = m → s.cxOn i.val m = true →
        ∃ t, exec (.connectionRegainsSignal i cx) s = .next t ∧ Claims.OnlyCams s t ∧ Claims.OtherCams s t i.val k.val ∧
          Claims.Discovers lit t i.val k.val) ∧
      (c.state = .ready → ∃ t, exec (.connectionRegainsSignal i cx) s = .next t ∧ loses lit t)) ∧
    (∀ (locked : BitVec 8) (ids : List (Fin 8)) (speed : Fin 7) (ok : Bool),
      let lock := fun (j : Nat) => locked.getLsbD j = true ∧ s.cxOn i.val (m + j) = true
      let all := ∀ j, j < n → lock j
      let go := exec (.discoveryStep i k locked ids speed ok) s
      let locks := fun (t : State) => ∀ j, j < n → (bit (t.reg (Reg.CAM_LINK i.val k.val)) j = true ↔ lock j)
      let names := fun (t : State) => ∀ j, j < n → field (stat t (m + j)) 4 4 = ((ids.map Fin.val).getD j 0)
      let moves := fun (step : Nat) (t : State) => go = .next t ∧ t = { s with cams := t.cams, regs := t.regs } ∧
        (t.cam i.val k.val).state = .discover ∧ (t.cam i.val k.val).step = step ∧ (t.cam i.val k.val).timer = none
      let retries := fun (t : State) => go = .next t ∧ t = { s with cams := t.cams, regs := t.regs } ∧ Claims.Retries s t i.val k.val
      let ends := fun (st : CamState) => ∃ t, go = .next t ∧ Claims.OnlyCams s t ∧ (t.cam i.val k.val).state = st ∧
        (t.cam i.val k.val).jobs = c.jobs ++ [(c.gap, .camState st.code c.frame (s.camStamp i.val))] ∧
        (bit (t.reg (Reg.INT_CAMS i.val)) k.val = true ↔ st = .ready) ∧
        (st = .ready → ∀ j, j < n → s.cxLasting i.val (m + j) = false → field (stat t (m + j)) 0 3 = 3)
      let named := ∀ j, j < n → field (stat s (m + j)) 4 4 = j
      let sp := min speed.val (field (s.reg (Reg.CAM_CFG i.val k.val)) 0 4)
      (c.state ≠ .discover ∨ c.timer ≠ none → go = .next s) ∧
      (c.state = .discover → c.timer = none →
        (c.step = 1 → ∃ t, locks t ∧ names t ∧ (all → ok = true → moves 2 t) ∧ (¬ all ∨ ok = false → retries t)) ∧
        (c.step = 2 → (named → ∃ t, moves 3 t) ∧ (¬ named → ends .miswired)) ∧
        (c.step = 3 → (ok = true → ∃ t, moves 4 t ∧ field (t.reg (Reg.CAM_LINK i.val k.val)) 8 3 = sp % 8 ∧
            ∀ j, j < n → field (stat t (m + j)) 8 3 = sp % 8) ∧ (ok = false → ∃ t, retries t)) ∧
        (c.step = 4 → ∃ t, locks t ∧ (all → ok = true → moves 5 t) ∧ (¬ all ∨ ok = false → retries t)) ∧
        (c.step = 5 → ends .ready))) ∧
    (∀ t0, c.timer = some t0 →
      let again := fun (o : Host.Outcome State Fault Refusal) =>
        ∃ t, o = .next t ∧ Claims.OnlyCams s t ∧ Claims.Discovers s t i.val k.val ∧ Claims.OtherCams s t i.val k.val
      (c.state = .discover → (t0 ≤ s.now → again (exec (.discoveryRetry i k) s)) ∧
        (s.now < t0 → exec (.discoveryRetry i k) s = .next s)) ∧
      (c.state = .lost → (t0 ≤ s.now → again (exec (.rediscoveryDelay i k) s)) ∧
        (s.now < t0 → exec (.rediscoveryDelay i k) s = .next s)))

/-- R224, R227, R229 to R231, R233, R237, R242, R246: RETRY; CAM_CFG, accepted or refused; the control channel's command, reply and
timeout; an event packet's sheet; INT_CSDATA; RG_W. -/
def Sys2Proof.Claims.CameraCommands : Prop :=
  (∀ (s : State) (who : Requester) (i : Fin 2) (k : Fin 16), Calm s →
    let c := s.cam i.val k.val
    (Reaches s who.val (Reg.CAM_CTL i.val k.val) → let u := s.crossed (Reg.CAM_CTL i.val k.val)
      (c.state ≠ .miswired → c.state ≠ .fault → exec (.camCtlRetry who i k) s = .next u) ∧
      (c.state = .miswired → ∃ t, exec (.camCtlRetry who i k) s = .next t ∧
        Claims.OnlyCams u t ∧ Claims.Discovers u t i.val k.val ∧ Claims.OtherCams s t i.val k.val) ∧
      (c.state = .fault → Claims.master s i.val k.val + Claims.conns s i.val k.val ≤ 20 →
        ∃ t fw, exec (.camCtlRetry who i k) s = .next t ∧ Claims.OnlyCams { u with faultWins := fw } t ∧
        (∀ j, j < Claims.conns s i.val k.val → t.cxLasting i.val (Claims.master s i.val k.val + j) = false) ∧
        Claims.Discovers { u with faultWins := fw } t i.val k.val ∧ Claims.OtherCams s t i.val k.val)) ∧
    (∀ v, Reaches s who.val (Reg.CAM_CFG i.val k.val) → let u := s.crossed (Reg.CAM_CFG i.val k.val)
      let old := s.reg (Reg.CAM_CFG i.val k.val)
      let share := (s.reg (Reg.CAM_LBUF i.val k.val)).toNat
      let size := fun (r : Nat) => (s.reg r).toNat
      let others := ∀ j, j < 16 → j ≠ k.val → s.camEn i.val j = true →
        Claims.master s i.val j + Claims.conns s i.val j ≤ field v 4 5 ∨ field v 4 5 + field v 9 3 + 1 ≤ Claims.master s i.val j
      let valid := field v 12 3 ≤ 2 ∧ field v 0 4 ≤ 6 ∧ field v 4 5 + field v 9 3 + 1 ≤ 20 ∧ others
      let sized := 1 ≤ size (Reg.CAM_XSIZE i.val k.val) ∧ 1 ≤ size (Reg.CAM_YSIZE i.val k.val) ∧
        (field v 12 3 = 2 → size (Reg.CAM_YSIZE i.val k.val) ≤ 1024) ∧ share ≤ 512 ∧
        2 * Claims.lineBytes s i.val k.val (field v 12 3) ≤ share * 4096 ∧ Claims.bandsFit s i.val k.val (field v 12 3)
      (¬ valid ∨ (bit old 15 = true ∧ v &&& 0x7FFF ≠ old &&& 0x7FFF) ∨ (bit v 15 = true ∧ ¬ sized) →
        exec (.camCfgWrite who i k v) s =
          .next (u.setReg (Reg.CAM_STAT i.val k.val) (u.reg (Reg.CAM_STAT i.val k.val) ||| 0x8000))) ∧
      (valid → bit old 15 = true → v = old &&& 0x7FFF → c.state ≠ .off →
        ∃ t, exec (.camCfgWrite who i k v) s = .next t ∧ Claims.OnlyCams u t ∧
        t.reg (Reg.CAM_CFG i.val k.val) = v ∧ (t.cam i.val k.val).state = .off ∧ (t.cam i.val k.val).timer = none ∧
        (t.cam i.val k.val).jobs = c.jobs ++ Claims.abortJobs u i.val k.val ++ [Claims.stateJob u i.val k.val 0] ∧
        Claims.OtherCams s t i.val k.val) ∧
      (valid → bit old 15 = false → bit v 15 = true → (∀ j, j < 16 → j ≠ k.val → s.camEn i.val j = false) → sized →
        bit (s.reg (Reg.CAM_FSCFG i.val k.val)) 15 = false →
        let w := u.setReg (Reg.CAM_CFG i.val k.val) v
        ∃ t, exec (.camCfgWrite who i k v) s = .next t ∧ Claims.OnlyCams u t ∧
        t.reg (Reg.CAM_CFG i.val k.val) = v ∧ Claims.Discovers w t i.val k.val ∧
        (t.cam i.val k.val).jobs = c.jobs ++
          [(c.gap, .camState (Claims.begins w i.val k.val).code c.frame (w.camStamp i.val))] ∧
        (t.cam i.val k.val).out = c.out ∧ Claims.OtherCams s t i.val k.val))) ∧
  (∀ (s : State) (i : Fin 2), s.live = true →
    let st := s.reg (Reg.CC_STAT i.val)
    let ch := s.ccChans.getD i.val CcChan.reset
    let ended := fun (t : State) (r : Nat) =>
      field (t.reg (Reg.CC_STAT i.val)) 0 4 = r ∧ bit (t.reg (Reg.CC_STAT i.val)) 15 = false ∧
      bit (t.reg (Reg.CC_STAT i.val)) 14 = true ∧ Claims.OnlyCams s t ∧ t.cams = s.cams
    (∀ (who : Requester) (v : Word), Reaches s who.val (Reg.CC_CMD i.val) → Calm s →
      let u := s.crossed (Reg.CC_CMD i.val)
      (bit st 15 = true → exec (.ccCmdGo who i v) s = .next (u.setReg (Reg.CC_STAT i.val) (u.reg (Reg.CC_STAT i.val) ||| 0x2000))) ∧
      (bit st 15 = false → (s.cam i.val (field v 0 4)).state ≠ .ready →
        ∃ t, exec (.ccCmdGo who i v) s = .next t ∧ ended t 3 ∧ t.ccChans = s.ccChans) ∧
      (bit st 15 = false → (s.cam i.val (field v 0 4)).state = .ready →
        ∃ t, exec (.ccCmdGo who i v) s = .next t ∧ Claims.OnlyCams u t ∧ t.reg (Reg.CC_CMD i.val) = v &&& 0x470F ∧
          bit (t.reg (Reg.CC_STAT i.val)) 15 = true ∧
          t.ccChans.getD i.val CcChan.reset = { tag := (ch.tag + 1) % 256, wr := bit v 14, start := s.now } ∧ t.cams = s.cams)) ∧
    (∀ (tag : Fin 256) (r : CcReplyKind),
      (bit st 15 = false ∨ ch.tag ≠ tag.val → exec (.ccReply i tag r) s =
        .next (s.setReg (Reg.CC_LATE i.val) (satAdd (s.reg (Reg.CC_LATE i.val)) 1))) ∧
      (bit st 15 = true → ch.tag = tag.val →
        (r = .wait → exec (.ccReply i tag r) s = .next { s with ccChans := s.ccChans.set i.val { ch with start := s.now } }) ∧
        (r = .badCrc → ∃ t, exec (.ccReply i tag r) s = .next t ∧ ended t 4) ∧
        (∀ code data, r = .ack code data →
          ∃ t, exec (.ccReply i tag r) s = .next t ∧ ended t (if code.val = 0 then 0 else 2) ∧
          t.reg (Reg.CC_ACK i.val) = Claims.mod16 code.val ∧
          (ch.wr = false → code.val = 0 → ∀ j x, j ≤ field (s.reg (Reg.CC_CMD i.val)) 8 3 → data[j]? = some x →
            t.reg (Reg.CC_DATA i.val (2 * j)) = Claims.mod16 x.toNat ∧
            t.reg (Reg.CC_DATA i.val (2 * j + 1)) = Claims.mod16 (x.toNat / 65536))))) ∧
    (let late := ch.start + 200000 * max (s.reg (Reg.CC_TOUT i.val)).toNat 1 ≤ s.now;
      (bit st 15 = true → late → ∃ t, exec (.ccTimeout i) s = .next t ∧ ended t 1) ∧
      (bit st 15 = false ∨ ¬ late → exec (.ccTimeout i) s = .next s)) ∧
    (∀ (k : Fin 16) (ok : Bool) (id : Word) (data : List (BitVec 8)),
      let mb := s.reg (Reg.INT_EVMB i.val)
      let b := fun (j : Nat) => (data.getD j 0).toNat
      let rt := field (s.reg (Reg.CAM_ROUTE i.val k.val)) 0 8
      let us : Int := (s.camStamp i.val).toNat / 65536
      ((s.cam i.val k.val).state ≠ .ready ∨ bit mb 15 = false → exec (.eventPacket i k ok id data) s = .next s) ∧
      ((s.cam i.val k.val).state = .ready → bit mb 15 = true → ok = false →
        ∃ t w, exec (.eventPacket i k ok id data) s = .next t ∧ Claims.OnlyCams s t ∧ Msg.dead 4 (i.val + 1) w ∈ t.msgs ∧
          t.reg (Reg.INT_EVDROP i.val) = satAdd (s.reg (Reg.INT_EVDROP i.val)) 1 ∧ t.cams = s.cams) ∧
      ((s.cam i.val k.val).state = .ready → bit mb 15 = true → ok = true → (s.cam i.val k.val).out = [] →
        bit (s.reg (routeKey rt 3)) 15 = false → (field mb 10 3 = 0 ∨ isSort (field mb 10 3) = true) →
        s.undeliverable (i.val + 1) (field mb 10 3) = none →
        ∃ t, exec (.eventPacket i k ok id data) s = .next t ∧
          t.reg (Reg.INT_EVCNT i.val) = satAdd (s.reg (Reg.INT_EVCNT i.val)) 1 ∧
          (8 < data.length → t.reg (Reg.INT_EVTRUNC i.val) = satAdd (s.reg (Reg.INT_EVTRUNC i.val)) 1) ∧
          t.msgs = s.msgs ++ [.push (i.val + 1) (128 * field mb 10 3 + field mb 0 7)
            { data := ⟨Claims.mod16 (0xE700 + k.val), id, Claims.mod16 us, Claims.mod16 (us / 65536),
                Claims.mod16 (b 0 + 256 * b 1), Claims.mod16 (b 2 + 256 * b 3), Claims.mod16 (b 4 + 256 * b 5),
                Claims.mod16 (b 6 + 256 * b 7)⟩, tag := 0, depth := 0, flips := 0 }]))) ∧
  (∀ (s : State) (who : Requester) (i : Fin 2), Calm s → Reaches s who.val (Reg.INT_CSDATA i.val) →
    let a := ((s.reg (Reg.INT_CSADDRL i.val)).toNat + 65536 * (s.reg (Reg.INT_CSADDRH i.val)).toNat) % 2 ^ 21
    let b : Nat := (a + 1) % 2 ^ 21
    let moved := fun (u : State) =>
      (u.setReg (Reg.INT_CSADDRL i.val) (Claims.mod16 b)).setReg (Reg.INT_CSADDRH i.val) (Claims.mod16 (b / 65536))
    let u := s.crossed (Reg.INT_CSDATA i.val)
    exec (.intCsdataAccess who i none) s = .next (moved (u.passRoute (i.val + 1) 0)) ∧
      ∀ v, exec (.intCsdataAccess who i (some v)) s = .next (moved (u.poke (corrKey (i.val + 1) a) v))) ∧
  (∀ (s : State) (who : Requester) (i : Fin 2) (g : Fin 64) (w : Word), Calm s → Reaches s who.val (Reg.RG_W i.val g.val) →
    let u := (s.crossed (Reg.RG_W i.val g.val)).clearStage who.val (Reg.RG_X0 i.val g.val) 2
    let cfg := s.reg (Reg.RG_CFG i.val g.val)
    let k := field cfg 8 4
    let nb := field (s.reg (Reg.CAM_BAND1 i.val k)) 0 8 + 1
    let n := if field cfg 13 2 = 0 then nb * ((w.toNat + 7) / 8) else if field cfg 13 2 = 1 then w.toNat * ((nb + 7) / 8)
      else (w.toNat + 1) / 2
    (n ≤ 65535 → exec (.rgWWrite who i g w) s = .next ((u.setReg (Reg.RG_X0 i.val g.val)
      (s.staged who.val (Reg.RG_X0 i.val g.val) (s.reg (Reg.RG_X0 i.val g.val)))).setReg (Reg.RG_W i.val g.val) w)) ∧
    (65535 < n → exec (.rgWWrite who i g w) s =
      .next (u.setReg (Reg.CAM_STAT i.val k) (u.reg (Reg.CAM_STAT i.val k) ||| 0x8000))))

/-- R224 to R231, R233, R237, R242, R246: cameras, their connections and their commands. -/
def Sys2Proof.Claims.Cameras : Prop := Claims.CameraLinks ∧ Claims.CameraCommands

namespace Sys2Proof.Claims

/-- Bits of a sample (R222). -/
def sampleBits (s : State) (i k : Nat) : Nat :=
  let pf := field (s.reg (Reg.CAM_FMT i k)) 12 4
  if pf % 8 = 1 then 10 else if pf % 8 = 2 then 12 else if pf = 3 then 14 else if pf = 4 then 16 else 8
/-- Is it an HSI camera? -/
def hsi (s : State) (i k : Nat) : Prop := field (s.reg (Reg.CAM_CFG i k)) 12 3 = 2
/-- BH (R235, R246). -/
def binH (s : State) (i k : Nat) : Nat := 2 ^ field (s.reg (Reg.CAM_FRANK i k)) 10 2
/-- Word `n` of the correction store behind a base in 64-word units (R233). -/
def table (s : State) (i base n : Nat) : Nat := (s.peek (corrKey (i + 1) (64 * base + n))).toNat
/-- Entry of the dark and gain tables for a row, a column and a component (R233). -/
def entryAt (s : State) (i k r c comp : Nat) : Nat :=
  if bit (s.reg (Reg.CAM_FRANK i k)) 12 then (r * (s.reg (Reg.CAM_XSIZE i k)).toNat + c) * comps s i k + comp
  else c * comps s i k + comp
/-- Defect `e` of the list, as row and column (R233). -/
def defectAt (s : State) (i k e : Nat) : Nat × Nat :=
  let b := (s.reg (Reg.CAM_DEFBASE i k)).toNat
  (table s i b (2 * e + 1), table s i b (2 * e))
/-- Is the sample of a row and column listed (R234)? -/
def listedDefect (s : State) (i k r c : Nat) : Prop := ∃ e, e < (s.reg (Reg.CAM_DEFCNT i k)).toNat ∧ defectAt s i k e = (r, c)
/-- The defect list stands in rising order of row, then column (R234). -/
def defectsSorted (s : State) (i k : Nat) : Prop :=
  ∀ e, e + 1 < (s.reg (Reg.CAM_DEFCNT i k)).toNat → let a := defectAt s i k e; let b := defectAt s i k (e + 1)
    a.1 < b.1 ∨ a.1 = b.1 ∧ a.2 < b.2
/-- Sample of row `r` at a column, as unpacked: a number of the pixel format's bits (R232). -/
def rawAt (s : State) (i k : Nat) (row : List Word) (c comp : Nat) : Nat :=
  (row.getD (c * comps s i k + comp) 0).toNat % 2 ^ sampleBits s i k
/-- `d` is how far the nearest unlisted sample lies on one side, up to 4 columns; none where there is none (R234). -/
def NearestGood (good : Nat → Prop) (d : Option Nat) : Prop :=
  match d with
  | some n => 1 ≤ n ∧ n ≤ 4 ∧ good n ∧ ∀ m, 1 ≤ m → m < n → ¬ good m
  | none => ∀ m, 1 ≤ m → m ≤ 4 → ¬ good m
/-- `x` is the sample after defect substitution (R234). -/
def Substituted (s : State) (i k : Nat) (row : List Word) (r c comp x : Nat) : Prop :=
  let good := fun (col : Nat) => col < (s.reg (Reg.CAM_XSIZE i k)).toNat ∧ ¬ listedDefect s i k r col
  let bad := bit (s.reg (Reg.CAM_FRANK i k)) 15 = true ∧ listedDefect s i k r c
  (¬ bad → x = rawAt s i k row c comp) ∧
  (bad → ∃ a b, NearestGood (fun n => n ≤ c ∧ good (c - n)) a ∧ NearestGood (fun n => good (c + n)) b ∧
    x = match a, b with
      | some n, some m => (rawAt s i k row (c - n) comp + rawAt s i k row (c + m) comp + 1) / 2
      | some n, none => rawAt s i k row (c - n) comp
      | none, some m => rawAt s i k row (c + m) comp
      | none, none => 0)
/-- Dark and gain on a sample (R235). -/
def levelled (s : State) (i k r c comp x : Nat) : Nat :=
  let e := entryAt s i k r c comp
  let x1 := if bit (s.reg (Reg.CAM_FRANK i k)) 14 then x - table s i (s.reg (Reg.CAM_DARK i k)).toNat e else x
  if bit (s.reg (Reg.CAM_FRANK i k)) 13 then (x1 * table s i (s.reg (Reg.CAM_GAIN i k)).toNat e + 2 ^ 13) / 2 ^ 14 else x1
/-- The output sample of a bin cell whose samples sum to `y` (R235). -/
def converted (s : State) (i k y : Nat) : Nat :=
  let n := binH s i k * binV s i k
  let y1 := if bit (s.reg (Reg.CAM_FRANK i k)) 7 then (y + n / 2) / n else y
  min (y1 * 2 ^ field (s.reg (Reg.CAM_CONV i k)) 0 4 / 2 ^ field (s.reg (Reg.CAM_CONV i k)) 4 4) 0xFFFF
/-- Band `b` of a line has value `v` at output pixel `j`: the bin cell's samples, substituted, levelled, summed and converted (R235).
HSI bins join adjacent band rows; others join the line's rows, by component. -/
def Pixel (s : State) (i k : Nat) (l : CamLine) (b j v : Nat) : Prop :=
  ∃ x : Nat → Nat → Nat,
    let q0 := if field (s.reg (Reg.CAM_CFG i k)) 12 3 = 2 then b * binV s i k else 0
    let comp := if field (s.reg (Reg.CAM_CFG i k)) 12 3 = 2 then 0 else b
    (∀ q p, q < binV s i k → p < binH s i k →
      Substituted s i k (l.rows.getD (q0 + q) []) (l.row0 + q0 + q) (j * binH s i k + p) comp (x q p)) ∧
    v = converted s i k (((List.range (binV s i k)).map fun q => ((List.range (binH s i k)).map fun p =>
      levelled s i k (l.row0 + q0 + q) (j * binH s i k + p) comp (x q p)).sum).sum)
/-- Band number of selected band `n` (R235). -/
def bandNo (s : State) (i k n : Nat) : Nat := (s.reg (Reg.CAM_BAND0 i k)).toNat + n * field (s.reg (Reg.CAM_BAND1 i k)) 8 8
/-- Selected bands NB, and output pixels NX of a line. -/
def bandCount (s : State) (i k : Nat) : Nat := field (s.reg (Reg.CAM_BAND1 i k)) 0 8 + 1
def outWidth (s : State) (i k : Nat) : Nat := (s.reg (Reg.CAM_XSIZE i k)).toNat / binH s i k
/-- Lane `a` of data sheet `n` of a region holds this selected band and region pixel; none where the lane is 0000h (R240). -/
def laneHolds (pack w nb n a : Nat) : Option (Nat × Nat) :=
  if pack = 0 then
    let per := (w + 7) / 8
    if n % per * 8 + a < w then some (n / per, n % per * 8 + a) else none
  else if pack = 1 then
    let per := (nb + 7) / 8
    if n % per * 8 + a < nb then some (n % per * 8 + a, n / per) else none
  else if a % 4 < 3 ∧ 2 * n + a / 4 < w then some (a % 4, 2 * n + a / 4) else none
/-- N of R240. -/
def dataSheets (pack w nb : Nat) : Nat :=
  if pack = 0 then nb * ((w + 7) / 8) else if pack = 1 then w * ((nb + 7) / 8) else (w + 1) / 2
/-- Mailbag of a DIE and LOCAL field. -/
def bagOf (w : Word) : Nat := 128 * field w 10 3 + field w 0 7
/-- A header sheet: KIND, region, slot, GAP, ABORT and lanes 2 to 7 (R241). -/
def header (kind g slot : Nat) (gap abort : Bool) (frame lane3 : Nat) (stamp : Pos) (lane7 : Nat) : Sheet :=
  ⟨mod16 (0xA500 + 64 * kind + g), mod16 (4096 * slot + (if gap then 2048 else 0) + (if abort then 1024 else 0)), mod16 frame,
    mod16 lane3, posWord stamp 0, posWord stamp 1, posWord stamp 2, mod16 lane7⟩
/-- A sheet on its way from intake die `i` to a mailbag. -/
def sent (i : Nat) (box : Nat) (x : Sheet) : Msg := .push (i + 1) box { data := x, tag := 0, depth := 0, flips := 0 }
/-- The camera's routes are not metered, and nothing waits for postage. -/
def Flows (s : State) (i k : Nat) : Prop :=
  (s.cam i k).out = [] ∧ bit (s.reg (routeKey (field (s.reg (Reg.CAM_ROUTE i k)) 0 8) 3)) 15 = false ∧
    bit (s.reg (routeKey (field (s.reg (Reg.CAM_ROUTE i k)) 8 8) 3)) 15 = false
/-- A mailbag's die is HUB or a sorting die, and intake die `i` reaches it. -/
def BagReached (s : State) (i : Nat) (mb : Word) : Prop :=
  (field mb 10 3 = 0 ∨ isSort (field mb 10 3) = true) ∧ s.undeliverable (i + 1) (field mb 10 3) = none
/-- Region `g` is the camera's only enabled one, and its mailbag is in reach. -/
def OnlyRegion (s : State) (i k g : Nat) : Prop :=
  (∀ h, h < 64 → ((bit (s.reg (Reg.RG_CFG i h)) 15 = true ∧ field (s.reg (Reg.RG_CFG i h)) 8 4 = k) ↔ h = g)) ∧
    BagReached s i (s.reg (Reg.RG_MB i g))

end Sys2Proof.Claims

/-- R227, R232, R237, R238: stream packets of a READY camera are taken in tag order: one of a later tag is held back while the expected
one can still come, and a missing tag is counted. Samples join their line; a completed line joins the camera's work; lost samples and a
CRC error cost the lines they touch, counted, each with a dead letter; a bad header, or a missing one, costs the image; a packet of
another stream sets FMTERR. The line here is not the last of its frame. -/
def Sys2Proof.Claims.StreamPackets : Prop :=
  ∀ (s : State) (i : Fin 2) (cx : Fin 20) (k : Fin 16) (crc : Bool) (tag sid : Fin 256), s.live = true →
    s.camOf i.val cx.val = some k.val → (s.cam i.val k.val).state = .ready →
    let c := s.cam i.val k.val
    let stream := field (s.reg (Reg.CAM_FMT i.val k.val)) 0 8
    let seq := tag.val = c.tag
    let len := Claims.lineLen s i.val k.val
    let lines := Claims.imageLines s i.val k.val
    let counts := fun (t : State) =>
      (¬ seq → t.reg (Reg.CX_SEQERR i.val cx.val) = satAdd (s.reg (Reg.CX_SEQERR i.val cx.val)) 1 ∧
        Msg.fwEvent 4 (20 * i.val + cx.val) ∈ t.msgs) ∧
      (crc = false → t.reg (Reg.CX_CRCERR i.val cx.val) = satAdd (s.reg (Reg.CX_CRCERR i.val cx.val)) 1 ∧
        Msg.fwEvent 4 (20 * i.val + cx.val) ∈ t.msgs)
    let drops := fun (t : State) => t.reg (Reg.CAM_FRAMEDROP i.val k.val) = satAdd (s.reg (Reg.CAM_FRAMEDROP i.val k.val)) 1 ∧
      bit (t.reg (Reg.CAM_STAT i.val k.val)) 12 = true
    let now := sid.val = stream ∧ c.ahead = [] ∧ (seq ∨ Claims.conns s i.val k.val = 1)
    (∀ p, sid.val ≠ stream → exec (.streamPacket i cx crc tag sid p) s =
      .next (s.setReg (Reg.CAM_STAT i.val k.val) (s.reg (Reg.CAM_STAT i.val k.val) ||| 0x1000))) ∧
    (∀ p, sid.val = stream → ¬ seq → c.ahead = [] → 1 < Claims.conns s i.val k.val →
      Claims.master s i.val k.val + Claims.conns s i.val k.val ≤ 20 → crc = true →
      exec (.streamPacket i cx crc tag sid p) s =
        .next (s.setCam i.val k.val { c with ahead := [{ cx := cx.val, tag := tag.val, crcOk := crc, part := p }] })) ∧
    (∀ (p : Nat) (xs : List Word) (raw : List (BitVec 8)), now → c.image = .inside p → 0 < xs.length → p / len < lines →
      p % len + xs.length ≤ len → 0 < Claims.rowLen s i.val k.val →
      let o := p % len
      let room := (c.linesHeld + 1) * Claims.lineBytes s i.val k.val (field (s.reg (Reg.CAM_CFG i.val k.val)) 12 3) ≤
        4096 * (s.reg (Reg.CAM_LBUF i.val k.val)).toNat
      let bits := fun (n : Nat) => (n * Claims.sampleBits s i.val k.val + 7) / 8
      let mine := raw.take (bits (o + xs.length) - bits o)
      ∃ t, exec (.streamPacket i cx crc tag sid (.samples p xs raw)) s = .next t ∧ Claims.OnlyCams s t ∧
        Claims.OtherCams s t i.val k.val ∧ counts t ∧ (t.cam i.val k.val).tag = (tag.val + 1) % 256 ∧
        (t.cam i.val k.val).image = .inside (p + xs.length) ∧
        (0 < o → o + xs.length < len → (t.cam i.val k.val).got = c.got ++ xs ∧ (t.cam i.val k.val).raw = c.raw ++ mine ∧
          (t.cam i.val k.val).bad = (c.bad || !crc) ∧ (t.cam i.val k.val).jobs = c.jobs ∧
          (t.cam i.val k.val).last = s.camStamp i.val) ∧
        (o = 0 → o + xs.length < len → (t.cam i.val k.val).got = xs ∧ (t.cam i.val k.val).raw = mine ∧
          (t.cam i.val k.val).stamp = s.camStamp i.val ∧ (t.cam i.val k.val).active = true ∧
          (t.cam i.val k.val).jobs = c.jobs ∧
          (c.active = false → (t.cam i.val k.val).first = some (s.camStamp i.val) ∧
            (t.cam i.val k.val).fmt = s.reg (Reg.CAM_FMT i.val k.val)) ∧
          (¬ room → (t.cam i.val k.val).bad = true ∧ bit (t.reg (Reg.INT_STAT i.val)) 15 = true) ∧
          (room → (t.cam i.val k.val).bad = !crc)) ∧
        (0 < o → o + xs.length = len → c.line + 1 < s.frameLines i.val k.val → c.got.length = o →
          (t.cam i.val k.val).line = c.line + 1 ∧ (t.cam i.val k.val).got = [] ∧ (t.cam i.val k.val).raw = [] ∧
          (crc = true → c.bad = false → (t.cam i.val k.val).delivered = c.delivered + 1 ∧ (t.cam i.val k.val).gap = false ∧
            (seq → t.regs = s.regs ∧ t.msgs = s.msgs) ∧
            ∃ rows, (t.cam i.val k.val).jobs = c.jobs ++
              [(c.gap, .line { frame := c.frame, no := c.line, row0 := p / len * Claims.lineRows s i.val k.val, rows := rows,
                               raw := c.raw ++ mine, stamp := c.stamp })] ∧
              rows.flatten = c.got ++ xs ∧ rows.length = Claims.lineRows s i.val k.val ∧
              ∀ r ∈ rows, r.length = Claims.rowLen s i.val k.val) ∧
          (crc = false ∨ c.bad = true →
            (t.cam i.val k.val).dropped = c.dropped + 1 ∧ (t.cam i.val k.val).jobs = c.jobs ∧ (t.cam i.val k.val).gap = true ∧
            t.reg (Reg.CAM_LINEDROP i.val k.val) = satAdd (s.reg (Reg.CAM_LINEDROP i.val k.val)) 1 ∧
            t.reg (Reg.INT_DEADLINES i.val) = satAdd (s.reg (Reg.INT_DEADLINES i.val)) 1 ∧
            (∃ w, Msg.dead 3 (i.val + 1) w ∈ t.msgs)))) ∧
    (∀ (p place : Nat) (xs : List Word) (raw : List (BitVec 8)), now → 0 < xs.length →
      (c.image = .inside p → p % len ≠ 0 → p < place → place + xs.length < (p / len + 1) * len → p / len < lines →
        ∃ t, exec (.streamPacket i cx crc tag sid (.samples place xs raw)) s = .next t ∧ Claims.OnlyCams s t ∧ counts t ∧
          (t.cam i.val k.val).image = .inside (place + xs.length) ∧ (t.cam i.val k.val).bad = true ∧
          (t.cam i.val k.val).jobs = c.jobs) ∧
      ((∃ q, c.image = .inside q ∧ place < q) ∨ c.image = .none →
        ∃ t, exec (.streamPacket i cx crc tag sid (.samples place xs raw)) s = .next t ∧ Claims.OnlyCams s t ∧ counts t ∧ drops t ∧
          (t.cam i.val k.val).image = .dropped (place + xs.length))) ∧
    (∀ (pf : Fin 16) (xsz ysz : Word), now →
      let fits := crc = true ∧ pf.val = field (s.reg (Reg.CAM_FMT i.val k.val)) 12 4 ∧ xsz = s.reg (Reg.CAM_XSIZE i.val k.val) ∧
        ysz = s.reg (Reg.CAM_YSIZE i.val k.val)
      ∃ t, exec (.streamPacket i cx crc tag sid (.header pf xsz ysz)) s = .next t ∧ Claims.OnlyCams s t ∧
        Claims.OtherCams s t i.val k.val ∧ counts t ∧ (t.cam i.val k.val).tag = (tag.val + 1) % 256 ∧
        (fits → (t.cam i.val k.val).image = .inside 0 ∧ (t.cam i.val k.val).active = true ∧
          ((∀ p, c.image ≠ .inside p) → (seq → t.regs = s.regs) ∧ (t.cam i.val k.val).jobs = c.jobs ∧
            (c.active = false → (t.cam i.val k.val).fmt = s.reg (Reg.CAM_FMT i.val k.val))) ∧
          (∀ p, c.image = .inside p → t.reg (Reg.CAM_LINEDROP i.val k.val) =
            satAdd (s.reg (Reg.CAM_LINEDROP i.val k.val)) (lines - p / len))) ∧
        (¬ fits → drops t ∧ (t.cam i.val k.val).image = .dropped 0))

/-- R233 to R241: the oldest line of a camera is franked and goes to its region: a header sheet with the frame, line, stamp, GAP and N,
then N data sheets, whose lanes hold the selected bands' output pixels in the region's packing. A camera state sheet goes to the
region alike. A line that the region's decimation skips sends nothing. -/
def Sys2Proof.Claims.LinesFranked : Prop :=
  ∀ (s : State) (i : Fin 2) (k : Fin 16) (g : Nat) (jobs : List (Bool × CamJob)), s.live = true → g < 64 → Claims.Flows s i.val k.val →
    Claims.OnlyRegion s i.val k.val g →
    let box := Claims.bagOf (s.reg (Reg.RG_MB i.val g))
    let cfg := s.reg (Reg.RG_CFG i.val g)
    let w := (s.reg (Reg.RG_W i.val g)).toNat
    let x0 := (s.reg (Reg.RG_X0 i.val g)).toNat
    let nb := Claims.bandCount s i.val k.val
    let n := Claims.dataSheets (field cfg 13 2) w nb
    (∀ (l : CamLine) (gap : Bool), (s.cam i.val k.val).jobs = (gap, .line l) :: jobs → bit (s.reg (Reg.CAM_FSCFG i.val k.val)) 15 = false →
      (¬ Claims.hsi s i.val k.val → l.rows.length = Claims.binV s i.val k.val) →
      Claims.defectsSorted s i.val k.val → field cfg 13 2 ≠ 3 → (field cfg 13 2 = 2 → nb = 3) →
      ∃ t, exec (.lineFranked i k []) s = .next t ∧ (t.cam i.val k.val).jobs = jobs ∧ (t.cam i.val k.val).out = [] ∧
        Claims.OtherCams s t i.val k.val ∧ t.mem = s.mem ∧
        (w = 0 ∨ l.no % (field cfg 0 8 + 1) ≠ 0 → t.msgs = s.msgs ∧
          t.rgGap.getD (64 * i.val + g) false = (gap || s.rgGap.getD (64 * i.val + g) false)) ∧
        (w ≠ 0 → l.no % (field cfg 0 8 + 1) = 0 → t.rgGap.getD (64 * i.val + g) false = false ∧
          ∃ data : List Sheet, data.length = n ∧
            t.msgs = s.msgs ++ Claims.sent i.val box (Claims.header 0 g k.val (gap || s.rgGap.getD (64 * i.val + g) false) false
              l.frame l.no l.stamp n) :: data.map (Claims.sent i.val box) ∧
            ∀ m a, m < n → a < 8 → match Claims.laneHolds (field cfg 13 2) w nb m a with
              | none => (data.getD m Sheet.zero).lane a = 0
              | some (b, j) => x0 + j < Claims.outWidth s i.val k.val →
                  Claims.Pixel s i.val k.val l (Claims.bandNo s i.val k.val b) (x0 + j) ((data.getD m Sheet.zero).lane a).toNat)) ∧
    (∀ gap st fr stamp, (s.cam i.val k.val).jobs = (gap, .camState st fr stamp) :: jobs →
      ∃ t, exec (.lineFranked i k []) s = .next t ∧ (t.cam i.val k.val).jobs = jobs ∧ t.mem = s.mem ∧
        t.msgs = s.msgs ++
          [Claims.sent i.val box (Claims.header 2 g k.val (gap || s.rgGap.getD (64 * i.val + g) false) false fr st stamp 0)])

/-- R241, R243, R244: at a frame's end the descriptor is written to the frame's slot, FEND goes to the region, and FSDONE to the frame
event mailbag; without a frame store only FEND goes out. -/
def Sys2Proof.Claims.FramesEnd : Prop :=
  ∀ (s : State) (i : Fin 2) (k : Fin 16) (g : Nat) (gap : Bool) (fr : FrameInfo) (jobs : List (Bool × CamJob)), s.live = true →
    g < 64 → Claims.Flows s i.val k.val → Claims.OnlyRegion s i.val k.val g → (s.cam i.val k.val).jobs = (gap, .frameEnd fr) :: jobs →
    let c := s.cam i.val k.val
    let fend := Claims.sent i.val (Claims.bagOf (s.reg (Reg.RG_MB i.val g)))
      (Claims.header 1 g k.val (gap || s.rgGap.getD (64 * i.val + g) false) fr.abort fr.no fr.delivered fr.last fr.dropped)
    let ev := s.reg (Reg.CAM_EVMB i.val k.val)
    let fs := s.reg (Reg.CAM_FSCFG i.val k.val)
    let slot := fr.no % (s.reg (Reg.CAM_FSNSLOT i.val k.val)).toNat
    let base := 2048 * ((s.reg (Reg.CAM_FSBASEL i.val k.val)).toNat + 65536 * (s.reg (Reg.CAM_FSBASEH i.val k.val)).toNat) +
      slot * (2048 * (s.reg (Reg.CAM_FSSLOT i.val k.val)).toNat)
    let desc : List Word := [Claims.mod16 fr.no, Claims.mod16 (4096 * k.val + (if 0 < fr.dropped then 2048 else 0) +
        (if fr.abort then 1024 else 0) + (if bit fs 14 then 512 else 0)), Claims.mod16 c.written, Claims.mod16 fr.dropped,
      Claims.posWord fr.first 0, Claims.posWord fr.first 1, Claims.posWord fr.first 2, Claims.posWord fr.lastLine 0,
      Claims.posWord fr.lastLine 1, Claims.posWord fr.lastLine 2, Claims.mod16 c.ls, Claims.mod16 (c.ls / 65536),
      Claims.mod16 (Claims.outWidth s i.val k.val), Claims.mod16 (Claims.bandCount s i.val k.val), fr.fmt]
    (bit fs 15 = false →
      ∃ t, exec (.frameEnd i k) s = .next t ∧ (t.cam i.val k.val).jobs = jobs ∧ (t.cam i.val k.val).out = [] ∧
      Claims.OtherCams s t i.val k.val ∧ t.mem = s.mem ∧ t.msgs = s.msgs ++ [fend]) ∧
    (bit fs 15 = true → 1 ≤ (s.reg (Reg.CAM_FSNSLOT i.val k.val)).toNat → (s.reg (Reg.CAM_FSBASEH i.val k.val)).toNat < 2048 →
      bit ev 15 = true → Claims.BagReached s i.val ev → s.undeliverable (i.val + 1) 0 = none →
      ∃ t ms, exec (.frameEnd i k) s = .next t ∧ (t.cam i.val k.val).jobs = jobs ∧ (t.cam i.val k.val).out = [] ∧
        Claims.OtherCams s t i.val k.val ∧
        (∀ j, j < 32 → t.peek (ddrKey (base + j)) = desc.getD j 0) ∧
        (∀ a, (∀ j, j < 32 → a ≠ ddrKey (base + j)) → t.peek a = s.peek a) ∧
        t.msgs = ms ++ [fend, Claims.sent i.val (Claims.bagOf ev) (Claims.header 3 0 k.val false false fr.no slot fr.last 0)])

/-- R227, R232 to R244: stream packets, the franking of lines, and the ends of frames. -/
def Sys2Proof.Claims.CameraFrames : Prop := Claims.StreamPackets ∧ Claims.LinesFranked ∧ Claims.FramesEnd

/-- The cameras: packets, lines, frames, regions and the sheets they send. -/
def Obligations.Intake : Prop := Claims.Cameras ∧ Claims.CameraFrames

/-! ## The fabric -/

namespace Sys2Proof.Claims

/-- One direction of a link: `ab` from end A to end B. -/
def way (x : Link) (ab : Bool) : LinkDir := if ab then x.ab else x.ba
/-- The link with the direction changed. -/
def setWay (x : Link) (ab : Bool) (d : LinkDir) : Link := if ab then { x with ab := d } else { x with ba := d }
/-- What frames, replays and retrains of link `l` change: its state, its registers, fault window events. -/
def OnlyLink (s t : State) (l : Nat) : Prop :=
  ∃ lk rg ms, t = { s with links := lk, regs := rg, msgs := s.msgs ++ ms } ∧ (∀ m, m ≠ l → t.link m = s.link m) ∧
    (∀ m ∈ ms, m = .fwEvent 3 l) ∧ ∀ k, (k < Reg.FL_STAT l ∨ Reg.FL_STAT l + 0x20 ≤ k) → t.reg k = s.reg k
/-- The link trains anew, by a retrain or toward a new exchange: TRAIN with its sequence numbers kept, counted, an event of its window
(R259). -/
def Retrains (s t : State) (l : Nat) (retrain : Bool) : Prop :=
  (t.link l).state = .train ∧ (t.link l).retrain = retrain ∧ (∀ ab, (way (t.link l) ab).expect = (way (s.link l) ab).expect ∧
    (way (t.link l) ab).nextTx = (way (s.link l) ab).nextTx) ∧ t.reg (Reg.FL_RETRAIN l) = satAdd (s.reg (Reg.FL_RETRAIN l)) 1 ∧
    bit (t.reg (Reg.FL_STAT l)) 14 = true ∧ Msg.fwEvent 3 l ∈ t.msgs
/-- HUB has declared a die out: its bits, its state, the record in the AON fault log with its reason, for a sorting die the recall of
its epochs; RUN becomes DEGRADED (R16, R22, R261, R492). -/
def DeclaredOut (s t : State) (d reason : Nat) : Prop :=
  t.inService d = false ∧ bit (t.reg Reg.DEVICE_DIES) (8 + d) = true ∧ (t.die d).state = .out ∧
    bit (t.reg (Reg.FD_STAT d)) 15 = true ∧ t.logCount = (s.logCount + 1) % 65536 ∧
    (∃ r, t.faultLog.find? (s.logCount % 64) = some r ∧ r.take 2 = [mod16 (0x3000 + d), mod16 reason]) ∧
    (isSort d = true → Msg.recallDie d ∈ t.msgs) ∧ (s.mode = 4 → t.mode = 5) ∧ (s.mode ≠ 4 → t.mode = s.mode) ∧
    (∀ e, e ≠ d → t.inService e = s.inService e)
/-- Ends of a link, end A first (R10, R274). -/
def ends (l : Nat) : Nat × Nat := linkEnds.getD l (0, 0)
/-- Do the fixed fields of two dies agree (R264)? -/
def FixedAgree (a b : Die) : Prop := a.imgId = b.imgId ∧ b.cmin ≤ a.ver ∧ a.cmin ≤ b.ver ∧ a.stepping = b.stepping
/-- FL_QCAUSE of the fixed fields that fail (R274). -/
def fixedBits (a b : Die) : Nat :=
  (if a.imgId = b.imgId then 0 else 1) + (if b.cmin ≤ a.ver then 0 else 2) + (if a.cmin ≤ b.ver then 0 else 4) +
    (if a.stepping = b.stepping then 0 else 8)
/-- Die that sends in a direction of a link, and the one that receives. -/
def sender (l : Nat) (ab : Bool) : Nat := if ab then (ends l).1 else (ends l).2
def receiver (l : Nat) (ab : Bool) : Nat := if ab then (ends l).2 else (ends l).1
/-- No other link's state has changed. -/
def LinksStay (s t : State) (l : Nat) : Prop := ∀ m, m ≠ l → (t.link m).state = (s.link m).state

end Sys2Proof.Claims

/-- R252, R255, R257, R258: a frame received: a good one in order is accepted, its sequence number acknowledged and its parcel handed on:
to its unit, to the buffer of the unit's VC3, or toward its next link, which drops it where that link is not up; a bad one, or one after
a gap, asks for a replay; a duplicate is counted. -/
def Sys2Proof.Claims.LinkFrames : Prop :=
  ∀ (s : State) (l : Fin 19) (ab : Bool) (q : Fin 256) (crc : Bool), s.live = true → Claims.NoneWaits s .dsync →
    let x := s.link l.val
    let d := Claims.way x ab
    let next := if q.val = d.nextTx then (d.nextTx + 1) % 256 else d.nextTx
    let go := exec (.linkFrameReceive l ab q crc) s
    let put := fun (d : LinkDir) => { s with links := s.links.set l.val (Claims.setWay x ab d) }
    (x.state ≠ .up → go = .next s) ∧
    (x.state = .up → d.expect < 256 →
      (crc = false → ∃ t, go = .next t ∧ Claims.OnlyLink s t l.val ∧
        t.link l.val = Claims.setWay x ab { d with nextTx := next, nak := true } ∧
        t.reg (Reg.FL_CRCERR l.val) = satAdd (s.reg (Reg.FL_CRCERR l.val)) 1 ∧ bit (t.reg (Reg.FL_STAT l.val)) 15 = true ∧
        Msg.fwEvent 3 l.val ∈ t.msgs) ∧
      (crc = true → q.val = d.expect → d.sent.head?.map Prod.fst ≠ some q.val → go = .next (put
        { d with nextTx := next, expect := (q.val + 1) % 256, acked := (q.val + 1) % 256, naks := 0, ackAt := s.now })) ∧
      (∀ (p : Transit) (rest : List (Nat × Transit)) (path : List Nat), crc = true → q.val = d.expect →
        d.sent = (q.val, p) :: rest → p.path = l.val :: path → p.msg ∈ s.msgs →
        let far := Claims.receiver l.val ab
        let on : Transit := { p with path := path, via := some l.val }
        ∃ t, go = .next t ∧ Claims.Sends s t ∧ (Claims.way (t.link l.val) ab).expect = (q.val + 1) % 256 ∧
          (Claims.way (t.link l.val) ab).acked = (q.val + 1) % 256 ∧ rest <+: (Claims.way (t.link l.val) ab).sent ∧
          (∀ m, (t.link m).state = (s.link m).state) ∧
          (path = [] → t.msgs = s.msgs ∧ (p.vc = 3 → on ∈ t.router far)) ∧
          (∀ l2 more a b, path = l2 :: more → p.msg.route = some (a, b) →
            (s.linkUp l2 = false → t.reg (Reg.FD_DL far 1) = satAdd (s.reg (Reg.FD_DL far 1)) 1 ∧
              ∃ w, Msg.dead 6 far (p.msg.words ++ w) ∈ t.msgs) ∧
            (s.linkUp l2 = true → (s.die a).state ≠ .out → (s.die b).state ≠ .out →
              t.msgs = s.msgs ∧ (on ∈ t.router far ∨ ∃ n, (n, { on with via := none }) ∈ (t.outDir l2 far).sent)))) ∧
      (∀ n, crc = true → 1 ≤ n → n ≤ 64 → (q.val + n) % 256 = d.expect →
        go = .next (s.setReg (Reg.FL_DUP l.val) (satAdd (s.reg (Reg.FL_DUP l.val)) 1))) ∧
      (∀ n, crc = true → 1 ≤ n → n ≤ 191 → (d.expect + n) % 256 = q.val →
        go = .next (put { d with nextTx := next, nak := true })))

/-- R258 to R261, R274: the replay on a NAK, and the retrain at the eighth; the retrain on a silent link; a retrain's end, after the third
failure DOWN, where what the link held is flushed; RETRAIN and UNFAULT; a die whose link to HUB is lost is declared out. -/
def Sys2Proof.Claims.LinkRetries : Prop :=
  ∀ (s : State) (l : Fin 19), s.live = true → Claims.NoneWaits s .dsync →
    let x := s.link l.val
    (∀ ab : Bool, let d := Claims.way x ab
      (d.nak = false ∨ x.state ≠ .up → exec (.nakReplay l ab) s = .next s) ∧
      (d.nak = true → x.state = .up → ∃ t, exec (.nakReplay l ab) s = .next t ∧ Claims.OnlyLink s t l.val ∧
        t.reg (Reg.FL_RETRY l.val) = satAdd (s.reg (Reg.FL_RETRY l.val)) 1 ∧
        (d.naks < 7 → t.link l.val = Claims.setWay x ab { d with nak := false, naks := d.naks + 1, acked := d.expect }) ∧
        (7 ≤ d.naks → Claims.Retrains s t l.val true ∧ (Claims.way (t.link l.val) ab).naks = 0 ∧
          (Claims.way (t.link l.val) ab).sent = d.sent)) ∧
      let silent := x.state = .up ∧ d.nextTx ≠ d.acked ∧ d.ackAt + 400 ≤ s.now
      (silent → ∃ t, exec (.ackTimeout l ab) s = .next t ∧ Claims.OnlyLink s t l.val ∧ Claims.Retrains s t l.val true ∧
        (Claims.way (t.link l.val) ab).sent = d.sent) ∧
      (¬ silent → exec (.ackTimeout l ab) s = .next s)) ∧
    (Calm s → (∀ ok : Bool, x.state ≠ .train → exec (.retrainComplete l ok) s = .next s) ∧
      (x.state = .train → x.retrain = true →
        (∃ t, exec (.retrainComplete l true) s = .next t ∧ Claims.Sends s t ∧ t.msgs = s.msgs ∧ Claims.Keeps s t [] ∧
          (t.link l.val).state = .up ∧ (t.link l.val).fails = 0 ∧
          (∀ ab, (Claims.way (t.link l.val) ab).expect = (Claims.way x ab).expect ∧
            (Claims.way x ab).sent <+: (Claims.way (t.link l.val) ab).sent) ∧ Claims.LinksStay s t l.val) ∧
        (x.fails < 2 →
          ∃ t, exec (.retrainComplete l false) s = .next t ∧ Claims.OnlyLink s t l.val ∧ Claims.Retrains s t l.val true ∧
          (t.link l.val).fails = x.fails + 1) ∧
        (2 ≤ x.fails → ∃ t, exec (.retrainComplete l false) s = .next t ∧ Claims.Sends s t ∧ Claims.Keeps s t [] ∧
          (t.link l.val).state = .down ∧ (∀ ab, (Claims.way (t.link l.val) ab).sent = []) ∧
          bit (t.reg (Reg.FL_STAT l.val)) 12 = true ∧ Claims.LinksStay s t l.val ∧
          (∀ n p, x.ab.sent = [(n, p)] → x.ba.sent = [] → s.routers = [] → p.msg ∈ s.msgs →
            t.reg (Reg.FL_FLUSHED l.val) = satAdd (s.reg (Reg.FL_FLUSHED l.val)) 1 ∧
            ∃ w, Msg.dead 8 (Claims.ends l.val).1 (p.msg.words ++ w) ∈ t.msgs)))) ∧
    (∀ who : Requester, Reaches s who.val (Reg.FL_CTL l.val) → Calm s →
      (x.state = .quarantine ∨ x.state = .fault → exec (.flCtlRetrain who l) s = .next s) ∧
      (x.state ≠ .quarantine → x.state ≠ .fault →
        ∃ t, exec (.flCtlRetrain who l) s = .next t ∧ Claims.OnlyLink s t l.val ∧
          Claims.Retrains s t l.val (x.state == .up || (x.state == .train && x.retrain))) ∧
      (x.state ≠ .fault → exec (.flCtlUnfault who l) s = .next s) ∧
      (x.state = .fault → ∃ t fw, exec (.flCtlUnfault who l) s = .next t ∧ Claims.OnlyLink { s with faultWins := fw } t l.val ∧
        Claims.Retrains s t l.val true ∧ t.faultWins.getD (0x30000 + l.val) FaultWin.reset = FaultWin.reset)) ∧
    (∀ d : DieId, Calm s → s.fallback d.val true = [] → s.modeAt = none →
      let hubLost := s.linkUp (d.val - 1) = false
      let dispLost := isSort d.val = true ∧ s.linkUp (d.val + 12) = false ∧ s.inService 7 = true
      (d.val ≠ 0 → s.inService d.val = true → hubLost ∨ dispLost →
        ∃ t, exec (.linkDownDeclaration d) s = .next t ∧ Claims.DeclaredOut s t d.val 1) ∧
      (d.val = 0 ∨ s.inService d.val = false ∨ (¬ hubLost ∧ ¬ dispLost) → exec (.linkDownDeclaration d) s = .next s))

/-- R252, R255, R257 to R261, R274: frames, replays and retrains. -/
def Sys2Proof.Claims.LinkRetry : Prop := Claims.LinkFrames ∧ Claims.LinkRetries

/-- R262 to R266: an undeliverable parcel is a dead letter, counted, and a read gets its reply; an exchange whose fixed fields agree
brings the link UP, HUB's mode going to a joining die; a fixed mismatch quarantines the link and declares a die out; a transient one is
exchanged again after 10 µs, up to 3 times. -/
def Sys2Proof.Claims.BringUp : Prop :=
  (∀ (s : State) (d : DieId) (post ctl : Word) (x : Sheet), s.live = true → Claims.NoneWaits s .dsync →
    let dest := field post 13 3
    let unit := field post 8 5
    let who := originRequester ctl
    let drops := fun (cause i : Nat) => ∃ t, exec (.undeliverableParcel d post ctl x) s = .next t ∧ Claims.Sends s t ∧
      t.reg (Reg.FD_DL d.val i) = satAdd (s.reg (Reg.FD_DL d.val i)) 1 ∧
      (∃ w, Msg.dead cause d.val ([post, ctl, x.l0, x.l1, x.l2, x.l3] ++ w) ∈ t.msgs) ∧
      (unit = 6 ∨ unit = 7 → bit ctl 6 = false → who < 131 → Msg.portReply who d.val [] true ∈ t.msgs)
    let noLoad := bit ctl 6 = true ∨ 130 ≤ who ∨ (s.clerk who).bufferUsed = 0
    (0x0E ≤ unit ∨ (4 ≤ unit ∧ unit ≤ 5 ∧ dest ≠ 7) ∨ (unit = 8 ∧ dest ≠ 0 ∧ noLoad) → drops 5 0) ∧
    (unit = 3 → dest ≠ d.val → s.inService dest = false → drops 7 2) ∧
    (unit = 6 → x.l0.toNat < 0x4000 → drops 5 0) ∧
    (unit = 3 → dest ≠ d.val → s.inService dest = true → s.inService d.val = true → s.routeLinks d.val dest = none →
      drops 6 1) ∧
    (unit = 3 → s.undeliverable d.val dest = none → exec (.undeliverableParcel d post ctl x) s = .next s)) ∧
  (∀ (s : State) (l : Fin 19), s.live = true → Calm s →
    let x := s.link l.val
    let a := (Claims.ends l.val).1
    let b := (Claims.ends l.val).2
    let da := s.die a
    let db := s.die b
    let exchanging := (x.state = .exchange ∨ (x.state = .quarantine ∧ x.again = true))
    let judged := fun (o : Host.Outcome State Fault Refusal) =>
      (¬ Claims.FixedAgree da db → s.modeAt = none → (∀ d, s.fallback d true = []) → 5 ≤ da.phase → db.phase < 5 →
        (∀ d, (s.die d).state ≠ .exchange) → ∃ t, o = .next t ∧ (t.link l.val).state = .quarantine ∧
          field (t.reg (Reg.FL_QCAUSE l.val)) 0 4 = Claims.fixedBits da db ∧ bit (t.reg (Reg.FL_STAT l.val)) 13 = true ∧
          t.inService b = false ∧ (t.die b).state = .out ∧ (isSort b = true → Msg.recallDie b ∈ t.msgs)) ∧
      (Claims.FixedAgree da db → a = 0 → 5 ≤ da.phase → db.phase < 3 → b ≠ 7 →
        ∃ t, o = .next t ∧ (t.link l.val).state = .up ∧ (t.link l.val).ab = LinkDir.reset ∧
        (t.link l.val).ba = LinkDir.reset ∧ (t.link l.val).tries = 0 ∧
        (t.die b).mode = s.mode ∧ 2 ≤ (t.die b).phase ∧ t.reg (Reg.FD_MODE b) = Claims.mod16 s.mode ∧
        t.reg (Reg.FD_STEP b) = db.stepping ∧
        ((∀ m, (Claims.ends m).1 = b ∨ (Claims.ends m).2 = b → m ≠ l.val → m < 19 →
          (s.link m).state ≠ .train ∧ (s.link m).state ≠ .exchange ∧ (s.link m).again = false) →
          t.inService b = true ∧ (t.die b).phase = 5 ∧ (t.die b).refSkew = 0)) ∧
      (Claims.FixedAgree da db → a ≠ 0 → b ≠ 7 → 5 ≤ da.phase → 5 ≤ db.phase → da.bepoch = db.bepoch →
        da.mode ≠ db.mode → x.tries < 3 →
        ∃ t, o = .next t ∧ (t.link l.val).state = x.state ∧ (t.link l.val).tries = x.tries + 1 ∧
          (t.link l.val).retryAt = some (s.now + 2000) ∧ ∀ d, t.die d = s.die d)
    (exchanging → x.retryAt = none → s.mayExchange l.val = true → judged (exec (.bringUpExchange l) s)) ∧
    (¬ exchanging ∨ x.retryAt ≠ none → exec (.bringUpExchange l) s = .next s) ∧
    (a ≠ 0 → b ≠ 7 → da.phase < 2 ∨ db.phase < 2 → exec (.bringUpExchange l) s = .next s) ∧
    (∀ t0, x.retryAt = some t0 → (exchanging → t0 ≤ s.now → judged (exec (.exchangeRetry l) s)) ∧
      (s.now < t0 → exec (.exchangeRetry l) s = .next s)))

/-- R268 to R270, R272, R273: a channel of a crossing holds one value; STATUS keeps the newest one behind it and counts those skipped,
EVENT queues, PULSE sums to 15 and counts the lost. The handshake hands the held value over and takes the next. While a side is in
reset nothing is offered; a reset discards and counts what is in flight, and STATUS then crosses afresh. -/
def Sys2Proof.Claims.Crossings : Prop :=
  ∀ (s : State) (d : DieId) (n : Fin 32) (kind : CrossKind), s.live = true →
    let x := s.crossing d.val n.val
    let put := fun (y : Crossing) => { s with crossings := s.crossings.set (32 * d.val + n.val) y }
    let here := n.val < if d.val = 0 then 9 else if d.val < 3 then 21 else if d.val < 7 then 1 else 10
    let key := crossKey d.val n.val
    (¬ here → (∀ o, exec (.crossingTransfer d n kind o) s = .next s) ∧ exec (.crossingReset d n) s = .next s) ∧
    (here →
      (∀ v, let go := exec (.crossingTransfer d n kind (some v)) s
        (s.crossHeld d.val n.val = true → go = .next s) ∧
        (s.crossHeld d.val n.val = false →
          (kind = .status → let c := x.status
            (c.hold = none → c.queue = [] →
              go = .next (put { x with status := { c with source := some v, hold := some v, req := !c.req } })) ∧
            (c.hold ≠ none → ∃ t, go = .next t ∧ t = { s with crossings := t.crossings, regs := t.regs } ∧
              t.crossing d.val n.val = { x with status := { c with source := some v, queue := [v] } } ∧
              (c.queue = [] → t.regs = s.regs) ∧ (c.queue ≠ [] → t.reg (key 1) = satAdd (s.reg (key 1)) 1))) ∧
          (kind = .event → let c := x.event
            (c.hold = none → go = .next (put { x with event := { c with source := some v, hold := some v, req := !c.req } })) ∧
            (c.hold ≠ none → go = .next (put { x with event := { c with source := some v, queue := c.queue ++ [v] } }))) ∧
          (kind = .pulse →
            (x.toggle = false → go = .next (put { x with toggle := true, count := 1 })) ∧
            (x.toggle = true → x.acc < 15 → go = .next (put { x with acc := x.acc + 1 })) ∧
            (x.toggle = true → 15 ≤ x.acc → ∃ t, go = .next t ∧ t = { s with regs := t.regs } ∧
              t.reg (key 3) = satAdd (s.reg (key 3)) 1 ∧ bit (t.reg (key 0)) 15 = true)))) ∧
      (let go := exec (.crossingTransfer d n kind none) s
        let taken := fun (c : CrossChan) => match c.hold, c.queue with
          | none, _ => c
          | some v, [] => { c with hold := none, seen := some v, ack := c.req }
          | some v, w :: q => { c with hold := some w, seen := some v, ack := c.req, req := !c.req, queue := q }
        (kind = .status → go = .next (put { x with status := taken x.status })) ∧
        (kind = .event → go = .next (put { x with event := taken x.event })) ∧
        (kind = .pulse → x.toggle = true → go = .next (put
          { x with toggle := decide (0 < x.acc), count := x.acc, acc := 0, pulses := x.pulses + x.count })) ∧
        (kind = .pulse → x.toggle = false → go = .next s)) ∧
      let held := fun (c : CrossChan) => c.hold.toList.length + c.queue.length
      ∃ t ms, exec (.crossingReset d n) s = .next t ∧ Claims.Sends { s with crossings := t.crossings } t ∧
        (t.crossing d.val n.val).event = CrossChan.reset ∧ (t.crossing d.val n.val).toggle = false ∧
        (t.crossing d.val n.val).acc = 0 ∧ (t.crossing d.val n.val).status.queue = [] ∧
        (t.crossing d.val n.val).status.hold = (if s.crossHeld d.val n.val then none else x.status.source) ∧
        bit (t.reg (key 0)) 14 = true ∧ t.reg (key 2) = satAdd (s.reg (key 2)) (held x.status + held x.event +
          (if x.toggle then 1 else 0) + if x.acc = 0 then 0 else 1) ∧
        t.msgs = s.msgs ++ ms ∧ ms.length = held x.event ∧ ∀ m ∈ ms, ∃ w, m = .dead 8 d.val w)

/-- R262 to R266, R268 to R272: undeliverable parcels, the bring-up exchange, and crossings. -/
def Sys2Proof.Claims.FabricExchange : Prop := Claims.BringUp ∧ Claims.Crossings

/-- R258 to R266, R268 to R272, R274: link retries, undeliverable parcels, the bring-up exchange and crossings. -/
def Obligations.Links : Prop := Claims.LinkRetry ∧ Claims.FabricExchange

/-! ## The Zegen line -/

namespace Sys2Proof.Claims

/-- CRC-16 with polynomial 1021h and initial value FFFFh, word by word, most significant bit first (R306). -/
def crcStep (r : Word) (b : Bool) : Word := (r <<< 1) ^^^ (if r.getLsbD 15 = b then 0 else 0x1021)
def crcWord (r w : Word) : Word := (List.range 16).foldl (fun q i => crcStep q (w.getLsbD (15 - i))) r
def crc (ws : List Word) : Word := ws.foldl crcWord 0xFFFF

/-- What the rounds and commands of port `p` change: its port, its nodes, registers, reports. -/
def OnlyPort (s t : State) (p : Nat) : Prop :=
  ∃ zp zn fw, Sends { s with zports := zp, znodes := zn, faultWins := fw } t ∧
    (∀ q, q ≠ p → t.zport q = s.zport q) ∧ ∀ q a, a < 64 → q ≠ p → t.znode q a = s.znode q a
/-- Every other address of the port keeps its state. -/
def OtherNodes (s t : State) (p a : Nat) : Prop := ∀ b, b < 64 → b ≠ a → t.znode p b = s.znode p b
/-- The words of a slot: the down part with DCRC, and an up part that cannot check good (R304, R306). -/
def slot (h1 d0 d1 d2 d3 : Word) : List Word :=
  [d0, d1, d2, d3, crc [h1, d0, d1, d2, d3], 0, 0, 0, 0, ~~~(crc [h1, 0, 0, 0, 0])]
/-- Slot of an address: the head of its queue while ENROLLED, else IDLE (R308, R313, R315). -/
def nodeSlot (s : State) (p a : Nat) (h1 : Word) : List Word :=
  match (s.znode p a).queue with
  | c :: _ => if (s.znode p a).state = .enrolled then slot h1 (c.d0 + mod16 (256 * c.seq)) c.d1 c.d2 c.d3 else slot h1 0 0 0 0
  | [] => slot h1 0 0 0 0
/-- Dead letters for every queued FIRE: cause ZEGEN_NODE (R315). -/
def QueueDropped (t : State) (q : List NodeCmd) : Prop :=
  ∀ c ∈ q, ∀ e, c.entry = some e → ∃ w, Msg.dead 0xF 7 (entryWords e ++ w) ∈ t.msgs
/-- NSLOT of a port. -/
def slots (s : State) (p : Nat) : Nat := field (s.reg (Reg.ZP_CFG p)) 6 6
/-- Fraction units of half a time in 5 ns ticks on the port's axis (R312, R317). -/
def halfUnits (s : State) (ax t : Nat) : Nat := t * 65536 / (2 * max (s.axTpred ax) 1)

end Sys2Proof.Claims

/-- R303 to R306, R308, R313, R314, R316, R317, R320: a round falls due, and sends its header and slots; skipped while a frame is in
flight; nothing before it is due. -/
def Sys2Proof.Claims.RoundsStart : Prop :=
  ∀ (s : State) (p : Fin 8), s.live = true → s.sleep = none → s.dispatchIsOut = false →
    let z := s.zport p.val
    let per := (s.reg (Reg.ZP_PERIOD p.val)).toNat
    let us := s.refUs
    let dueNow := (z.nextDue = none ∧ 0 < per ∧ s.ax15.toNat / 65536 % per = (s.reg (Reg.ZP_PHASE p.val)).toNat) ∨
      ∃ u, z.nextDue = some u ∧ u ≤ us
    let next := some (z.nextDue.getD us + per)
    let cfg := s.reg (Reg.ZP_CFG p.val)
    let ax := field cfg 2 4
    let n := Claims.slots s p.val
    (z.running = false ∨ (∃ u, z.nextDue = some u ∧ us < u) → exec (.roundStart p) s = .next s) ∧
    (z.running = true → dueNow → ∀ t0, z.flight = some t0 → ∃ t, exec (.roundStart p) s = .next t ∧
      Claims.OnlyPort s t p.val ∧ t.zport p.val = { z with nextDue := next } ∧
      t.reg (Reg.ZP_SKIP p.val) = satAdd (s.reg (Reg.ZP_SKIP p.val)) 1 ∧
      bit (t.reg (Reg.ZP_STAT p.val)) 13 = true ∧ t.znodes = s.znodes) ∧
    (z.running = true → dueNow → z.flight = none → z.confirm = none → ∃ t, exec (.roundStart p) s = .next t ∧
      Claims.OnlyPort s t p.val ∧ t.znodes = s.znodes ∧
      t.reg2 (Reg.ZP_ROUNDL p.val) (Reg.ZP_ROUNDH p.val) = (s.reg2 (Reg.ZP_ROUNDL p.val) (Reg.ZP_ROUNDH p.val) + 1) % 2 ^ 32 ∧
      let h1 := t.reg (Reg.ZP_ROUNDL p.val)
      let x := t.zport p.val
      let w := fun (j : Nat) => x.frame.getD j 0
      let pos := s.axPos ax + BitVec.ofNat 48 (Claims.halfUnits s ax (s.reg (Reg.ZP_LOOPAVG p.val)).toNat)
      x.nextDue = next ∧ x.flight = some s.now ∧ x.resetLeft = z.resetLeft - 1 ∧ x.frame.length = 6 + 10 * (n + 1) ∧
      w 0 = Claims.mod16 (256 * n + (if s.hsafe = true ∨ bit cfg 13 = true then 128 else 0) + (if 0 < z.resetLeft then 64 else 0) +
        (if s.axState ax = .track then 32 else 0)) ∧
      w 1 = h1 ∧ w 2 = Claims.posWord pos 0 ∧
      w 3 = Claims.mod16 (pos.toNat / 65536 % 256 * 256 + (s.reg (Reg.ZP_WDOG p.val)).toNat % 256) ∧
      w 4 = s.reg (Reg.ZP_PERIOD p.val) ∧ w 5 = Claims.crc [w 0, w 1, w 2, w 3, w 4] ∧
      (∀ a, 1 ≤ a → a ≤ n → (x.frame.drop (6 + 10 * (a - 1))).take 10 = Claims.nodeSlot s p.val a h1) ∧
      (bit cfg 14 = false ∨ z.lastOffer = true → x.offered = none ∧ x.frame.drop (6 + 10 * n) = Claims.slot h1 0 0 0 0) ∧
      (∀ a, bit cfg 14 = true → z.lastOffer = false → 1 ≤ a → a ≤ n → (s.znode p.val a).state = .free →
        (∀ b, 1 ≤ b → b < a → (s.znode p.val b).state ≠ .free) →
        x.offered = some a ∧ x.frame.drop (6 + 10 * n) = Claims.slot h1 (Claims.mod16 (1024 * a + 0x80)) 0 0 0)) ∧
    (∀ a v sl sh, z.running = true → dueNow → z.flight = none → z.confirm = some (a, v, sl, sh) → a < 64 →
      ∃ t, exec (.roundStart p) s = .next t ∧ Claims.OnlyPort s t p.val ∧ (t.zport p.val).confirm = none ∧
        (t.zport p.val).frame.drop (6 + 10 * n) = Claims.slot (t.reg (Reg.ZP_ROUNDL p.val)) (Claims.mod16 (1024 * a + 0x90)) v sl sh ∧
        (t.znode p.val a).state = .enrolling ∧ (t.znode p.val a).vendor = v ∧ (t.znode p.val a).serialL = sl ∧
        (t.znode p.val a).serialH = sh ∧ Claims.OtherNodes s t p.val a)

/-- R303, R306, R309 to R315, R317, R321, R324: a frame returns or is lost: the loop delay is measured; a valid answer, in a frame whose
header came back good or not, takes the head off the queue, enrols, and is reported as an input sheet; RESP LEAVE frees the address;
without one the node is counted, the command sent again or dropped, and at NTOUT rounds the node is LOST. The port here has one
slot. -/
def Sys2Proof.Claims.FramesReturn : Prop :=
  ∀ (s : State) (p : Fin 8) (sent : Nat), s.live = true → Claims.slots s p.val = 1 →
    let z := s.zport p.val
    let n := s.znode p.val 1
    sent = (z.frame.getD 6 0).toNat / 256 →
    (∀ hdr loop ans en, z.flight = none → exec (.frameReturn p hdr loop ans en) s = .next s) ∧
    (∀ loop, z.flight = none → exec (.frameLost p loop) s = .next s) ∧
    (∀ t0 loop, z.flight = some t0 →
      let avg := (s.reg (Reg.ZP_LOOPAVG p.val)).toNat
      let limit := 8 * 540 + (if avg = 0 then 44000 else avg + 4000);
      (s.now < t0 + limit → exec (.frameLost p loop) s = .next s) ∧
      (t0 + limit ≤ s.now → n.state = .free → ∃ t, exec (.frameLost p loop) s = .next t ∧ Claims.OnlyPort s t p.val ∧
        (t.zport p.val).flight = none ∧ (t.zport p.val).badRun = z.badRun + 1 ∧
        t.reg (Reg.ZP_RXLOST p.val) = satAdd (s.reg (Reg.ZP_RXLOST p.val)) 1 ∧ t.znodes = s.znodes ∧
        ((t.zport p.val).down = true ↔ z.down = true ∨ 3 ≤ z.badRun + 1) ∧
        (z.down = false → z.badRun = 2 → bit (t.reg (Reg.ZP_STAT p.val)) 11 = true))) ∧
    (∀ t0 hdr loop (ans : List (Nat × NodeAnswer)), z.flight = some t0 → z.offered = none → z.loops.length ≤ 16 → ∃ t,
      let good := hdr.length = 6 ∧ hdr.getD 5 0 = Claims.crc (hdr.take 5)
      exec (.frameReturn p hdr loop ans none) s = .next t ∧ (t.zport p.val).flight = none ∧
      (good → (t.zport p.val).badRun = 0 ∧ (t.zport p.val).down = false) ∧
      (¬ good → (t.zport p.val).badRun = z.badRun + 1 ∧ t.reg (Reg.ZP_RXLOST p.val) = satAdd (s.reg (Reg.ZP_RXLOST p.val)) 1 ∧
        ((t.zport p.val).down = true ↔ z.down = true ∨ 3 ≤ z.badRun + 1) ∧
        t.reg (Reg.NODE_ERR p.val 0) = s.reg (Reg.NODE_ERR p.val 0)) ∧
      t.reg (Reg.ZP_LOOP p.val) = loop ∧
      (let ls := (loop.toNat :: z.loops).take 16;
        (t.zport p.val).loops = ls ∧ t.reg (Reg.ZP_LOOPAVG p.val) = Claims.mod16 (ls.sum / ls.length : Nat)) ∧
      (∀ x : NodeAnswer, ans = [(1, x)] → x.ucrc = Claims.crc [z.frame.getD 1 0, x.u0, x.u1, x.u2, x.u3] → x.u0.toNat / 256 = sent →
        let resp := x.u0.toNat / 16 % 16
        (n.state = .enrolled → resp ≠ 5 → (t.znode p.val 1).state = .enrolled ∧ (t.znode p.val 1).miss = 0 ∧
          (t.znode p.val 1).resp = resp ∧
          (∀ c q, n.queue = c :: q → sent ≠ 0 → c.seq = sent → (t.znode p.val 1).queue = q ∧
            (∀ e, c.entry = some e → resp ≠ 0 → resp ≠ 4 → ∃ w, Msg.dead 0x11 7 (entryWords e ++ w) ∈ t.msgs) ∧
            (c.entry = none → bit (t.reg (Reg.ZP_NSTAT p.val)) 14 = true ∧ bit (t.reg (Reg.ZP_NSTAT p.val)) 15 = false ∧
              (resp = 0 → field (t.reg (Reg.ZP_NSTAT p.val)) 0 3 = 0 ∧ (c.d0 = 0x30 → t.reg (Reg.ZP_NDATA p.val) = x.u1)) ∧
              (resp = 3 → field (t.reg (Reg.ZP_NSTAT p.val)) 0 3 = 3))) ∧
          (sent = 0 → (t.znode p.val 1).queue = n.queue) ∧
          (let mb := s.reg (Reg.ZP_INMB p.val)
            let box := 128 * field mb 10 3 + field mb 0 7;
            bit mb 15 = true → field mb 10 3 ≠ 7 → s.undeliverable 7 (field mb 10 3) = none → Msg.push 7 box
              { data := ⟨Claims.mod16 (0xA000 + 512 * p.val + 8), x.u0, x.u1, x.u2, x.u3, Claims.mod16 z.startUs,
                  Claims.mod16 (z.startUs / 65536), z.frame.getD 1 0⟩, tag := 0, depth := 0, flips := 0 } ∈ t.msgs)) ∧
        (n.state = .enrolled → resp = 5 → (t.znode p.val 1).state = .free ∧ (t.znode p.val 1).queue = []) ∧
        (n.state = .enrolling → resp ≠ 5 → (t.znode p.val 1).state = .enrolled ∧ bit (t.reg (Reg.ZP_STAT p.val)) 14 = true) ∧
        (n.state = .lost → resp ≠ 5 → (t.znode p.val 1).state = .enrolled)) ∧
      (good → ans = [] → n.state = .enrolled →
        let limit := max ((s.reg (Reg.ZP_WDOG p.val)).toNat / 256) 1
        let retry := field (s.reg (Reg.ZP_RETRY p.val)) 0 4
        t.reg (Reg.NODE_ERR p.val 0) = satAdd (s.reg (Reg.NODE_ERR p.val 0)) 1 ∧ Msg.fwEvent 5 (64 * p.val + 1) ∈ t.msgs ∧
        (limit ≤ n.miss + 1 → (t.znode p.val 1).state = .lost ∧ (t.znode p.val 1).queue = [] ∧
          bit (t.reg (Reg.ZP_STAT p.val)) 15 = true) ∧
        (n.miss + 1 < limit → (t.znode p.val 1).state = .enrolled ∧ (t.znode p.val 1).miss = n.miss + 1 ∧
          ∀ c q, n.queue = c :: q → sent ≠ 0 → c.seq = sent →
            (n.tries < retry → (t.znode p.val 1).queue = c :: q ∧ (t.znode p.val 1).tries = n.tries + 1) ∧
            (retry ≤ n.tries → (t.znode p.val 1).queue = q ∧ (t.znode p.val 1).tries = 0 ∧
              ∀ e, c.entry = some e → ∃ w, Msg.dead 0xE 7 (entryWords e ++ w) ∈ t.msgs))))

/-- R303, R310, R313, R315, R316, R325, R326: the mailbox queues one command; RELEASE frees an address; UNFAULT returns a FAULT
address to the state it left; ZP_CFG starts rounds afresh, stops them, or is refused. -/
def Sys2Proof.Claims.ZegenCommands : Prop :=
  ∀ (s : State) (who : Requester) (p : Fin 8), Calm s →
    (∀ v, Reaches s who.val (Reg.ZP_NCMD p.val) → bit v 15 = true →
      let u := s.crossed (Reg.ZP_NCMD p.val)
      let a := field v 0 6
      let n := s.znode p.val a
      let st := s.reg (Reg.ZP_NSTAT p.val)
      let q := if n.seq < 255 then n.seq + 1 else 1
      let ended := fun (r : Nat) => ∃ t, exec (.zpNcmdGo who p v) s = .next t ∧ Claims.OnlyPort u t p.val ∧
        t.znodes = s.znodes ∧ field (t.reg (Reg.ZP_NSTAT p.val)) 0 3 = r ∧ bit (t.reg (Reg.ZP_NSTAT p.val)) 14 = true ∧
        bit (t.reg (Reg.ZP_NSTAT p.val)) 15 = false
      (bit st 15 = true → exec (.zpNcmdGo who p v) s =
        .next (u.setReg (Reg.ZP_NSTAT p.val) (u.reg (Reg.ZP_NSTAT p.val) ||| 0x2000))) ∧
      (bit st 15 = false → n.state ≠ .enrolled → ended 2) ∧
      (bit st 15 = false → n.state = .enrolled → 4 ≤ n.queue.length → ended 4) ∧
      (bit st 15 = false → n.state = .enrolled → n.queue.length < 4 → ∃ t, exec (.zpNcmdGo who p v) s = .next t ∧
        Claims.OnlyPort u t p.val ∧ bit (t.reg (Reg.ZP_NSTAT p.val)) 15 = true ∧ Claims.OtherNodes s t p.val a ∧
        t.znode p.val a = { n with seq := q, queue := n.queue ++ [⟨q, if bit v 14 then 0x20 else 0x30,
          s.reg (Reg.ZP_NADDR p.val), if bit v 14 then s.reg (Reg.ZP_NDATA p.val) else 0, 0, none⟩] })) ∧
    (∀ a : Fin 63, 1 ≤ a.val → Reaches s who.val (Reg.NODE_CTL p.val (a.val - 1)) →
      let u := s.crossed (Reg.NODE_CTL p.val (a.val - 1))
      let n := s.znode p.val a.val
      (∃ t, exec (.nodeCtlRelease who p a) s = .next t ∧ Claims.OnlyPort u t p.val ∧ Claims.OtherNodes s t p.val a.val ∧
        t.znode p.val a.val = { ZNode.reset with seq := n.seq } ∧ Claims.QueueDropped t n.queue ∧
        t.faultWins.getD (0x50000 + 64 * p.val + a.val) FaultWin.reset = FaultWin.reset) ∧
      (n.state ≠ .fault → exec (.nodeCtlUnfault who p a) s = .next u) ∧
      (n.state = .fault → ∃ t, exec (.nodeCtlUnfault who p a) s = .next t ∧ Claims.OnlyPort u t p.val ∧
        Claims.OtherNodes s t p.val a.val ∧ t.regs = u.regs ∧ t.msgs = s.msgs ∧
        t.znode p.val a.val = { n with state := if n.wasLost then .lost else .enrolled } ∧
        t.faultWins.getD (0x50000 + 64 * p.val + a.val) FaultWin.reset = FaultWin.reset)) ∧
    (∀ v, Reaches s who.val (Reg.ZP_CFG p.val) →
      let u := s.crossed (Reg.ZP_CFG p.val)
      let old := s.reg (Reg.ZP_CFG p.val)
      let n := field v 6 6
      let accepted := 1 ≤ n ∧ n ≤ 62 ∧ s.axSrc (field v 2 4) = 2 ∧ (bit old 15 = true → v &&& 0x0FFC = old &&& 0x0FFC) ∧
        (bit v 15 = true → ∀ j, j < 3 → s.padEn (0x20 + 3 * p.val + j) = true)
      (¬ accepted → ∃ t, exec (.zpCfgWrite who p v) s = .next t ∧ Claims.OnlyPort u t p.val ∧ t.zports = s.zports ∧
        t.znodes = s.znodes ∧ bit (t.reg (Reg.ZP_STAT p.val)) 12 = true ∧ t.reg (Reg.ZP_CFG p.val) = old) ∧
      (accepted → bit v 15 = true → bit old 15 = false →
        ∃ t, exec (.zpCfgWrite who p v) s = .next t ∧ Claims.OnlyPort u t p.val ∧ t.reg (Reg.ZP_CFG p.val) = v &&& 0xEFFC ∧
        t.reg (Reg.ZP_LOOPAVG p.val) = 0 ∧
        t.zport p.val = { ZPort.reset with running := true, resetLeft := 4 } ∧
        ∀ a, a < 64 → (t.znode p.val a).state = .free ∧ (t.znode p.val a).queue = []) ∧
      (accepted → bit v 15 = true → bit old 15 = true → exec (.zpCfgWrite who p v) s =
        .next (u.setReg (Reg.ZP_CFG p.val) (v &&& 0xEFFC))) ∧
      (accepted → bit v 15 = false → ∃ t, exec (.zpCfgWrite who p v) s = .next t ∧ Claims.OnlyPort u t p.val ∧
        t.reg (Reg.ZP_CFG p.val) = v &&& 0xEFFC ∧ t.zport p.val = { s.zport p.val with running := false } ∧ t.znodes = s.znodes))

/-- R303 to R317, R320, R321, R324 to R326: the Zegen line. -/
def Obligations.ZegenLine : Prop := Claims.RoundsStart ∧ Claims.FramesReturn ∧ Claims.ZegenCommands

/-! ## Interrupts -/

namespace Sys2Proof.Claims

/-- What events of a source change: its EVCNT, its pending and moderation state, nothing else (R331). -/
def OnlySource (s t : State) (d src : Nat) : Prop :=
  ∃ rg ic, t = { s with regs := rg, icu := ic } ∧ (∀ k, k ≠ icuKey d src 8 → t.reg k = s.reg k) ∧
    ∀ e x, x < 256 → src < 256 → ¬(e = d ∧ x = src) → t.icuSrc e x = s.icuSrc e x
/-- Do MINT and the coalescing limits of a source let `held` events, the first at `first`, go, with PEND last set at `last` (R331)? -/
def moderated (s : State) (d src held first : Nat) (last : Option Nat) : Prop :=
  (∀ l, last = some l → (s.reg (icuKey d src 6)).toNat ≤ s.refUs - l) ∧
    ((s.reg (icuKey d src 7)).toNat / 4096 + 1 ≤ held ∨ (s.reg (icuKey d src 7)).toNat % 4096 ≤ s.refUs - first)
/-- An event of count `k` at a source (R331, R332): `t` after `s`. -/
def Counted (s t : State) (d src k : Nat) : Prop :=
  let e := s.icuSrc d src
  let en := bit (s.reg (icuKey d src 3)) 15
  let held := min (e.held + k) 16
  let first := e.first.getD s.refUs
  let ready := s.inWait (s.icuTarget d src) = true ∨ moderated s d src held first e.last
  OnlySource s t d src ∧ t.reg (icuKey d src 8) = s.reg (icuKey d src 8) + mod16 k ∧
    (en = false ∨ e.pend = true → t.icuSrc d src = e) ∧
    (en = true → e.pend = false → 0 < k → ready → t.icuSrc d src = { pend := true, held := 0, first := none, last := some s.refUs }) ∧
    (en = true → e.pend = false → ¬ready → t.icuSrc d src = { e with held := held, first := some first })
/-- Is it a local event of a die's source? -/
def localFor (d src : Nat) : Msg → Bool
  | .localEv e x _ => e == d && x == src
  | _ => false
/-- Source numbers that exist and are not reserved (R327, R328). -/
def source (d src : Nat) : Prop := (d = 0 ∧ src < 128) ∨ (3 ≤ d ∧ d ≤ 6 ∧ src < 256 ∧ ¬(0x64 ≤ src ∧ src < 0x80))
/-- Does SENSE of the source take an edge: 00b rising, 01b falling, 10b both (R345)? -/
def sense (s : State) (d src : Nat) (edge : Bool) : Prop :=
  let m := (s.reg (icuKey d src 3)).toNat / 4096 % 4
  (m = 0 → edge = true) ∧ (m = 1 → edge = false)
/-- The HOST block sees global event `g`: it is latched in HOST_GEPEND and requests the vector that HOST_GEMAP maps it to (R415). -/
def HostSees (s t : State) (g : Nat) : Prop :=
  let map := s.reg (Reg.HOST_GEMAP g)
  let k := Reg.HOST_GEPEND (g / 16)
  (∃ rg pe, t = { s with regs := rg, pcie := { s.pcie with pend := pe } }) ∧
    t.reg k = s.reg k ||| mod16 ((2 ^ (g % 16) : Nat)) ∧ (∀ j, j ≠ k → t.reg j = s.reg j) ∧
    t.pcie.pend = if bit map 15 && s.linkTrained && !(s.pcie.pend.contains (map.toNat % 64)) then s.pcie.pend ++ [map.toNat % 64]
      else s.pcie.pend
/-- The parcels of a global event: to HUB, and to each sorting die in service (R330). -/
def parcels (s : State) (g n : Nat) (edge : Bool) : List Msg :=
  (([0, 3, 4, 5, 6] : List Nat).filter fun d => d == 0 || s.inService d).map fun d =>
    .globalEv d (if d = 0 then g else 128 + g) n edge
/-- May the parcels of an event of die `d` go out: no sleep entry pauses, and every die they are for can be reached (R262, R371)? -/
def eventsGo (s : State) (d : Nat) : Prop := s.paused = false ∧ ∀ e ∈ ([0, 3, 4, 5, 6] : List Nat),
  e = 0 ∨ s.inService e = true → s.undeliverable d e = none

end Sys2Proof.Claims

/-- R327, R328, R330 to R332, R346: local events, global parcels, ICU_RAISE and LIC_DOORBELL reach their sources and pass moderation; a
GPIO source takes only the edges SENSE selects; held events go once MINT and the coalescing limits allow. -/
def Sys2Proof.Claims.EventsReachSources : Prop :=
  ∀ (s : State) (d : DieId), s.live = true → Calm s →
    (∀ (src : Fin 256) (n : Nat) (u : State), Claims.Arrives s (Claims.localFor d.val src.val) (.localEv d.val src.val n) u →
      Claims.source d.val src.val → (d.val ≠ 0 → src.val < 0x80) → (d.val = 0 → src.val < 0x5A) →
      ∃ t, exec (.localEvent d src) s = .next t ∧ Claims.Counted u t d.val src.val n) ∧
    (∀ src : Fin 256, (∀ m ∈ s.msgs, ∀ n, m ≠ .localEv d.val src.val n) → exec (.localEvent d src) s = .next s) ∧
    (∀ (g : Fin 128) (n : Nat) (edge : Bool) (u : State),
      let src := if d.val = 0 then g.val else 128 + g.val
      Claims.Arrives s (fun m => match m with | .globalEv e x _ _ => e == d.val && x == src | _ => false)
        (.globalEv d.val src n edge) u → Claims.source d.val src →
      let taken := ¬(0x5A ≤ g.val ∧ g.val < 0x7A) ∨ Claims.sense s d.val src edge
      ∃ t v, exec (.globalEventParcel d g) s = .next t ∧ (¬taken → v = u) ∧ (taken → Claims.Counted u v d.val src n) ∧
        (d.val ≠ 0 → t = v) ∧ (d.val = 0 → Claims.HostSees v t g.val)) ∧
    (∀ (who : Requester) (v : Word), Reaches s who.val (Reg.ICU_RAISE d.val) →
      let u := s.crossed (Reg.ICU_RAISE d.val)
      (Claims.source d.val (v.toNat % 256) → ∃ t, exec (.icuRaise who d v) s = .next t ∧ Claims.Counted u t d.val (v.toNat % 256) 1) ∧
      (¬Claims.source d.val (v.toNat % 256) → exec (.icuRaise who d v) s = .next u)) ∧
    (∀ (c : ClerkId) (v : Word), c.val < 128 → (s.clerk c.val).sup = true →
      exec (.licDoorbell c v) s = .next { s with msgs := s.msgs ++ [.localEv (3 + c.val / 32) (v.toNat % 32) 1] }) ∧
    (∀ src : Fin 256, let e := s.icuSrc d.val src.val
      let ready := ∃ f, e.first = some f ∧ Claims.moderated s d.val src.val e.held f e.last
      0 < e.held → e.pend = false → bit (s.reg (icuKey d.val src.val 3)) 15 = true → e.first ≠ none →
        (ready → ∃ t, exec (.moderationRelease d src) s = .next t ∧ Claims.OnlySource s t d.val src.val ∧
          t.icuSrc d.val src.val = { pend := true, held := 0, first := none, last := some s.refUs }) ∧
        (¬ready → exec (.moderationRelease d src) s = .next s))

/-- R59, R161, R332: an event for a clerk in WAIT skips moderation and wakes the clerk, its limiter full. -/
def Sys2Proof.Claims.EventsWake : Prop :=
  ∀ (v s : State) (d : DieId) (src : Fin 256) (n : Nat) (c : ClerkId), v.live = true →
    Claims.Arrives v (Claims.localFor d.val src.val) (.localEv d.val src.val n) s → Claims.source d.val src.val →
    (d.val ≠ 0 → src.val < 0x80) →
    (d.val = 0 → src.val < 0x5A) → s.icuTarget d.val src.val = c.val → bit (s.reg (icuKey d.val src.val 3)) 15 = true →
    (s.icuSrc d.val src.val).pend = false → 0 < n → Claims.WaitsWith s c.val .event (.wait c) 1 →
    ∃ t, exec (.localEvent d src) v = .next t ∧ (t.icuSrc d.val src.val).pend = true ∧
      t.clerk c.val = Claims.resumes { s.clerk c.val with tokens := 320 } ((s.clerk c.val).pc + 1) (fun k => k)

/-- R329, R330, R296, R508: a GPIO edge on an input pin in use raises its event; a block sends one parcel a microsecond for an event,
and what it holds back goes out summed. -/
def Sys2Proof.Claims.GlobalEvents : Prop :=
  ∀ s : State, s.live = true →
    (∀ (i : Fin 32) (level : Bool) (ns : Nat), let g := 0x5A + i.val
      let e := s.globalEvs.getD g GlobalEv.reset
      let out := bit (s.reg (Reg.GP_DIR (i.val / 16))) (i.val % 16)
      (s.padEn i.val = false ∨ s.fe.gpioIn.getLsbD i.val = level ∨ ns < 20 → exec (.gpioEdge i level ns) s = .next s) ∧
      (s.padEn i.val = true → s.fe.gpioIn.getLsbD i.val ≠ level → 20 ≤ ns →
        ∃ t ms, exec (.gpioEdge i level ns) s = .next t ∧
          Claims.Sends { s with fe := { s.fe with gpioIn := t.fe.gpioIn }, globalEvs := t.globalEvs } t ∧ Claims.Keeps s t [] ∧
          t.msgs = s.msgs ++ ms ∧
          (∀ j, j < 32 → t.fe.gpioIn.getLsbD j = if j = i.val then level else s.fe.gpioIn.getLsbD j) ∧
          (out = true → t.globalEvs = s.globalEvs ∧ ms = []) ∧
          (out = false → Claims.eventsGo s 7 → e.held = 0 → e.sentUs ≠ some s.refUs → ms = Claims.parcels s g 1 level ∧
            t.globalEvs.getD g GlobalEv.reset = ⟨some s.refUs, 0, level⟩) ∧
          (out = false → e.held > 0 ∨ e.sentUs = some s.refUs ∨ s.paused = true → ms = [] ∧
            t.globalEvs.getD g GlobalEv.reset = ⟨e.sentUs, min (e.held + 1) 65535, level⟩))) ∧
    ∀ g : Fin 128, let e := s.globalEvs.getD g.val GlobalEv.reset
      (e.held = 0 ∨ e.sentUs = some s.refUs ∨ s.paused = true → exec (.heldBackEventParcel g) s = .next s) ∧
      (0 < e.held → e.sentUs ≠ some s.refUs → Claims.eventsGo s (eventDie g.val) → ∃ t, exec (.heldBackEventParcel g) s = .next t ∧
        Claims.Sends { s with globalEvs := t.globalEvs } t ∧ Claims.Keeps s t [] ∧
        t.msgs = s.msgs ++ Claims.parcels s g.val e.held e.edge ∧
        t.globalEvs.getD g.val GlobalEv.reset = ⟨some s.refUs, 0, e.edge⟩ ∧
        ∀ h, h ≠ g.val → t.globalEvs.getD h GlobalEv.reset = s.globalEvs.getD h GlobalEv.reset)

/-- R343: a write of LIC_ALMH applies the mark with the staged low word; an armed alarm fires once AX15 has reached the mark, raises
ALARM and disarms. -/
def Sys2Proof.Claims.Alarms : Prop :=
  ∀ (s : State) (c : ClerkId), c.val < 128 → s.live = true →
    (∀ v : Word, Calm s → (s.clerk c.val).sup = true →
      let key := ownKey c.val (Reg.LIC_ALML c.val)
      let low := s.stage.getD key (s.reg (Reg.LIC_ALML c.val))
      ∃ t rg st, exec (.licAlmhWrite c v) s = .next t ∧ t = { s with regs := rg, stage := st } ∧
        t.reg (Reg.LIC_ALML c.val) = low ∧ t.reg (Reg.LIC_ALMH c.val) = v ∧
        (∀ k, k ≠ Reg.LIC_ALML c.val → k ≠ Reg.LIC_ALMH c.val → t.reg k = s.reg k) ∧
        (∀ w, t.stage.getD key w = w) ∧ ∀ k w, k ≠ key → k ≠ key + 1 → t.stage.getD k w = s.stage.getD k w) ∧
    (∀ v : Word, Calm s → (s.clerk c.val).sup = false →
      exec (.licAlmhWrite c v) s = .next (s.portViolation c.val true 0x23)) ∧
    let mark := (s.reg (Reg.LIC_ALML c.val)).toNat + 65536 * (s.reg (Reg.LIC_ALMH c.val)).toNat
    let due := (s.refUs + 4294967296 - mark) % 4294967296 < 2147483648
    (bit (s.reg (Reg.LIC_ALMCTL c.val)) 15 = false ∨ ¬due → exec (.alarmFire c) s = .next s) ∧
    (bit (s.reg (Reg.LIC_ALMCTL c.val)) 15 = true → due → ∃ t rg, exec (.alarmFire c) s = .next t ∧
      t = { s with regs := rg, msgs := s.msgs ++ [.localEv (3 + c.val / 32) (0x20 + c.val % 32) 1] } ∧
      t.reg (Reg.LIC_ALMCTL c.val) = s.reg (Reg.LIC_ALMCTL c.val) &&& 0x7FFF ∧
      ∀ k, k ≠ Reg.LIC_ALMCTL c.val → t.reg k = s.reg k)

/-- R296, R327 to R332, R343, R345, R346, R508: events and their sources, moderation, waking a clerk, alarms. -/
def Obligations.Interrupts : Prop := Claims.EventsReachSources ∧ Claims.EventsWake ∧ Claims.GlobalEvents ∧ Claims.Alarms

/-! ## Registers, modes and mailbag moves -/

namespace Sys2Proof.Claims

/-- HUB registers whose 16 bits are all RW, and those with RW bits in a mask (R366, R388, R427, R470, R498). -/
def writable (p : Nat) : Option Word :=
  let wide := [0x4106, 0x4107, 0x4108, 0x4116, 0x4124, 0x4204, 0x4205, 0x420C, 0x4610, 0x4612, 0x4614, 0x4717, 0x700F]
  let masks := [(0x4109, 0x00FF), (0x4125, 0x00FF), (0x4127, 0x00FF), (0x4203, 0x70FF), (0x4206, 0x0FFF), (0x4611, 0x80FF), (0x6905, 0x00FF),
    (0x7004, 0x8000), (0x7080, 0x803F), (0x70FF, 0x803F)]
  if wide.contains p then some 0xFFFF else (masks.find? fun e => e.1 == p).map fun e => e.2
/-- Only registers differ, and of those only `k`. -/
def OnlyReg (s t : State) (k : Nat) : Prop := ∃ rg, t = { s with regs := rg } ∧ ∀ j, j ≠ k → t.reg j = s.reg j
/-- A violation is counted in `k`, with its origin and port, and VIOLEV is set (R431). -/
def Violates (s t : State) (k : Nat) (origin port : Word) : Prop :=
  Sends { s with globalEvs := t.globalEvs } t ∧ t.reg k = satAdd (s.reg k) 1 ∧
    t.reg Reg.CS_PVORIGIN = origin ∧ t.reg Reg.CS_PVPORT = port ∧ t.reg Reg.CS_STAT = s.reg Reg.CS_STAT ||| 0x1000 ∧
    Keeps s t [k, Reg.CS_PVORIGIN, Reg.CS_PVPORT, Reg.CS_STAT]

end Sys2Proof.Claims

/-- R4, R6, R20, R102, R429, R431: a register write changes the RW bits and clears W1C bits; reserved ports and RO bits take nothing; a
lower word is staged and the highest applies the value; a plain write of a CS field, or a sorting clerk's, is a violation. -/
def Obligations.RegisterWrites : Prop :=
  ∀ (s : State) (v : Word), s.live = true → Calm s →
    (∀ who : Requester, isParty who.val = true →
      let w := fun (p : Nat) => exec (.registerWrite who (BitVec.ofNat 16 p) v) s
      (∀ p m, Claims.writable p = some m → w p = .next (s.setReg p ((s.reg p &&& ~~~m) ||| (v &&& m)))) ∧
      (∃ t, w Reg.DEVICE_MODE = .next t ∧ Claims.OnlyReg s t Reg.DEVICE_MODE ∧
        t.reg Reg.DEVICE_MODE = s.reg Reg.DEVICE_MODE &&& ~~~(v &&& 0x8000)) ∧
      (∃ t, w Reg.DEVICE_ID = .next t ∧ Claims.OnlyReg s t Reg.DEVICE_ID ∧ t.reg Reg.DEVICE_ID = s.reg Reg.DEVICE_ID) ∧
      (∀ p, 0x4005 ≤ p → p ≤ 0x40FF → w p = .next s) ∧
      (let key := ownKey who.val Reg.IMG_LENL;
        w Reg.IMG_LENL = .next { s with stage := s.stage.set key v } ∧
        ∃ t rg st, w Reg.IMG_LENH = .next t ∧ t = { s with regs := rg, stage := st } ∧
          t.reg Reg.IMG_LENL = s.stage.getD key (s.reg Reg.IMG_LENL) ∧
          t.reg Reg.IMG_LENH = (s.reg Reg.IMG_LENH &&& 0xFFFE) ||| (v &&& 1) ∧
          (∀ k, k ≠ Reg.IMG_LENL → k ≠ Reg.IMG_LENH → t.reg k = s.reg k) ∧ ∀ d, t.stage.getD key d = d) ∧
      (∀ i, i < 3 → s.reg (Reg.PWR_CVPERM i) ≠ v → ∃ t, w (Reg.PWR_CVPERM i) = .next t ∧
        Claims.Violates s t Reg.CS_CSWCNT (originWord who.val true 0) (Claims.mod16 (Reg.PWR_CVPERM i)) ∧
        t.reg (Reg.PWR_CVPERM i) = s.reg (Reg.PWR_CVPERM i))) ∧
    (∀ (who : Requester) p m, who.val < 128 → s.undeliverable (clerkDie who.val) 0 = none →
        Claims.writable p = some m ∨ p = Reg.DEVICE_MODE_REQ →
      let u := s.passRoute (clerkDie who.val) 0
      ∃ t, exec (.registerWrite who (BitVec.ofNat 16 p) v) s = .next t ∧
        Claims.Violates u t Reg.CS_PVCNT (Claims.mod16 ((clerkDie who.val * 8192 + clerkLocal who.val * 128 + 64 : Nat)))
          (Claims.mod16 p))

namespace Sys2Proof.Claims

/-- Is a mode request judged by the present mode: awake, no transition, no sleep entry (R18)? -/
def mayAsk (s : State) : Prop := s.phase = .awake ∧ bit (s.reg Reg.DEVICE_MODE) 4 = false ∧ s.sleep = none
/-- The dies that follow a change of mode: in service, or further in their bring-up than B1 (R19, R265). -/
def follows (s : State) (d : Nat) : Prop := 1 ≤ d ∧ d < 8 ∧ (s.inService d = true ∨ 2 ≤ (s.die d).phase)
/-- Nothing stands in the fabric. -/
def FabricQuiet (s : State) : Prop := s.routers = [] ∧ ∀ l, (s.link l).ab.sent = [] ∧ (s.link l).ba.sent = []
/-- HUB's mode is `m`: every die that follows must acknowledge, and TRANS reads 1 until the last has (R19, R21). -/
def Changing (s t : State) (m : Nat) : Prop :=
  t.mode = m ∧ bit (t.reg Reg.DEVICE_MODE) 15 = bit (s.reg Reg.DEVICE_MODE) 15 ∧
    (∀ d, follows s d → (t.die d).mode = m ∧ (t.die d).ackPend = true ∧
      (FabricQuiet s → s.routes = [] → s.undeliverableAs true d 0 = none → Msg.modeAck d ∈ t.msgs)) ∧
    (∀ d, ¬follows s d → t.die d = s.die d) ∧
    ((∃ d, follows s d) → bit (t.reg Reg.DEVICE_MODE) 4 = true ∧ t.modeAt = some s.now) ∧
    ((∀ d, ¬follows s d) → bit (t.reg Reg.DEVICE_MODE) 4 = false ∧ t.modeAt = none)
/-- What a change of mode touches. -/
def OnlyMode (s t : State) : Prop :=
  Sends { s with dies := t.dies, globalEvs := t.globalEvs, modeAt := t.modeAt } t ∧
    Keeps s t [Reg.DEVICE_MODE, Reg.DEVICE_MODE_REQ]
/-- A request is refused: it changes nothing and sets REFUSED (R18); the register keeps what was written. -/
def Refused (s : State) (o : Host.Outcome State Fault Refusal) (req : Word) : Prop :=
  o = .next ((s.setReg Reg.DEVICE_MODE_REQ req).setReg Reg.DEVICE_MODE (s.reg Reg.DEVICE_MODE ||| 0x8000))
/-- The transition in progress has ended: TRANS reads 0 (R19). -/
def Ended (t : State) : Prop := bit (t.reg Reg.DEVICE_MODE) 4 = false ∧ t.modeAt = none

end Sys2Proof.Claims

/-- R16, R18, R19, R21, R465, R495: the requests for READY, RUN, SERVICE, REPAIR and sleep, each from its modes, and refused otherwise;
every die acknowledges, and one that does not within 200 µs is declared out. -/
def Sys2Proof.Claims.ModeRequests : Prop :=
  ∀ s : State, s.live = true → Calm s →
    (∀ who : Requester, Reaches s who.val Reg.DEVICE_MODE_REQ →
      let may := Claims.mayAsk s
      (may ∧ (s.mode = 4 ∨ s.mode = 5 ∨ s.mode = 7) → ∃ t, exec (.modeReqReady who) s = .next t ∧ Claims.OnlyMode s t ∧
        Claims.Changing s t 3) ∧
      (¬(may ∧ (s.mode = 4 ∨ s.mode = 5 ∨ s.mode = 7)) → Claims.Refused s (exec (.modeReqReady who) s) 3) ∧
      (may ∧ s.mode = 3 → ∃ t, exec (.modeReqRun who) s = .next t ∧ Claims.OnlyMode s t ∧
        Claims.Changing s t (if (s.reg Reg.DEVICE_DIES).toNat % 256 = 255 then 4 else 5)) ∧
      (¬(may ∧ s.mode = 3) → Claims.Refused s (exec (.modeReqRun who) s) 4) ∧
      (may ∧ (s.mode = 3 ∨ s.mode = 4 ∨ s.mode = 5) → ∃ t u, exec (.modeReqService who) s = .next t ∧ Claims.Changing s t 7 ∧
        Claims.AllSafe s t causeService ∧ t.hsafe = true ∧ Claims.OnlyMode s u ∧ Claims.OnlyFiring u t) ∧
      (¬(may ∧ (s.mode = 3 ∨ s.mode = 4 ∨ s.mode = 5)) → Claims.Refused s (exec (.modeReqService who) s) 7) ∧
      (∀ d : DieId, let ok := may ∧ (s.mode = 4 ∨ s.mode = 5) ∧ d.val ≠ 0
        (ok → ∃ t, exec (.modeReqRepair who d) s = .next t ∧ Claims.Changing s t 6 ∧
          Claims.OnlyMode { s.setReg Reg.IMG_RPSTAT (Claims.mod16 (0x1800 + 256 * d.val)) with repair := t.repair } t ∧
          ∃ r, t.repair = some r ∧ r.fromMode = s.mode ∧ r.at_ = s.now ∧ r.wasOut = !(s.inService d.val) ∧
            r.staged = bit (s.reg Reg.IMG_RPCTL) 14) ∧
        (¬ok → Claims.Refused s (exec (.modeReqRepair who d) s) (Claims.mod16 (256 * d.val + 6)))) ∧
      (∀ (deep : Bool), let ask := if deep then exec (.modeReqSealed who) s else exec (.modeReqDormant who) s
        let target := if deep then 1 else 2
        let ok := may ∧ (s.mode = 3 ∨ s.mode = 4)
        (¬ok → Claims.Refused s ask (if deep then 1 else 2)) ∧
        (ok → s.envelope.state = .idle → ∃ t rg gw r, ask = .next t ∧
          t = { s with regs := rg, sleep := some r, encWake := [], gpioWake := gw } ∧ t.mode = s.mode ∧
          bit (t.reg Reg.DEVICE_MODE) 4 = true ∧ (∀ k, k ≠ Reg.DEVICE_MODE → k ≠ Reg.DEVICE_MODE_REQ → t.reg k = s.reg k) ∧
          (∀ i, i < 32 → gw.getLsbD i = (s.padEn i && !(bit (s.reg (Reg.GP_DIR (i / 16))) (i % 16)))) ∧
          r.target = target ∧ r.step = 1 ∧ r.start = s.now ∧ r.fromMode = s.mode ∧ r.time = s.aonTime ∧ r.dropped = [] ∧
          (let epochs := ∃ c i, c < 130 ∧ i < 4 ∧ (s.clerk c).slotOpen i = true
            let banks := ∃ d b, 3 ≤ d ∧ d < 7 ∧ b < 32 ∧ bit (s.reg (Reg.SS_RETSEL d (b / 16))) (b % 16) = true
            let cams := fun (j : Nat) => bit (s.reg (Reg.CAM_CFG (j / 16) (j % 16))) 15 = true
            (¬epochs → (deep = true → ¬banks) → (∀ j, j < 32 → ¬cams j) → r.stop = none) ∧
            (¬epochs → (deep = true → ¬banks) → ∀ j, j < 32 → cams j → (∀ i, i < j → ¬cams i) →
              r.stop = some (false, 6, j)) ∧
            (∀ c, c < 130 → (∃ i, i < 4 ∧ (s.clerk c).slotOpen i = true) →
              (∀ e i, e < c → i < 4 → (s.clerk e).slotOpen i = false) → r.stop = some (false, 1, c))))))

/-- R18, R19, R329: an acknowledge, the last of which ends the transition with a MODE event; after 200 µs the dies still awaited are
declared out, and a transition toward RUN ends in DEGRADED. -/
def Sys2Proof.Claims.ModeAcknowledges : Prop :=
  ∀ s : State, s.live = true → Calm s →
    (∀ (d : DieId) (u : State),
      Claims.Arrives s (fun m => match m with | .modeAck e => e == d.val | _ => false) (.modeAck d.val) u →
      ∃ t, exec (.modeAcknowledge d) s = .next t ∧
      Claims.OnlyMode u t ∧ t.mode = s.mode ∧ (t.die d.val).ackPend = false ∧
      (∀ e, e ≠ d.val → t.die e = s.die e) ∧
      let more := ∃ e, e < 8 ∧ e ≠ d.val ∧ (s.die e).ackPend = true ∧ s.inService e = true
      (s.modeAt = none ∨ more → t.reg Reg.DEVICE_MODE = s.reg Reg.DEVICE_MODE ∧ t.msgs = u.msgs ∧ t.modeAt = s.modeAt) ∧
      (s.modeAt ≠ none → ¬more → Claims.Ended t)) ∧
    (∀ d : DieId, (∀ m ∈ s.msgs, m ≠ .modeAck d.val) → exec (.modeAcknowledge d) s = .next s) ∧
    (s.modeAt = none → exec .modeAckTimeout s = .next s) ∧
    (∀ t0, s.modeAt = some t0 →
      let late := fun (d : Nat) => 1 ≤ d ∧ d < 8 ∧ (s.die d).ackPend = true ∧ s.inService d = true
      (s.now < t0 + 40000 → exec .modeAckTimeout s = .next s) ∧
      (t0 + 40000 ≤ s.now → (∀ d, ¬late d) → ∃ t, exec .modeAckTimeout s = .next t ∧ Claims.OnlyMode s t ∧ Claims.Ended t ∧
        t.mode = s.mode ∧ t.dies = s.dies) ∧
      (∀ d, t0 + 40000 ≤ s.now → late d → (∀ e, late e → e = d) → s.fallback d true = [] →
        ∃ t, exec .modeAckTimeout s = .next t ∧ Claims.DeclaredOut s t d 2 ∧ Claims.Ended t ∧
          (s.mode = 4 → ∀ e, e ≠ d → Claims.follows s e → (t.die e).mode = 5)))

/-- R463: a MOVE of a list is performed once its source holds no draft and no retained copy, or after IMG_DRAINT: the ordinary sheets
stand ahead of the destination's, and those past its capacity are dead letters. -/
def Sys2Proof.Claims.Moves : Prop :=
  ∀ (s : State) (src dst : Fin 1024) (t0 : Nat) (rest : List (Nat × Nat × Nat)), s.live = true → Claims.NoneWaits s .push →
    src ≠ dst → s.repair = none → (s.bag src.val).spill = [] → (s.bag dst.val).spill = [] →
    let b := s.bag src.val
    let c := s.bag dst.val
    let ordinary := (b.head ++ b.tail).filter fun i => i.tag == 0
    let quiet := b.retained = [] ∧ ∀ i ∈ b.head ++ b.tail, i.tag = 0
    let past := t0 + max 1 (s.reg Reg.IMG_DRAINT).toNat * 200000 ≤ s.now
    let room := 16 + 3 * s.spLen dst.val - (c.head.length + c.tail.length + c.retained.length)
    ((∀ t, (src.val, dst.val, t) ∉ s.moves) → exec (.move src dst) s = .next s) ∧
    (s.moves = (src.val, dst.val, t0) :: rest → ¬quiet → ¬past → exec (.move src dst) s = .next s) ∧
    (s.moves = (src.val, dst.val, t0) :: rest → quiet ∨ past → ∃ t bg rg ms, exec (.move src dst) s = .next t ∧
      t = { s with moves := rest, bags := bg, regs := rg, msgs := s.msgs ++ ms } ∧
      (t.bag dst.val).head ++ (t.bag dst.val).tail = ordinary.take room ++ (c.head ++ c.tail) ∧
      (t.bag src.val).head ++ (t.bag src.val).tail = (b.head ++ b.tail).filter (fun i => i.tag != 0) ∧
      (∀ n, n ≠ src.val → n ≠ dst.val → t.bag n = s.bag n) ∧
      (ordinary.length ≤ room → ms = [] ∧
        ∀ k, k ≠ Reg.MB_HWMARKL dst.val → k ≠ Reg.MB_HWMARKH dst.val → t.reg k = s.reg k) ∧
      (room < ordinary.length → t.reg (Reg.MB_FULLDROP dst.val) = satAdd (s.reg (Reg.MB_FULLDROP dst.val)) (ordinary.length - room) ∧
        ms.length = ordinary.length - room ∧ bit (t.reg (Reg.MB_STAT dst.val)) 14 = true))

/-- R16, R18, R19, R463: mode requests, their acknowledgements and timeout, and the moves of mailbags that a fallback list
calls for. -/
def Obligations.Modes : Prop := Claims.ModeRequests ∧ Claims.ModeAcknowledges ∧ Claims.Moves

/-! ## Power -/

namespace Sys2Proof.Claims

/-- PWR_ON of a domain (R366). -/
def isOn (s : State) (n : Nat) : Bool := bit (s.reg (Reg.PWR_ON (n / 16))) (n % 16)
/-- Nothing but the domain's PWR_ON bit and what the list of parts says differs. -/
def Switched (s t : State) (n : Nat) (on : Bool) : Prop :=
  (∃ rg h cl lc bg ar ic rp zp zn ch mm ge ms rt lk cr, t = { s with
    regs := rg, holdOff := h, clerks := cl, lineCaches := lc, bags := bg, arrivals := ar, icu := ic, replicas := rp, zports := zp,
    znodes := zn, chans := ch, mem := mm, globalEvs := ge, msgs := ms, routers := rt, links := lk, crossings := cr }) ∧
    (∀ m, m < 56 → isOn t m = if m = n then on else isOn s m) ∧
    (∀ k, k ≠ Reg.PWR_ON (n / 16) → ¬fabricReg k → k < crossKey 0 0 0 →
      ¬(on = false ∧ n < 44 ∧ n % 11 = 10 ∧ ∃ src, src < 256 ∧ k = icuKey (3 + n / 11) src 8) → t.reg k = s.reg k) ∧
    ∀ d i, i < 32 → crossDomain d i ≠ some n → t.crossing d i = s.crossing d i
/-- Clerks of a group or PM domain (R349). -/
def inDomain (c n : Nat) : Prop := (c < 128 ∧ n = 11 * (c / 32) + c % 32 / 4) ∨ (128 ≤ c ∧ n = 53)
/-- Voltage of a level in millivolts (R358). -/
def millivolts (l : Nat) : Nat := ([500, 550, 600, 650, 700, 800, 900, 1000] : List Nat).getD l 0
/-- round(V × 2^-EXP) for a negative exponent e − 32 (R362). -/
def voutCommand (s : State) (k l : Nat) : Word :=
  mod16 (((millivolts l * 2 ^ (32 - (s.reg (Reg.PMB_EXP k)).toNat % 32) * 2 + 1000) / 2000 : Nat) : Int)
/-- Rail `k` is the sorting rail `n`, with an exponent from −16 to −1. -/
def railOf (s : State) (n k : Nat) : Prop :=
  k < 8 ∧ (s.reg (Reg.PMB_CFG k)).toNat % 16 = n + 1 ∧ 16 ≤ (s.reg (Reg.PMB_EXP k)).toNat % 32 ∧
    ∀ j, j < 8 → j ≠ k → (s.reg (Reg.PMB_CFG j)).toNat % 16 ≠ n + 1
/-- What level transitions and PMBus commands change. -/
def OnlyLevels (s t : State) : Prop :=
  (∃ rg pr pc po ms ge rt lk, t = { s with
    regs := rg, plRuns := pr, pmbCmd := pc, polled := po, msgs := ms, globalEvs := ge, routers := rt, links := lk }) ∧
    ∀ k, ¬fabricReg k → (k < Reg.PWR_STAT ∨ Reg.PWR_TRANS ≤ k) → t.reg k = s.reg k
/-- Fields of PWR_PL: TRANS, CAP, LEVEL; PENDV is bit 11, PEND bits 10:8 (R366). -/
def plWord (trans : Bool) (pend cap level : Nat) : Word := mod16 ((if trans then 32768 else 0) + 256 * pend + 16 * cap + level)
/-- A transition of rail `n` to `target` has begun: L1 to L3 (R359). -/
def LevelStarts (s t : State) (n k target cap level : Nat) : Prop :=
  OnlyLevels s t ∧ t.plRuns.find? n = some ⟨target, s.now⟩ ∧ t.pmbCmd.find? k = some (0x21, voutCommand s k target) ∧
    t.reg (Reg.PWR_PL n) = plWord true 0 (if target < level then target else cap) level
/-- A transition fails for time (R360). -/
def LevelFails (s t : State) : Prop :=
  OnlyLevels s t ∧ t.reg Reg.PWR_PLFAIL = satAdd (s.reg Reg.PWR_PLFAIL) 1 ∧ bit (t.reg Reg.PWR_STAT) 13 = true

end Sys2Proof.Claims

/-- R351, R355 to R357: a vote turns a domain on or cancels its drop; the last withdrawal begins the hold-off; when that ends with no
vote the domain drops, a group's clerks keeping their state, SHARED the retained banks, ZEGEN nothing. -/
def Sys2Proof.Claims.DomainsSwitch : Prop :=
  ∀ (s : State) (n : Fin 56), s.live = true → Calm s →
    let on := Claims.isOn s n.val
    let held := s.holdOff.find? n.val
    (bit (s.reg (Reg.PWR_HVOTE (n.val / 16))) (n.val % 16) = true ∨ bit (s.reg (Reg.PWR_FORCE (n.val / 16))) (n.val % 16) = true →
      s.kept n.val = true) ∧
    (s.kept n.val = false → exec (.voteRaise n) s = .next s) ∧
    (s.kept n.val = true → on = true → exec (.voteRaise n) s = .next { s with holdOff := s.holdOff.erase n.val }) ∧
    (s.kept n.val = true → on = false → n.val < 44 ∨ 50 ≤ n.val → ∃ t, exec (.voteRaise n) s = .next t ∧
      Claims.Switched s t n.val true ∧ t.mem = s.mem ∧ t.holdOff = s.holdOff ∧ t.bags = s.bags ∧ t.icu = s.icu ∧
      t.lineCaches = s.lineCaches ∧ t.chans = s.chans ∧ t.zports = s.zports ∧ t.msgs = s.msgs ∧
      (∀ c, c < 130 → Claims.inDomain c n.val → t.clerk c = { s.clerk c with
        pred := { Predictor.reset with keys := (s.clerk c).pred.keys }, parked := false }) ∧
      (∀ c, c < 130 → ¬Claims.inDomain c n.val → t.clerk c = s.clerk c)) ∧
    (on = false ∨ s.kept n.val = true ∨ held ≠ none → exec (.voteWithdraw n) s = .next s) ∧
    (on = true → s.kept n.val = false → held = none →
      exec (.voteWithdraw n) s = .next { s with holdOff := s.holdOff.set n.val s.refUs }) ∧
    (held = none ∨ on = false ∨ s.kept n.val = true → exec (.holdoffExpiry n) s = .next s) ∧
    (∀ u, held = some u →
      let due := u + (s.reg Reg.PWR_HOLDOFF).toNat ≤ s.refUs
      (¬due → exec (.holdoffExpiry n) s = .next s) ∧
      (due → on = true → s.kept n.val = false → n.val < 44 ∨ 53 ≤ n.val → ∃ t, exec (.holdoffExpiry n) s = .next t ∧
        Claims.Switched s t n.val false ∧ t.holdOff.find? n.val = none ∧
        (∀ c, c < 130 → Claims.inDomain c n.val → t.clerk c = { s.clerk c with parked := true }) ∧
        (∀ c, c < 130 → ¬Claims.inDomain c n.val → t.clerk c = s.clerk c) ∧
        (n.val = 54 → ∀ i, t.chan i = Chan.reset) ∧ (n.val = 55 → ∀ p, t.zport p = ZPort.reset) ∧
        (n.val ≠ 54 → t.chans = s.chans) ∧ (n.val ≠ 55 → t.zports = s.zports) ∧
        (∀ c, c < 130 → Claims.inDomain c n.val → t.lineCache (groupKey c) = LineCache.reset) ∧
        ((∀ c, c < 130 → ¬Claims.inDomain c n.val) → t.lineCaches = s.lineCaches) ∧
        (∀ d, n.val = 11 * (d - 3) + 10 → 3 ≤ d → ∀ b, bagDie b = d → t.bag b = Bag.reset) ∧
        (∀ d a, n.val = 11 * (d - 3) + 9 → 3 ≤ d → a < 0x200000 → s.mem.wf = true → t.peek (sharedKey d a) =
          if bit (s.reg (Reg.SS_RETSEL d (a / 0x100000))) (a / 0x10000 % 16) then s.peek (sharedKey d a) else 0) ∧
        ((∀ d, n.val ≠ 11 * d + 9) → t.mem = s.mem)) ∧
      (due → on = true → s.kept n.val = false → n.val = 51 ∨ n.val = 52 → ∃ t, exec (.holdoffExpiry n) s = .next t ∧
        Claims.isOn t n.val = false ∧ t.mem = s.mem ∧ t.clerks = s.clerks ∧ t.bags = s.bags ∧ ∀ ch, ch < 4 →
        t.ddrState ch = if ch / 2 = n.val - 51 ∧ s.ddrState ch = 2 then 3 else s.ddrState ch) ∧
      (due → on = true → s.kept n.val = false → n.val = 50 → ∃ t, exec (.holdoffExpiry n) s = .next t ∧
        Claims.isOn t n.val = false ∧ t.mem = s.mem ∧ t.clerks = s.clerks ∧ t.holes = [] ∧ t.pcie.pend = []))

/-- R358 to R361, R366: a level request starts its transition, waits for the one that runs, or is refused; READ_VOUT within PWR_VTOL ends
it with the new cap and level; out of time, raising goes back and lowering completes. -/
def Sys2Proof.Claims.LevelsChange : Prop :=
  ∀ (s : State) (n : Fin 4) (k : Nat), s.live = true → Calm s → Claims.railOf s n.val k →
    (∀ (who : Requester) (v : Word) (cap level : Nat), Reaches s who.val (Reg.PWR_PLREQ n.val) →
      let goal := v.toNat % 8
      let u := s.setReg (Reg.PWR_PLREQ n.val) (v &&& 7)
      let past := (s.reg (Reg.PWR_PLMAX n.val)).toNat % 8 < goal ∨ s.sleep ≠ none
      (past → ∃ t, exec (.pwrPlreqGo who n v) s = .next t ∧ Claims.OnlyLevels u t ∧ t.plRuns = s.plRuns ∧ t.pmbCmd = s.pmbCmd ∧
        t.reg (Reg.PWR_PL n.val) = s.reg (Reg.PWR_PL n.val) ∧ t.reg Reg.PWR_STAT = s.reg Reg.PWR_STAT ||| 0x1000) ∧
      (¬past → bit (s.reg (Reg.PWR_PL n.val)) 15 = true → ∃ t, exec (.pwrPlreqGo who n v) s = .next t ∧
        Claims.OnlyLevels u t ∧ t.msgs = s.msgs ∧ t.plRuns = s.plRuns ∧ t.pmbCmd = s.pmbCmd ∧
        t.reg (Reg.PWR_PL n.val) = (s.reg (Reg.PWR_PL n.val) &&& 0xF0FF) ||| Claims.mod16 (0x800 + 256 * goal)) ∧
      (¬past → cap < 8 → level < 8 → s.reg (Reg.PWR_PL n.val) = Claims.plWord false 0 cap level → ∃ t,
        exec (.pwrPlreqGo who n v) s = .next t ∧ Claims.LevelStarts u t n.val k goal cap level)) ∧
    (∀ (r : PlRun) (cap level : Nat), s.plRuns.find? n.val = some r → cap < 8 → level < 8 → r.target < 8 →
      s.reg (Reg.PWR_PL n.val) = Claims.plWord true 0 cap level →
      (∀ vout : Word, let scale := 2 ^ (32 - (s.reg (Reg.PMB_EXP k)).toNat % 32)
        let tol := max 1 ((s.reg Reg.PWR_VTOL).toNat % 256)
        let near := vout.toNat * 1000 ≤ (Claims.millivolts r.target + tol) * scale ∧
          (Claims.millivolts r.target - tol) * scale ≤ vout.toNat * 1000
        (¬near → exec (.voutInTolerance n vout) s = .next (s.setReg (Reg.PMB_VOUT k) vout)) ∧
        (near → ∃ t, exec (.voutInTolerance n vout) s = .next t ∧ Claims.OnlyLevels s t ∧ t.plRuns.find? n.val = none ∧
          t.pmbCmd = s.pmbCmd ∧ t.reg (Reg.PWR_PL n.val) = Claims.plWord false 0 r.target r.target ∧ t.reg (Reg.PMB_VOUT k) = vout)) ∧
      (∀ failed : Bool, let late := r.start + max 100 (s.reg Reg.PWR_PLTOUT).toNat * 200 ≤ s.now
        (failed = false → ¬late → exec (.pltoutExpiry n failed) s = .next s) ∧
        (failed = true ∨ late → ∃ t, exec (.pltoutExpiry n failed) s = .next t ∧ Claims.LevelFails s t ∧
          t.plRuns.find? n.val = none ∧
          (level < r.target → t.reg (Reg.PWR_PL n.val) = Claims.plWord false 0 cap level ∧
            t.pmbCmd.find? k = some (0x21, Claims.voutCommand s k level)) ∧
          (r.target ≤ level → t.reg (Reg.PWR_PL n.val) = Claims.plWord false 0 r.target r.target) ∧
          (failed = true → t.reg (Reg.PMB_ERR k) = satAdd (s.reg (Reg.PMB_ERR k)) 1 ∧ bit (t.reg Reg.PWR_STAT) 14 = true)))) ∧
    (s.plRuns.find? n.val = none → (∀ vout, exec (.voutInTolerance n vout) s = .next s) ∧
      ∀ failed, exec (.pltoutExpiry n failed) s = .next s)

/-- R362, R363, R366: a rail's poll keeps what it read and reports a fault or a failure; READ polls at once; CLRF sends CLEAR_FAULTS; nothing is sent to an unused rail. A brown-out outside SEALED does nothing, and within it wakes the device (R365). -/
def Sys2Proof.Claims.RailsPolled : Prop :=
  ∀ (s : State) (k : Fin 8) (who : Requester), s.live = true →
    let used := (s.reg (Reg.PMB_CFG k.val)).toNat % 16 ≠ 0
    let due := s.polled.getD k.val 0 + max 1 ((s.reg Reg.PWR_POLL).toNat % 256) * 200000 ≤ s.now
    let sorting := 1 ≤ (s.reg (Reg.PMB_CFG k.val)).toNat % 16 ∧ (s.reg (Reg.PMB_CFG k.val)).toNat % 16 ≤ 4
    let Took := fun (o : Host.Outcome State Fault Refusal) (st v i : Word) => ∃ t, o = .next t ∧ Claims.OnlyLevels s t ∧
      t.polled.find? k.val = some s.now ∧ t.reg (Reg.PMB_STATUS k.val) = st ∧ t.reg (Reg.PMB_VOUT k.val) = v ∧
      t.reg (Reg.PMB_IOUT k.val) = i ∧ t.plRuns = s.plRuns ∧
      (t.reg Reg.PWR_STAT = if st &&& 0xFFFC = 0 then s.reg Reg.PWR_STAT else s.reg Reg.PWR_STAT ||| 0x8000)
    let Failed := fun (o : Host.Outcome State Fault Refusal) => ∃ t, o = .next t ∧ Claims.OnlyLevels s t ∧ t.plRuns = s.plRuns ∧
      t.reg (Reg.PMB_ERR k.val) = satAdd (s.reg (Reg.PMB_ERR k.val)) 1 ∧ t.reg Reg.PWR_STAT = s.reg Reg.PWR_STAT ||| 0x4000
    (¬used ∨ ¬due → ∀ r, exec (.pmbusPoll k r) s = .next s) ∧
    (used → due → (∀ st v i, Took (exec (.pmbusPoll k (.read st v i)) s) st v i) ∧
      (¬sorting → Failed (exec (.pmbusPoll k .failed) s))) ∧
    (Reaches s who.val (Reg.PMB_CTL k.val) →
      (¬used → (∀ r, exec (.pmbCtlRead who k r) s = .next s) ∧ ∀ a, exec (.pmbCtlClrf who k a) s = .next s) ∧
      (used → (∀ st v i, Took (exec (.pmbCtlRead who k (.read st v i)) s) st v i) ∧
        exec (.pmbCtlClrf who k true) s = .next { s with pmbCmd := s.pmbCmd.set k.val (3, 0) } ∧
        (¬sorting → Failed (exec (.pmbCtlRead who k .failed) s) ∧ Failed (exec (.pmbCtlClrf who k false) s)))) ∧
    exec .aonBrownout s = .next s

/-- R349 to R363, R365, R366: power domains, performance levels and the PMBus host. -/
def Obligations.Power : Prop := Claims.DomainsSwitch ∧ Claims.LevelsChange ∧ Claims.RailsPolled

/-! ## Sleep and wake -/

namespace Sys2Proof.Claims

/-- Code bit of a source in SEEN, as a bit of WAKE_RECORD0: 11 SMBUS, 10 TIMER, 9 GPIO, 8 ENCODER, 7 BROWNOUT (R388). -/
def seenMask (src : Nat) : Nat := if src = 6 then 128 else 2 ^ (12 - src)
/-- W1 of a wake by source `src`: the record and mode 3h in transition (R384, R386, R388). -/
def Woken (s t : State) (src detail lp : Nat) : Prop :=
  (∃ rg w mm, t = { s with regs := rg, mem := mm, phase := .waking 1, wake := some w } ∧
    w.fromSealed = (s.phase == .isSealed) ∧ w.source = src) ∧
  t.reg (Reg.WAKE_RECORD 0) = mod16 ((4096 * src + seenMask src + 64 * lp + (if s.phase = .isSealed then 32 else 0) + detail : Nat)) ∧
  (∀ i, i < 3 → t.reg (Reg.WAKE_RECORD (1 + i)) = mod16 ((s.aonTime / 2 ^ (16 * i) : Nat))) ∧
  (∀ i, i < 8 → t.reg (Reg.WAKE_RECORD (4 + i)) = 0) ∧ t.reg Reg.DEVICE_MODE = 0x0013
/-- Wake source `src` is detected (R373, R375, R384, R387): in an entry it is what stops it, unless something came first; in a sleep
mode it wakes; in a wake it sets its SEEN bit; awake it is nothing. -/
def Detected (s : State) (o : Host.Outcome State Fault Refusal) (src detail : Nat) : Prop :=
  let counted := fun (t : State) => t.reg Reg.AON_WAKECNT = satAdd (s.reg Reg.AON_WAKECNT) 1
  (∀ r, s.sleep = some r → ∃ t x, o = .next t ∧ OnlyReg { s with sleep := some { r with stop := x } } t Reg.AON_WAKECNT ∧
    counted t ∧ (∀ y, r.stop = some y → x = some y) ∧ (r.stop = none → ∃ i, x = some (true, 9, i) ∧ i % 16 = src)) ∧
  (s.sleep = none → s.phase = .dormant ∨ s.phase = .isSealed → ∃ t, o = .next t ∧ Woken s t src detail 0 ∧ counted t ∧
    t.mem = s.mem ∧ ∀ k, (k < Reg.WAKE_RECORD 0 ∨ Reg.WAKE_RECORD 11 < k) → k ≠ Reg.AON_WAKECNT → k ≠ Reg.DEVICE_MODE →
      t.reg k = s.reg k) ∧
  (∀ w, s.sleep = none → s.phase ≠ .dormant → s.phase ≠ .isSealed → s.wake = some w → ∃ t rg w', o = .next t ∧
    t = { s with regs := rg, wake := some w' } ∧ counted t ∧
    t.reg (Reg.WAKE_RECORD 0) = s.reg (Reg.WAKE_RECORD 0) ||| mod16 (seenMask src : Nat) ∧
    ∀ k, k ≠ Reg.WAKE_RECORD 0 → k ≠ Reg.AON_WAKECNT → t.reg k = s.reg k) ∧
  (s.sleep = none → s.phase ≠ .dormant → s.phase ≠ .isSealed → s.wake = none → o = .next s)
/-- An entry is over before D7: its record, RESULT, POINT, STEP, CAUSE, KIND and INDEX, and TRANS 0 in the mode it began in (R373, R376,
R388). -/
def EntryOver (s t : State) (r : SleepRun) (result point cause kind index : Nat) : Prop :=
  t.reg (Reg.ENTRY_RECORD 0) = mod16 ((result * 16384 + r.target * 4096 + point * 512 + r.step * 64 + cause : Nat)) ∧
  t.reg (Reg.ENTRY_RECORD 1) = mod16 ((kind * 4096 + index : Nat)) ∧
  t.reg (Reg.ENTRY_RECORD 2) = mod16 (r.time : Nat) ∧ t.reg (Reg.ENTRY_RECORD 3) = mod16 ((r.time / 65536 : Nat)) ∧
  bit (t.reg Reg.AON_STAT) 14 = true ∧ t.sleep = none ∧ t.mode = s.mode ∧ bit (t.reg Reg.DEVICE_MODE) 4 = false
/-- The step in progress is done and the next begins. -/
def NextStep (t : State) (r : SleepRun) (k : Nat) : Prop := ∃ x, t.sleep = some x ∧ x.step = k ∧ x.target = r.target ∧ x.stop = none
/-- Domains that D4 drops: the groups, CODE and SHARED of each sorting die, CXPA, CXPB, FRANK, PM, ZEGEN (R371). -/
abbrev dropped (n : Nat) : Prop := (n < 44 ∧ n % 11 ≠ 10) ∨ (44 ≤ n ∧ n < 50) ∨ n = 53 ∨ n = 55

end Sys2Proof.Claims

/-- R365, R373, R375, R383, R384, R387, R388: each wake source and its enable; what it does in an entry, asleep, in a wake and awake; a
brown-out in SEALED resets the AON block, clears its SRAM and wakes. -/
def Sys2Proof.Claims.WakeSources : Prop :=
  ∀ s : State, Claims.Detected s (exec .wakeSmbus s) 1 0 ∧
    (let on := bit (s.reg Reg.AON_WAKECFG) 14 = true ∧ ((s.aonTime % 4294967296 + 4294967296 - ((s.reg Reg.AON_WTIMEL).toNat +
        65536 * (s.reg Reg.AON_WTIMEH).toNat)) % 4294967296 < 2147483648);
      (on → Claims.Detected s (exec .wakeTimer s) 2 0) ∧ (¬on → exec .wakeTimer s = .next s)) ∧
    (∀ i : Fin 32,
      let on := bit (s.reg Reg.AON_WAKECFG) 13 = true ∧ s.gpioWake.getLsbD i.val = true ∧
        bit (s.reg (if i.val < 16 then Reg.AON_WAKEGPIOL else Reg.AON_WAKEGPIOH)) (i.val % 16) = true
      (on → Claims.Detected s (exec (.wakeGpio i) s) 3 i.val) ∧ (¬on → exec (.wakeGpio i) s = .next s)) ∧
    (∀ e : Fin 12,
      let cfg := s.reg Reg.AON_WAKECFG
      let on := bit cfg 12 = true ∧ bit (s.reg Reg.AON_WAKEENC) e.val = true ∧ max 1 (cfg.toNat % 256) ≤ s.encWake.getD e.val 0
      (on → Claims.Detected s (exec (.wakeEncoder e) s) 4 e.val) ∧ (¬on → exec (.wakeEncoder e) s = .next s)) ∧
    (s.phase = .isSealed → s.mem.wf = true → ∃ t, exec .aonBrownout s = .next t ∧ Claims.Woken s t 6 0 1 ∧
      t.reg Reg.AON_WAKECNT = 1 ∧ t.reg Reg.AON_WAKECFG = 0x8001 ∧ t.reg Reg.AON_D1TOUT = 0x03E8 ∧ t.reg Reg.AON_SRADDR = 0 ∧
      t.reg Reg.AON_SLEEPCNT = 0 ∧ t.aonTime = s.aonTime ∧ t.faultLog = s.faultLog ∧
      (∀ i, i < 4 → t.reg (Reg.ENTRY_RECORD i) = s.reg (Reg.ENTRY_RECORD i)) ∧
      (∀ a, a < 0x8000 → t.peek (aonKey a) = 0) ∧ ∀ k, (k < aonKey 0 ∨ aonKey 0x8000 ≤ k) → t.peek k = s.peek k) ∧
    (s.phase ≠ .isSealed → exec .aonBrownout s = .next s)

/-- R371 to R373, R375, R376, R381, R407: the steps of an entry. Each completes where nothing stops it, D1 once every clerk is parked and no
level changes; a refusal or a wake ends it at D1, at AON_D1TOUT, or at its abort point; D7 ends in the sleep mode. -/
def Sys2Proof.Claims.SleepEntry : Prop :=
  ∀ (s : State) (r : SleepRun), s.sleep = some r → s.phase = .awake → Calm s →
    let go := exec (.sleepStepComplete []) s
    let parked := ∀ c, c < 130 → (s.clerk c).halted = true ∨ Claims.isOn s (clerkDom c) = false
    let calmD1 := s.plRuns = [] ∧ s.envelope.state ≠ .applying
    let epochs := ∃ c i, c < 130 ∧ i < 4 ∧ (s.clerk c).slotOpen i = true
    let banks := ∃ d b, 3 ≤ d ∧ d < 7 ∧ b < 32 ∧ bit (s.reg (Reg.SS_RETSEL d (b / 16))) (b % 16) = true
    let cams := fun (j : Nat) => bit (s.reg (Reg.CAM_CFG (j / 16) (j % 16))) 15 = true
    (r.step = 1 → (∃ c, c < 130 ∧ (s.clerk c).halted = false ∧ s.domOn (clerkDom c) = true ∧ s.dieRuns (clerkDie c) = true) ∨
      ¬calmD1 → go = .next s) ∧
    (r.step = 1 → r.stop = none → parked → calmD1 → ¬epochs → (r.target = 1 → ¬banks) → (∀ j, j < 32 → ¬cams j) →
      go = .next { s with sleep := some { r with step := 2 } }) ∧
    (r.step = 1 → parked → calmD1 → ∀ w k i, r.stop = some (w, k, i) → ∃ t, go = .next t ∧
      Claims.EntryOver s t r 2 0 (if w then 2 else 1) (if w then 9 else k) (if w then i % 16 else i) ∧
      t.reg Reg.AON_REFUSECNT = satAdd (s.reg Reg.AON_REFUSECNT) 1 ∧ t.encWake = []) ∧
    (let late := r.start + max 1 (s.reg Reg.AON_D1TOUT).toNat * 200 ≤ s.now;
      (r.step ≠ 1 ∨ ¬late ∨ s.plRuns ≠ [] ∨ parked → exec .d1Timeout s = .next s) ∧
      (∀ c, r.step = 1 → late → s.plRuns = [] → r.stop = none → c < 130 → s.parkedForSleep c = false →
        (∀ e, e < c → s.parkedForSleep e = true) → ∃ t, exec .d1Timeout s = .next t ∧ Claims.EntryOver s t r 2 0 1 1 c ∧
          t.reg Reg.AON_REFUSECNT = satAdd (s.reg Reg.AON_REFUSECNT) 1)) ∧
    (let busy := fun (p : Nat) => (s.hole p).state = .busy ∨ (s.hole p).state = .releasing;
      let flies := fun (p : Nat) => (s.zport p).flight ≠ none
      let held := s.outbox.count + s.outbox.spCount ≠ 0
      let refused := fun (kind index : Nat) => ∃ t, go = .next t ∧ Claims.EntryOver s t r 3 1 1 kind index ∧
        t.reg Reg.AON_ABORTCNT = satAdd (s.reg Reg.AON_ABORTCNT) 1
      let traffic := s.outbox.pushes ≠ [] ∨ ∃ m ∈ s.msgs, (∃ a b c, m = .push a b c) ∨ (∃ a b, m = .entry a b) ∨
        ∃ a b, m.route = some (a, b) ∧ a ≠ b
      r.step = 2 → r.stop = none → s.bags = [] → s.savedBags = [] →
        (∀ p, p < 64 → busy p → (∀ q, q < p → ¬busy q) → refused 5 p) ∧
        ((∀ p, p < 64 → ¬busy p) → ∀ p, p < 8 → flies p → (∀ q, q < p → ¬flies q) → refused 4 p) ∧
        ((∀ p, p < 64 → ¬busy p) → (∀ p, p < 8 → ¬flies p) → held → refused 7 0) ∧
        ((∀ p, p < 64 → ¬busy p) → (∀ p, p < 8 → ¬flies p) → ¬held → s.arrivals = [] →
          (traffic → go = .next s) ∧ (¬traffic → go = .next { s with sleep := some { r with step := 3 } }))) ∧
    (r.step = 3 → r.stop = none → ∃ t, go = .next t ∧ Claims.NextStep t r 4 ∧ t.mem = s.mem ∧ t.lineCaches = [] ∧ t.bags = s.bags ∧
      (∀ n, n < 56 → Claims.isOn t n = if Claims.dropped n then false else Claims.isOn s n) ∧
      (∀ c, c < 130 → t.clerk c = if Claims.isOn s (clerkDom c) then { s.clerk c with parked := true } else s.clerk c) ∧
      (∀ d b, r.target = 2 → 3 ≤ d → d < 7 → b < 32 → bit (s.reg (Reg.SS_RETSEL d (b / 16))) (b % 16) = true →
        t.bankSigs.find? (32 * (d - 3) + b) = some (crc32c (s.peeks (sharedKey d (65536 * b)) 65536)))) ∧
    (r.step = 4 → r.stop = none → (∀ c, s.groupCalled c = false) → go = .next { s with sleep := some { r with step := 5 } }) ∧
    (r.step = 5 → r.stop = none → ∃ t hf hg hz, go = .next t ∧
      t = { s with sleep := some { r with step := 6 }, padHold := 7, heldFire := hf, heldGpio := hg, heldZl := hz } ∧
      (∀ p, p < 8 → hz.getLsbD p = s.zlDe p) ∧ (∀ i, i < 32 → hg.find? i = some (s.gpioPad i)) ∧
      ∀ n, n < 64 → s.padEn (0x100 + n) = true → field (s.reg (Reg.CH_CFG n)) 9 2 < 2 →
        hf.find? n = some (some (field (s.reg (Reg.CH_CFG n)) 9 2 == 1))) ∧
    (r.step = 6 → r.stop = none → ∃ t, go = .next t ∧ Claims.NextStep t r 7 ∧
      ∀ ch, ch < 4 → t.ddrState ch = if s.ddrState ch = 2 then 3 else s.ddrState ch) ∧
    (∀ (ch : Fin 8), r.step = 6 → r.stop = none → ch.val < 4 → s.ddrState ch.val = 2 → s.bags = [] → s.savedBags = [] →
      ∃ t, exec (.sleepStepComplete [ch]) s = .next t ∧ Claims.EntryOver s t r 3 5 1 8 ch.val ∧ t.padHold = 0) ∧
    (∀ w k i, 2 ≤ r.step → r.step ≤ 5 → r.stop = some (w, k, i) → s.bags = [] → s.savedBags = [] → ∃ t, go = .next t ∧
      Claims.EntryOver s t r 3 (r.step - 1) (if w then 2 else 1) (if w then 9 else k) (if w then i % 16 else i) ∧
      t.reg Reg.AON_ABORTCNT = satAdd (s.reg Reg.AON_ABORTCNT) 1 ∧ t.bankSigs = if 3 ≤ r.step then [] else s.bankSigs) ∧
    (r.step = 7 → r.stop = none → ∃ t, go = .next t ∧ t.sleep = none ∧
      t.phase = (if r.target = 1 then .isSealed else .dormant) ∧ t.clerks = [] ∧ t.msgs = [] ∧ t.savedAon = s.aonTime ∧
      (∀ n, n < 16 → t.savedAxes.getD n 0 = s.axPos n) ∧
      (∀ n, n < 4 → t.savedLevels.getD n 9 = (s.reg (Reg.PWR_PL n)).toNat % 8) ∧
      t.reg Reg.AON_SLEEPCNT = satAdd (s.reg Reg.AON_SLEEPCNT) 1 ∧
      t.reg (Reg.ENTRY_RECORD 0) = Claims.mod16 ((16384 + r.target * 4096 + 448 : Nat)) ∧
      (∀ k, k < 8 → t.pmbCmd.find? k = if 1 ≤ (s.reg (Reg.PMB_CFG k)).toNat % 16 ∧ (s.reg (Reg.PMB_CFG k)).toNat % 16 ≤ 4
        then some (1, 0) else s.pmbCmd.find? k)) ∧
    (∀ i, r.step = 7 → r.stop = some (true, 9, i) → ∃ t w, go = .next t ∧ t.sleep = none ∧ t.phase = .waking 1 ∧ t.wake = some w ∧
      w.source = i % 16 ∧ w.fromSealed = (r.target == 1) ∧ t.clerks = [])

/-- R370, R379, R382, R386, R387: the steps of a wake but for W3 from DORMANT, which configures the dies: the regulator, start-up from
SEALED, the links, retained banks and their signatures, mailbags, and the end in READY. -/
def Sys2Proof.Claims.WakeSteps : Prop :=
  ∀ (s : State) (rails : BitVec 4) (bad : List (Fin 128)), Calm s →
    let go := exec (.wakeStepComplete rails bad) s
    (s.phase = .waking 1 → go = .next { s with phase := .waking 2 }) ∧
    (s.phase = .waking 2 → go = .next { s with phase := .waking 3 }) ∧
    (∀ w, s.phase = .waking 3 → s.wake = some w → w.fromSealed = true → s.strapBoot = 0 → ∃ t, go = .next t ∧
      t.phase = .starting 3 ∧ t.padHold = s.padHold - (s.padHold &&& 4)) ∧
    (s.phase = .waking 4 → s.linking = true → go = .next s) ∧
    (s.phase = .waking 5 → s.bankSigs = [] → ∃ t, go = .next t ∧ t.phase = .waking 6 ∧ t.mem = s.mem ∧
      ∀ ch, ch < 4 → t.ddrState ch ≠ 3) ∧
    (∀ (b : Fin 128) sig, s.phase = .waking 5 → s.bankSigs = [(b.val, sig)] → bad = [b] → ∃ t, go = .next t ∧ t.phase = .waking 6 ∧
      t.bankSigs = [] ∧
      bit (t.reg (Reg.SS_POISON (3 + b.val / 32) (b.val % 32 / 16))) (b.val % 16) = true ∧
      bit (t.reg (Reg.WAKE_RECORD (4 + b.val / 16))) (b.val % 16) = true ∧ Msg.fwEvent 1 b.val ∈ t.msgs) ∧
    (s.phase = .waking 6 → s.savedBags = [] → go = .next { s with phase := .waking 7 }) ∧
    (s.phase = .waking 7 → ∃ t, go = .next t ∧ Claims.Sends { s with phase := .awake, wake := none } t ∧ t.mode = 3 ∧
      bit (t.reg Reg.DEVICE_MODE) 4 = false ∧ bit (t.reg Reg.AON_STAT) 15 = true ∧
      Claims.Keeps s t [Reg.DEVICE_MODE, Reg.AON_STAT])

/-- R381, R382, R388, R536: SYNC latches AON_TIME and AX15 together; a release ends the hold of the banks it names that are held;
AON_SRDATA reads or writes the addressed word and advances the address. -/
def Sys2Proof.Claims.AonCommands : Prop :=
  ∀ (s : State) (who : Requester), Calm s → Reaches s who.val Reg.AON_CTL →
    (∃ t rg, exec (.aonCtlSync who) s = .next t ∧ t = { s with regs := rg } ∧
      (∀ i, i < 3 → t.reg (Reg.AON_SYNCTL + i) = Claims.mod16 ((s.aonTime / 2 ^ (16 * i) : Nat))) ∧
      (∀ i, i < 2 → t.reg (Reg.AON_SYNCAXL + i) = Claims.mod16 ((s.now / 200 % 4294967296 / 2 ^ (16 * i) : Nat))) ∧
      ∀ k, (k < Reg.AON_SYNCTL ∨ Reg.AON_SYNCAXH < k) → t.reg k = s.reg k) ∧
    (∀ v : Word, ∃ t hf hg, exec (.aonPadholdRel who v) s = .next t ∧
      t = { s with padHold := t.padHold, heldFire := hf, heldGpio := hg } ∧
      (∀ i, t.padHold.testBit i = (s.padHold.testBit i && !(decide (i < 3) && bit v i))) ∧
      (hf = if s.padHold.testBit 1 && bit v 1 then [] else s.heldFire) ∧
      (hg = if s.padHold.testBit 0 && bit v 0 then [] else s.heldGpio)) ∧
    (let a := (s.reg Reg.AON_SRADDR).toNat % 32768
      let next := Claims.mod16 (((a + 1) % 32768 : Nat));
      (∀ v, exec (.aonSrdataAccess who (some v)) s = .next ((s.poke (aonKey a) v).setReg Reg.AON_SRADDR next)) ∧
      exec (.aonSrdataAccess who none) s = .next (s.setReg Reg.AON_SRADDR next))
/-! ## Host interface -/

/-- R365, R370 to R388, R407, R536: wake sources, the steps of a sleep entry and of a wake, the AON commands. -/
def Obligations.SleepAndWake : Prop := Claims.WakeSources ∧ Claims.SleepEntry ∧ Claims.WakeSteps ∧ Claims.AonCommands

namespace Sys2Proof.Claims

/-- Only registers differ, and of those only the ones listed. -/
def OnlyRegs (s t : State) (ks : List Nat) : Prop := (∃ rg, t = { s with regs := rg }) ∧ ∀ k, k ∉ ks → t.reg k = s.reg k
/-- A host access is dropped and counted (R411, R414, R418). -/
def BadAccess (s t : State) : Prop :=
  OnlyRegs s t [Reg.HOST_BADACC, Reg.HOST_STAT] ∧ t.reg Reg.HOST_BADACC = satAdd (s.reg Reg.HOST_BADACC) 1 ∧
    t.reg Reg.HOST_STAT = s.reg Reg.HOST_STAT ||| 0x2000
/-- The four bytes of a DWORD, the low one first (R107). -/
def bytes4 (v : BitVec 32) : List (BitVec 8) := [v.setWidth 8, (v >>> 8).setWidth 8, (v >>> 16).setWidth 8, (v >>> 24).setWidth 8]
/-- A completion of Unsupported Request status, or poisoned, with its bytes. -/
def cpl (ur poisoned : Bool) (bytes : List (BitVec 8)) : Option HostCpl := some { ur := ur, poisoned := poisoned, bytes := bytes }
/-- The host as a requester, and the route its accesses are charged to (R412). -/
def host : Requester := 130
def hostRt (s : State) : Nat := field (s.reg Reg.HOST_CFG) 0 8
/-- Byte `b` of DDR5, counted from M: word 0, the low byte of a word first (R107). -/
def ddrAt (s : State) (b : Nat) : BitVec 8 := ((s.peek (ddrKey (b / 2))) >>> (8 * (b % 2))).setWidth 8
/-- First byte in DDR5 that a BAR4 byte offset reaches (R413). -/
def window (s : State) (h : Nat) : Nat := ((s.reg Reg.HOST_W4BASEL).toNat + 65536 * field (s.reg Reg.HOST_W4BASEH) 0 3) * 2 ^ 20 + h
/-- Is a word of DDR5 in a DATA or HOST region (R395, R408)? -/
def hostRegion (s : State) (a : Nat) : Prop :=
  ∃ k, k < 8 ∧ (s.rgnKind k = some 4 ∨ s.rgnKind k = some 5) ∧ s.rgnBase k ≤ a ∧ a < s.rgnBase k + s.rgnLen k
/-- The pigeonhole's vector is requested, where PH_CFG.VECEN asks for it and the link is up (R415, R423, R425). -/
def asks (s : State) (cfg : Word) (en : Nat) : List Nat :=
  let v := field cfg 8 6
  if bit cfg en && s.linkTrained && !(s.pcie.pend.contains v) then s.pcie.pend ++ [v] else s.pcie.pend
/-- A submission is refused (R421). -/
def PhRefused (s t : State) (p : Nat) : Prop :=
  OnlyRegs s t [Reg.HOST_PHREFUSED, Reg.PH_STAT p] ∧ t.reg Reg.HOST_PHREFUSED = satAdd (s.reg Reg.HOST_PHREFUSED) 1 ∧
    t.reg (Reg.PH_STAT p) = s.reg (Reg.PH_STAT p) ||| 0x8000
/-- Only the pigeonhole, its page, registers and pending vectors differ. -/
def OnlyHole (s t : State) (p : Nat) : Prop :=
  (∃ hs rg me pe, t = { s with holes := hs, regs := rg, mem := me, pcie := { s.pcie with pend := pe } }) ∧
    (∀ q, q ≠ p → t.hole q = s.hole q) ∧
    ∀ k, (k < 0x70000000000 + 2048 * p ∨ 0x70000000000 + 2048 * p + 2048 ≤ k) → t.peek k = s.peek k
/-- A command ends with a result: DONE with its vector requested, or FREE where it was RELEASING (R420, R423). -/
def CommandEnds (s t : State) (p result : Nat) : Prop :=
  let h := s.hole p
  (h.state = .releasing → t.hole p = Hole.reset ∧ t.pcie = s.pcie) ∧
    (h.state = .busy → t.hole p = { h with state := .done, lastTag := h.tag, ltValid := true, dup := false, result := result } ∧
      t.pcie.pend = asks s (s.reg (Reg.PH_CFG p)) 14)
/-- The notice sheet of pigeonhole `p` (R422). -/
def notice (s : State) (p : Nat) : Sheet :=
  let q := fun (i : Nat) => s.peek (0x70000000000 + 2048 * p + i)
  ⟨mod16 (0xC300 + p), q 0, q 1, q 2, q 4, q 5, q 6, q 7⟩
/-- State of a transfer channel, and its lengths: 24 bits each (R427). -/
def xfSt (s : State) (c : Nat) : Nat := field (s.reg (Reg.XF_STAT c)) 0 2
def xfLen (s : State) (c : Nat) : Nat := (s.reg (Reg.XF_LENL c)).toNat + 65536 * field (s.reg (Reg.XF_LENH c)) 0 8
def xfDone (s : State) (c : Nat) : Nat := (s.reg (Reg.XF_DONEL c)).toNat + 65536 * (s.reg (Reg.XF_DONEH c)).toNat
def xfFrom (s : State) (c : Nat) : Nat :=
  (s.reg (Reg.XF_SRCL c)).toNat + 65536 * (s.reg (Reg.XF_SRCM c)).toNat + 2 ^ 32 * field (s.reg (Reg.XF_SRCH c)) 0 6
def xfTo (s : State) (c : Nat) : Nat :=
  (s.reg (Reg.XF_DST c 0)).toNat + 65536 * (s.reg (Reg.XF_DST c 1)).toNat + 2 ^ 32 * (s.reg (Reg.XF_DST c 2)).toNat +
    2 ^ 48 * (s.reg (Reg.XF_DST c 3)).toNat
/-- Only the transfer channel's STAT, DONE and COUNT, and the pending vectors, differ. -/
def OnlyXf (s t : State) (c : Nat) : Prop :=
  (∃ rg pe, t = { s with regs := rg, pcie := { s.pcie with pend := pe } }) ∧
    ∀ k, k ∉ [Reg.XF_STAT c, Reg.XF_DONEL c, Reg.XF_DONEH c, Reg.XF_COUNT c] → t.reg k = s.reg k
/-- A channel ends in a state, with its event bit and its cause (R416, R417). -/
def XfEnds (s t : State) (c st ev err : Nat) : Prop :=
  xfSt t c = st ∧ bit (t.reg (Reg.XF_STAT c)) ev = true ∧ field (t.reg (Reg.XF_STAT c)) 8 3 = err ∧
    t.pcie.pend = asks s (s.reg (Reg.XF_CFG c)) 15

/-- The host reaches the BARs: the link is trained and the function is not in D3hot (R409, R410). -/
def barsOpen (s : State) : Prop := s.linkTrained = true ∧ s.pcie.d3 = false
/-- It reaches the pigeonholes: no start-up from the host is loading (R418, R456). -/
def holesReached (s : State) : Prop := barsOpen s ∧ (s.hostBoot = false ∨ s.phase = .awake)
/-- The link in L0, as traffic on it leaves it. -/
def inL0 (s : State) : State := { s with pcie := { s.pcie with l1 := false } }

end Sys2Proof.Claims

/-- R102, R106, R411, R412, R414, R415: a BAR0 TLP writes the MSI-X table, reads it or the pending bits, or makes port accesses of the
HOST, charged to its route; a write without both low byte enables, or poisoned, is dropped. -/
def Sys2Proof.Claims.Bar0Accesses : Prop :=
  ∀ (s0 : State) (dw : Fin 65536) (v : BitVec 32) (be : BitVec 4) (ds : List (BitVec 32 × BitVec 4)), s0.live = true → Calm s0 →
    Claims.barsOpen s0 → s0.hostQ = [] → s0.hostOut = [] →
    let s := Claims.inL0 s0
    let rt := Claims.hostRt s
    let u := s.takeStamp 0 rt 0
    let tlp := fun (ds : List (BitVec 32 × BitVec 4)) => exec (.bar0Tlp dw (.write false ds)) s0
    let get := exec (.bar0Tlp dw (.read 1)) s0
    (∃ t, exec (.bar0Tlp dw (.write true ds)) s0 = .next t ∧
      Claims.BadAccess { s with pcie := { s.pcie with poisoned := true } } t) ∧
    (dw.val < 0x4000 → ∃ t, tlp [(v, be)] = .next t ∧ (∃ tb, t = { s with pcie := { s.pcie with tab := tb } }) ∧
      ∀ j i, i < 32 → (t.pcie.tabWord j).getLsbD i =
        if j = dw.val ∧ j < 256 ∧ be.getLsbD (i / 8) = true then v.getLsbD i else (s.pcie.tabWord j).getLsbD i) ∧
    (dw.val < 0x4000 → ∃ w, get = .next { s with hostCpl := Claims.cpl false false (Claims.bytes4 w) } ∧
      (dw.val < 256 → w = s.pcie.tabWord dw.val) ∧
      ((dw.val = 0x200 ∨ dw.val = 0x201) → (∀ x ∈ s.pcie.pend, x < 64) → s.pcie.pend.Nodup →
        ∀ i, i < 32 → (w.getLsbD i = true ↔ 32 * (dw.val - 0x200) + i ∈ s.pcie.pend)) ∧
      (256 ≤ dw.val → dw.val ≠ 0x200 → dw.val ≠ 0x201 → w = 0)) ∧
    (0x4000 ≤ dw.val →
      ((be.getLsbD 0 && be.getLsbD 1) = false → ∃ t, tlp [(v, be)] = .next t ∧ Claims.BadAccess s t) ∧
      ((be.getLsbD 0 && be.getLsbD 1) = true → s.hasStamp 0 rt 0 = true → ∃ t, tlp [(v, be)] = .next t ∧
        exec (.registerWrite Claims.host (Claims.mod16 dw.val) (v.setWidth 16)) u = .next t) ∧
      (s.hasStamp 0 rt 0 = false → ds ≠ [] → (∀ e ∈ ds, e.2 = 15) → tlp ds =
        .next (({ s with hostQ := (List.range ds.length).map fun i => .portWrite (dw.val + i) ((ds.getD i (0, 0)).1.setWidth 16)
          } : State).noteWait rt 0)) ∧
      (s.hasStamp 0 rt 0 = false → get =
        .next (({ s with hostQ := [.portRead dw.val, .complete] } : State).noteWait rt 0)) ∧
      (s.hasStamp 0 rt 0 = true → (∃ m, Claims.writable dw.val = some m ∧ s.reg dw.val &&& ~~~m = 0) → get =
        .next { u with hostCpl := Claims.cpl false false (Claims.bytes4 ((s.reg dw.val).setWidth 32)) }) ∧
      (s.hasStamp 0 rt 0 = true → portDie dw.val ≠ 0 → s.portFault 0 dw.val = none → s.undeliverable (portDie dw.val) 0 = none →
        ∃ t v, get = .next t ∧ t.hostOut = [.await (portDie dw.val), .last] ∧
          Msg.portReply 130 (portDie dw.val) [v] false ∈ t.msgs ∧ (dw.val = Reg.OB_SPLEN →
            v = s.reg Reg.OB_SPLEN ∧ Claims.Sends { u with hostOut := t.hostOut } t ∧ Claims.Keeps u t [])) ∧
      (s.hasStamp 0 rt 0 = true → (∃ e, s.portFault 0 dw.val = some e) → ∃ t, get = .next t ∧ t.hostOut = [] ∧
        t.hostCpl = some { ur := false, poisoned := false, bytes := [0, 0, 0, 0] } ∧
        t.reg Reg.HOST_PORTERR = satAdd (s.reg Reg.HOST_PORTERR) 1))

/-- R251, R263, R409, R411, R412: a reply answers the read that awaits it, which completes with its DWORD, or with zeros, counted, where it
carries ERR. In D3hot a write is lost and a read completes as an Unsupported Request (log 21). -/
def Sys2Proof.Claims.HostReplies : Prop :=
  ∀ s : State, s.live = true → Calm s →
    (∀ (d : DieId) (v : Word) (bad err : Bool) (u : State), Claims.Arrives s (Claims.replyTo 130) (.portReply 130 d.val [v] bad) u →
      s.hostOut = [.await d.val, .last] → ∃ t, exec (.globalPortReadReply Claims.host err) s = .next t ∧ t.hostOut = [] ∧
        Claims.OnlyRegs { u with hostOut := [], hostCpl := t.hostCpl } t [Reg.HOST_PORTERR] ∧
        t.hostCpl = Claims.cpl false false (Claims.bytes4 (if bad || err then 0 else v.setWidth 32)) ∧
        t.reg Reg.HOST_PORTERR = if bad || err then satAdd (u.reg Reg.HOST_PORTERR) 1 else u.reg Reg.HOST_PORTERR) ∧
    (s.linkTrained = true → s.pcie.d3 = true →
      let u := Claims.inL0 s
      let refused : State := { u with hostCpl := Claims.cpl true false [] }
      (∀ (dw : Fin 65536) (p : Bool) ds n, exec (.bar0Tlp dw (.write p ds)) s = .next u ∧
        exec (.bar0Tlp dw (.read n)) s = .next refused) ∧
      (∀ (h : Fin 0x40000000) bs n, exec (.bar4Tlp h (.write bs)) s = .next u ∧ exec (.bar4Tlp h (.read n)) s = .next refused) ∧
      (∀ (w : Fin 131072) ws, exec (.bar2Write w ws) s = .next u) ∧
      (∀ p, exec (.phSubmit p) s = .next u ∧ exec (.phCollect p) s = .next u)) ∧
    (s.linkTrained = false → (∀ (dw : Fin 65536) op, exec (.bar0Tlp dw op) s = .next s) ∧
      (∀ (h : Fin 0x40000000) op, exec (.bar4Tlp h op) s = .next s) ∧ (∀ (w : Fin 131072) ws, exec (.bar2Write w ws) s = .next s) ∧
      (∀ p, exec (.phSubmit p) s = .next s ∧ exec (.phCollect p) s = .next s))

/-- R395, R400, R413, R414, R418, R456: a BAR4 access within one burst reads or writes DDR5 under the write rule of the regions; a BAR2
write stores words of request areas that are not BUSY, or the pieces of a host load. -/
def Sys2Proof.Claims.Bar4AndBar2 : Prop :=
  ∀ s0 : State, s0.live = true → Calm s0 → Claims.barsOpen s0 → s0.hostQ = [] → s0.hostOut = [] →
    let s := Claims.inL0 s0
    (∀ (h : Fin 0x40000000) (n : Nat) (bs : List (BitVec 8 × Bool)),
      let b := Claims.window s h.val
      let rt := Claims.hostRt s
      let u := s.takeStamp 0 rt 1
      let get := exec (.bar4Tlp h (.read n)) s0
      let put := exec (.bar4Tlp h (.write bs)) s0
      let ch := (s.ddrLocal (b / 2)).1
      let served := Claims.isOn s (51 + ch / 2) = true
      let inside := fun (n : Nat) => bit (s.reg Reg.HOST_W4CFG) 15 = true ∧ b + n ≤ 2 * s.ddrCap
      let within := fun (n : Nat) => 0 < n ∧ b % 64 + n ≤ 64
      let stamp := s.hasStamp 0 rt 1 = true
      (¬inside n → ∃ t, get = .next { t with hostCpl := Claims.cpl true false ([]) } ∧ Claims.BadAccess s t) ∧
      (¬inside bs.length → ∃ t, put = .next t ∧ Claims.BadAccess s t) ∧
      (inside n → within n → stamp → (b / 64) ∉ s.ddrBad → ∃ t, get = .next t ∧
        t.hostCpl = Claims.cpl false false ((List.range n).map fun i => Claims.ddrAt s (b + i)) ∧ t.mem = s.mem ∧
        Claims.isOn t (51 + ch / 2) = true ∧ (served → t = { u with hostCpl := t.hostCpl })) ∧
      (inside n → within n → stamp → (b / 64) ∈ s.ddrBad → ∃ t, get = .next t ∧ t.hostCpl = Claims.cpl false true (List.replicate n 0) ∧
        t.mem = s.mem ∧ t.ddrBad = s.ddrBad ∧ t.hostOut = [] ∧ Claims.isOn t (51 + ch / 2) = true ∧
        t.reg Reg.HOST_UE = satAdd (u.reg Reg.HOST_UE) 1 ∧ t.reg Reg.HOST_STAT = u.reg Reg.HOST_STAT ||| 0x1000 ∧
        t.reg (Reg.DDR_UE ch) = satAdd (u.reg (Reg.DDR_UE ch)) 1) ∧
      (inside n → within n → ¬stamp → get = .next (({ s with hostQ := [.burstRead b n, .complete] } : State).noteWait rt 1)) ∧
      (inside bs.length → within bs.length → stamp → ∃ t rg me bad ms ge rw fw rt lk, put = .next t ∧
        t = { u with regs := rg, mem := me, ddrBad := bad, msgs := ms, globalEvs := ge, ddrRows := rw, faultWins := fw, routers := rt,
                     links := lk } ∧
        let on := fun (i : Nat) => (bs.getD i (0, false)).2 = true ∧ i < bs.length
        let may := ∀ i, on i → Claims.hostRegion s ((b + i) / 2)
        let full := bs.length = 64 ∧ ∀ i, i < 64 → on i
        let lost := (b / 64) ∈ s.ddrBad ∧ ¬full ∧ ∃ i, on i ∧ Claims.hostRegion s ((b + i) / 2)
        (∀ k, k < ddrKey (b / 2) ∨ ddrKey (b / 2) + 32 < k → t.peek k = s.peek k) ∧
        (∀ a, (∀ i, on i → b + i = a → ¬Claims.hostRegion s ((b + i) / 2)) ∨ lost → Claims.ddrAt t a = Claims.ddrAt s a) ∧
        (¬lost → ∀ i, on i → Claims.hostRegion s ((b + i) / 2) → Claims.ddrAt t (b + i) = (bs.getD i (0, false)).1) ∧
        (may → t.reg Reg.DDR_PROTDROP = u.reg Reg.DDR_PROTDROP) ∧
        (¬may → t.reg Reg.DDR_PROTDROP = satAdd (u.reg Reg.DDR_PROTDROP) 1 ∧ bit (t.reg Reg.DDR_STAT) 15 = true) ∧
        (served → may → ¬lost → t.regs = u.regs ∧ t.msgs = s.msgs ∧ t.globalEvs = s.globalEvs) ∧
        (lost → t.reg (Reg.DDR_RMWDROP ch) = satAdd (u.reg (Reg.DDR_RMWDROP ch)) 1) ∧
        (may → full → ∀ x, x ∈ bad ↔ (x ∈ s.ddrBad ∧ x ≠ b / 64)) ∧ (¬full → bad = s.ddrBad))) ∧
    (∀ (w : Fin 131072) (ws : List Word), s.phase = .awake → w.val + ws.length ≤ 131072 →
      (∀ i, i + 1 < ws.length → (w.val + i) % 2048 = 1016 ∨ (w.val + i) % 2048 = 1018 → bit (ws.getD i 0) 0 = false) →
      let cell := fun (i : Nat) => 0x70000000000 + w.val + i
      let hole := fun (i : Nat) => (s.hole ((w.val + i) / 2048)).state
      let takes := fun (i : Nat) => (w.val + i) % 2048 < 1016 ∧ hole i ≠ .busy
      let bad := fun (i : Nat) => 1024 ≤ (w.val + i) % 2048 ∨ ((w.val + i) % 2048 < 1016 ∧ hole i = .busy)
      ∃ t u me, exec (.bar2Write w ws) s0 = .next t ∧ u = { s with mem := me } ∧
        (∀ i, i < ws.length → takes i → u.peek (cell i) = ws.getD i 0) ∧
        (∀ k, (∀ i, i < ws.length → takes i → k ≠ cell i) → u.peek k = s.peek k) ∧
        ((∀ i, i < ws.length → ¬bad i) → t = u) ∧ ((∃ i, i < ws.length ∧ bad i) → Claims.BadAccess u t)) ∧
    (∀ (p : Fin 64) (lo hi : Word), s.phase = .awake → bit lo 0 = true →
      (∀ w : Fin 131072, w.val = 2048 * p.val + 1016 → exec (.bar2Write w [lo, hi]) s0 = exec (.phSubmit p) s0) ∧
      (∀ w : Fin 131072, w.val = 2048 * p.val + 1018 → exec (.bar2Write w [lo, hi]) s0 = exec (.phCollect p) s0)) ∧
    (∀ (w : Fin 131072) (ws : List Word), s.hostBoot = true → s.phase ≠ .awake → w.val + ws.length ≤ 131072 →
      (s.loadReady = false → exec (.bar2Write w ws) s0 = .next s) ∧
      (s.loadReady = true → ∃ t me, exec (.bar2Write w ws) s0 = .next t ∧ t = { s with mem := me } ∧
        ∀ k, t.peek k = if 0x70000000000 + w.val ≤ k ∧ k < 0x70000000000 + w.val + ws.length then
          ws.getD (k - (0x70000000000 + w.val)) 0 else s.peek k))

/-- R102, R106, R251, R395, R400, R409, R411 to R415, R418, R456: BAR0, BAR4 and BAR2 accesses of the host, and the replies to
its reads. -/
def Obligations.HostWindows : Prop := Claims.Bar0Accesses ∧ Claims.HostReplies ∧ Claims.Bar4AndBar2

/-- R419 to R424, R427, R429: submissions, judged against the tag; collection; ownership by KEY and FORCEREL; SDONE and the timeout, of
which the first completes the command; a server's access to its selected sheet; the doorbell. -/
def Sys2Proof.Claims.Pigeonholes : Prop :=
  ∀ (s : State) (p : Fin 64), s.live = true → Calm s →
    let h := s.hole p.val
    let page := 0x70000000000 + 2048 * p.val
    let tag := s.peek page
    let st := Reg.PH_STAT p.val
    let l := Claims.inL0 s
    (Claims.holesReached s → s.hostQ = [] →
      let put := exec (.phSubmit p) s
      let again := h.ltValid = true ∧ tag = h.lastTag
      ((h.state = .free ∨ h.state = .releasing ∨ (h.state = .busy ∧ tag ≠ h.tag) ∨ (h.state = .done ∧ ¬again)) →
        ∃ t, put = .next t ∧ Claims.PhRefused l t p.val) ∧
      (h.state = .busy → tag = h.tag → ∃ t, put = .next t ∧ Claims.OnlyReg l t Reg.HOST_PHDUP ∧
        t.reg Reg.HOST_PHDUP = satAdd (s.reg Reg.HOST_PHDUP) 1) ∧
      (h.state = .idle ∨ h.state = .done → again → ∃ t, put = .next t ∧ Claims.OnlyHole l t p.val ∧ t.mem = s.mem ∧
        t.hole p.val = { h with state := .done, dup := true } ∧ t.pcie.pend = Claims.asks s (s.reg (Reg.PH_CFG p.val)) 14 ∧
        t.reg Reg.HOST_PHDUP = satAdd (s.reg Reg.HOST_PHDUP) 1 ∧ t.reg st = s.reg st ||| 0x4000 ∧
        ∀ k, k ≠ st → k ≠ Reg.HOST_PHDUP → t.reg k = s.reg k) ∧
      (h.state = .idle → ¬again → ∃ a, Claims.OnlyHole l a p.val ∧ a.regs = s.regs ∧ a.pcie = l.pcie ∧
        a.hole p.val = { h with state := .busy, tag := tag, start := s.now, dup := false } ∧
        (∀ i, i < 2048 → a.peek (page + i) = if i < 1024 then s.peek (page + i) else 0) ∧
        let rt := Claims.hostRt s
        let box := Claims.bagOf (s.reg (Reg.PH_MB p.val))
        (s.hasStamp 0 rt 0 = false → put = .next (({ a with hostQ := [.notice box (Claims.notice s p.val)] } : State).noteWait rt 0)) ∧
        (s.hasStamp 0 rt 0 = true → isSort (bagDie box) = true → s.undeliverable 0 (bagDie box) = none → ∃ t, put = .next t ∧
          Claims.Sends (a.takeStamp 0 rt 0) t ∧ Claims.Keeps (a.takeStamp 0 rt 0) t [] ∧
          Msg.push 0 box { data := Claims.notice s p.val, tag := 0, depth := 0, flips := 0 } ∈ t.msgs) ∧
        (s.hasStamp 0 rt 0 = true → box < 128 → ∃ t, put = .next t ∧ t.hole p.val = a.hole p.val ∧
          ((s.bag box).head = [] → (s.bag box).tail = [] → (s.bag box).retained = [] → (s.bag box).spill = [] → bit (s.reg (Reg.MB_CFG box)) 15 = true →
            (t.bag box).head ++ (t.bag box).tail = [{ data := Claims.notice s p.val, tag := 0, depth := 0, flips := 0 }])))) ∧
    (Claims.holesReached s → (h.state = .done → ∃ t, exec (.phCollect p) s = .next t ∧ Claims.OnlyHole l t p.val ∧ t.regs = s.regs ∧
        t.mem = s.mem ∧ t.pcie = l.pcie ∧ t.hole p.val = { h with state := .idle }) ∧
      (h.state ≠ .done → exec (.phCollect p) s = .next l)) ∧
    (∀ (who : Requester) (v : Word), isParty who.val = true →
      let key := v.toNat % 32768
      let put := exec (.phOwnerWrite who p v) s
      let claim := bit v 15 = false ∧ key ≠ 0 ∧ h.state = .free ∧ bit (s.reg (Reg.PH_CFG p.val)) 15 = true
      let force := exec (.hostCtlForcerel who p) s
      let frees := fun (t : State) => Claims.OnlyHole s t p.val ∧ t.regs = s.regs ∧ t.mem = s.mem ∧ t.pcie = s.pcie ∧
        (h.state = .idle ∨ h.state = .done → t.hole p.val = Hole.reset) ∧
        (h.state = .busy → t.hole p.val = { h with state := .releasing }) ∧
        (h.state = .free ∨ h.state = .releasing → t.hole p.val = h)
      (claim → ∃ t, put = .next t ∧ Claims.OnlyHole s t p.val ∧ t.regs = s.regs ∧ t.mem = s.mem ∧ t.pcie = s.pcie ∧
        t.hole p.val = { Hole.reset with state := .idle, key := key }) ∧
      (bit v 15 = true → h.key = key → h.state ≠ .free → ∃ t, put = .next t ∧ frees t) ∧
      (¬claim → ¬(bit v 15 = true ∧ h.key = key ∧ h.state ≠ .free) → put = .next s) ∧
      (∃ t, force = .next t ∧ frees t) ∧
      (∃ t, exec (.hostDoorbell who v) s = .next t ∧ t = (s.setReg Reg.HOST_DOORBELL v).raiseGlobal 0x7F) ∧
      (∀ n : Word, n.toNat % 64 = p.val → let low := s.stage.getD (ownKey who.val Reg.HOST_SDONEL) 0
        let done := (h.state = .busy ∨ h.state = .releasing) ∧ low = h.tag ∧ n.toNat / 256 < 0xF0
        ∃ t, exec (.hostSdonehWrite who n) s = .next t ∧ (∀ d, t.stage.getD (ownKey who.val Reg.HOST_SDONEL) d = d) ∧
          let u : State := { s with stage := t.stage }
          (done → Claims.OnlyHole u t p.val ∧ t.regs = s.regs ∧ t.mem = s.mem ∧ Claims.CommandEnds s t p.val (n.toNat / 256)) ∧
          (¬done → Claims.OnlyReg u t Reg.HOST_PHSDROP ∧ t.reg Reg.HOST_PHSDROP = satAdd (s.reg Reg.HOST_PHSDROP) 1)) ∧
      (∀ (k : Fin 8) (x : Word), let own := ownKey who.val Reg.HOST_SSEL
        let sel := s.sels.getD own 0
        let w := 8 * (sel.toNat % 256) + k.val
        field sel 8 6 = p.val → who.val < 130 → (s.clerk who.val).ep = false →
        let moved := fun (t : State) => (k.val < 7 → t.sels = s.sels) ∧
          (k.val = 7 → t.sels = s.sels.set own ((sel &&& 0xFF00) ||| Claims.mod16 ((sel.toNat % 256 + 1) % 256 : Nat)))
        (∃ t, exec (.hostSdataAccess who k none) s = .next t ∧ (∃ se, t = { s with sels := se }) ∧ moved t) ∧
        (∃ t, exec (.hostSdataAccess who k (some x)) s = .next t ∧ (∃ se me, t = { s with sels := se, mem := me }) ∧ moved t ∧
          ∀ j, t.peek j = if j = page + w ∧ 1026 ≤ w ∧ (h.state = .busy ∨ h.state = .releasing) then x else s.peek j))) ∧
    (let limit := (s.reg Reg.HOST_PHTOUT).toNat
      let past := (h.state = .busy ∨ h.state = .releasing) ∧ 0 < limit ∧ h.start + limit * 200000 ≤ s.now
      (¬past → exec (.phTimeout p) s = .next s) ∧
      (past → ∃ t, exec (.phTimeout p) s = .next t ∧ Claims.OnlyHole s t p.val ∧ Claims.CommandEnds s t p.val 0xF0 ∧
        t.reg Reg.HOST_PHTOUTCNT = satAdd (s.reg Reg.HOST_PHTOUTCNT) 1 ∧ t.reg st = s.reg st ||| 0x2000 ∧
        (∀ i, t.peek (page + i) = if i = 1026 then 0 else s.peek (page + i)) ∧
        ∀ k, k ≠ st → k ≠ Reg.HOST_PHTOUTCNT → t.reg k = s.reg k))

/-- R415 to R417, R425, R427: GO and ABORT; a running channel sends its next TLP, at most Max_Payload_Size and within 4 KiB, and ends
in DONE; a pending unmasked vector sends one message; PERST_N, the configuration space and the link. -/
def Sys2Proof.Claims.TransfersAndLink : Prop :=
  ∀ s : State, s.live = true →
    (∀ (who : Requester) (c : Fin 32), Calm s → isParty who.val = true →
      let go := exec (.xfCtlGo who c) s
      let run := Claims.xfSt s c.val = 1
      let src := Claims.xfFrom s c.val
      let len := Claims.xfLen s c.val
      let badSrc := src % 32 ≠ 0 ∨ s.ddrCap < src + 32 * len
      let badDst := Claims.xfTo s c.val % 64 ≠ 0
      let fresh := fun (t : State) => Claims.OnlyXf s t c.val ∧ Claims.xfDone t c.val = 0
      (run → ∃ t, go = .next t ∧ Claims.OnlyReg s t (Reg.XF_STAT c.val) ∧
        t.reg (Reg.XF_STAT c.val) = s.reg (Reg.XF_STAT c.val) ||| 0x2000) ∧
      (¬run → len = 0 → ∃ t, go = .next t ∧ fresh t ∧ Claims.XfEnds s t c.val 2 15 0 ∧
        t.reg (Reg.XF_COUNT c.val) = s.reg (Reg.XF_COUNT c.val) + 1) ∧
      (¬run → len ≠ 0 → badSrc → ∃ t, go = .next t ∧ fresh t ∧ Claims.XfEnds s t c.val 3 14 1 ∧
        t.reg (Reg.XF_COUNT c.val) = s.reg (Reg.XF_COUNT c.val)) ∧
      (¬run → len ≠ 0 → ¬badSrc → badDst → ∃ t, go = .next t ∧ fresh t ∧ Claims.XfEnds s t c.val 3 14 2) ∧
      (¬run → len ≠ 0 → ¬badSrc → ¬badDst → s.pcie.bme = false → ∃ t, go = .next t ∧ fresh t ∧ Claims.XfEnds s t c.val 3 14 4) ∧
      (¬run → len ≠ 0 → ¬badSrc → ¬badDst → s.pcie.bme = true → ∃ t, go = .next t ∧ fresh t ∧ Claims.xfSt t c.val = 1 ∧
        t.pcie = s.pcie ∧ t.reg (Reg.XF_COUNT c.val) = s.reg (Reg.XF_COUNT c.val)) ∧
      (run → ∃ t, exec (.xfCtlAbort who c) s = .next t ∧ Claims.OnlyXf s t c.val ∧ Claims.XfEnds s t c.val 3 14 6 ∧
        Claims.xfDone t c.val = Claims.xfDone s c.val) ∧
      (¬run → exec (.xfCtlAbort who c) s = .next s)) ∧
    ((∀ c, c < 32 → Claims.xfSt s c ≠ 1) ∨ s.linkTrained = false → exec .xfTlpSent s = .next s) ∧
    (∀ c, c < 32 → Claims.xfSt s c = 1 → (∀ e, e < 32 → Claims.xfSt s e = 1 → (e + 31 - s.pcie.xfLast) % 32 < (c + 31 - s.pcie.xfLast) % 32 → e = c) →
      s.pcie.xfLast < 32 → s.linkTrained = true → Claims.isOn s 51 = true → Claims.isOn s 52 = true → let rt := field (s.reg (Reg.XF_CFG c)) 0 8
      let n := Claims.xfDone s c
      let len := Claims.xfLen s c
      let dst := Claims.xfTo s c + 64 * n
      let size := min (min (len - n) (if s.pcie.mps256 then 4 else 2)) ((4096 - dst % 4096) / 64)
      let src := Claims.xfFrom s c + 32 * n
      bit (s.reg (routeKey rt 3)) 15 = false → n < len → Claims.xfTo s c % 64 = 0 → Claims.xfFrom s c % 32 = 0 →
        Claims.xfTo s c + 64 * len ≤ 2 ^ 64 → s.ddrCap ≤ 2 ^ 38 → src + 32 * size ≤ s.ddrCap →
      let cell := 0x1000000000000000000 + dst / 2
      (s.hasStamp 0 rt 1 = true) ∧
      ((∀ i, i < size → (src / 32 + i) ∉ s.ddrBad) → ∃ t, exec .xfTlpSent s = .next t ∧ Claims.xfDone t c = n + size ∧
        t.pcie.xfLast = c ∧ (∀ k, k ≠ Reg.XF_COUNT c → k ≠ Reg.XF_STAT c → k ≠ Reg.XF_DONEL c → k ≠ Reg.XF_DONEH c →
          k ≠ routeKey rt 9 → t.reg k = s.reg k) ∧
        (∃ rg me mt pe, t = { s with
          regs := rg, mem := me, meters := mt, pcie := { s.pcie with xfLast := c, pend := pe, l1 := false } }) ∧
        (∀ k, t.peek k = if cell ≤ k ∧ k < cell + 32 * size then s.peek (ddrKey src + (k - cell)) else s.peek k) ∧
        (n + size < len → t.reg (Reg.XF_STAT c) = s.reg (Reg.XF_STAT c) ∧ t.pcie.pend = s.pcie.pend) ∧
        (n + size = len → Claims.XfEnds s t c 2 15 0 ∧ t.reg (Reg.XF_COUNT c) = s.reg (Reg.XF_COUNT c) + 1)) ∧
      (∀ i, i < size → (src / 32 + i) ∈ s.ddrBad → (∀ j, j < i → (src / 32 + j) ∉ s.ddrBad) → ∃ t, exec .xfTlpSent s = .next t ∧
        Claims.xfDone t c = n + i ∧ Claims.XfEnds s t c 3 14 3 ∧
        ∀ k, t.peek k = if cell ≤ k ∧ k < cell + 32 * i then s.peek (ddrKey src + (k - cell)) else s.peek k)) ∧
    (∀ v : Fin 64, let p := s.pcie
      let send := s.linkTrained = true ∧ p.msixEn = true ∧ p.fmask = false ∧ v.val ∈ p.pend ∧ (p.tabWord (4 * v.val + 3)).getLsbD 0 = false
      (send → exec (.msixMessage v) s =
        .next { s with pcie := { p with pend := p.pend.filter (fun x => decide (x ≠ v.val)), sent := some v.val, l1 := false } }) ∧
      (¬send → exec (.msixMessage v) s = .next s)) ∧
    (∀ (bme en mask big d3 : Bool), let put := exec (.pcieConfigWrite bme en mask (big, d3)) s
      (s.linkTrained = false → put = .next s) ∧
      (s.linkTrained = true → let p : Pcie := { s.pcie with bme := bme, msixEn := en, fmask := mask, mps256 := big, d3 := d3, l1 := false }
        (bme = true → put = .next { s with pcie := p }) ∧
        (bme = false → ∃ t rg pe, put = .next t ∧ t = { s with regs := rg, pcie := { p with pend := pe } } ∧
          (∀ c, c < 32 → Claims.xfSt s c = 1 → Claims.xfSt t c = 3 ∧ field (t.reg (Reg.XF_STAT c)) 8 3 = 4 ∧
            bit (t.reg (Reg.XF_STAT c)) 14 = true) ∧
          (∀ k, (∀ c, c < 32 → Claims.xfSt s c = 1 → k ≠ Reg.XF_STAT c) → t.reg k = s.reg k) ∧
          ((∀ c, c < 32 → Claims.xfSt s c ≠ 1) → pe = s.pcie.pend)))) ∧
    (let serves := bit (s.reg Reg.HOST_CFG) 15 && bit (s.reg (Reg.PWR_ON 3)) 2
      let leaves := fun (t : State) => t.reg Reg.HOST_STAT = s.reg Reg.HOST_STAT ||| 0x8000
      (s.linkTrained = true → exec (.pcieLinkLeftL0 .l1) s = .next { s with pcie := { s.pcie with l1 := true } } ∧
        (∃ t, exec (.pcieLinkLeftL0 .recovery) s = .next t ∧
          Claims.OnlyReg { s with pcie := { s.pcie with l1 := false, lost := false } } t Reg.HOST_STAT ∧ leaves t ∧ t.linkTrained = true) ∧
        (∃ t rg ms rt, exec (.pcieLinkLeftL0 .down) s = .next t ∧
          t = { s with regs := rg, msgs := ms, routers := rt, hostOut := [], pcie := { s.pcie with lost := true, l1 := false } } ∧ leaves t ∧
          t.linkTrained = false ∧ (∀ k, k ≠ Reg.HOST_STAT → t.reg k = s.reg k) ∧
          ∀ m, m ∈ ms ↔ m ∈ s.msgs ∧ ∀ d vs e, m ≠ .portReply 130 d vs e)) ∧
      (s.linkTrained = false → exec (.pcieLinkLeftL0 .l1) s = .next s ∧ exec (.pcieLinkLeftL0 .down) s = .next s ∧
        exec (.pcieLinkLeftL0 .recovery) s = .next { s with pcie := { s.pcie with l1 := false, lost := false } }) ∧
      (∀ (speed : Fin 4) (width : Fin 16), ∃ t, exec (.perstNRise speed width) s = .next t ∧
        t = { s with pcie := { s.pcie with perst := true, lost := false, speed := speed.val, width := width.val } } ∧
        t.linkTrained = serves)) ∧
    (∃ t, exec .perstNFall s = .next t ∧ t.linkTrained = false ∧ t.hostOut = [] ∧ t.pcie.pend = [] ∧ t.pcie.bme = false ∧ t.pcie.msixEn = false ∧
      (t.reg Reg.HOST_STAT = s.reg Reg.HOST_STAT ||| (if s.linkTrained then 0xC000 else 0x4000)) ∧
      (∀ a, a ∈ t.hostQ ↔ a ∈ s.hostQ ∧ (∀ p, a ≠ .portRead p) ∧ (∀ d, a ≠ .boxRead d) ∧ (∀ b n, a ≠ .burstRead b n) ∧ a ≠ .complete) ∧
      (∀ c, c < 32 → Claims.xfSt s c = 1 → Claims.xfSt t c = 3 ∧ field (t.reg (Reg.XF_STAT c)) 8 3 = 5) ∧
      (∀ c, c < 32 → Claims.xfSt s c ≠ 1 → t.reg (Reg.XF_STAT c) = s.reg (Reg.XF_STAT c)) ∧
      (∀ p, p < 64 → let h := s.hole p
        t.hole p = if bit (s.reg Reg.HOST_CFG) 14 = false then h else
          match h.state with
          | .idle => Hole.reset
          | .done => Hole.reset
          | .busy => { h with state := .releasing }
          | _ => h) ∧
      (s.envelope.author = 130 → s.envelope.state ≠ .applying → t.envelope.state = .idle) ∧ t.mem = s.mem ∧ t.clerks = s.clerks)
/-! ## Countersign and postage -/

/-- R415 to R417, R419 to R425, R427, R429: pigeonholes, transfer channels, messages and the host link. -/
def Obligations.HostTransfers : Prop := Claims.Pigeonholes ∧ Claims.TransfersAndLink

namespace Sys2Proof.Claims

/-- One bit into the reflected CRC-32 of polynomial 04C1_1DB7h (R437). -/
def crc32Bit (r : BitVec 32) (b : Bool) : BitVec 32 := (r >>> 1) ^^^ (if r.getLsbD 0 = b then 0 else 0xEDB88320)
/-- CRC-32 over words, each low byte and low bit first, with final inversion (R437). -/
def crc32 (ws : List Word) : BitVec 32 :=
  ~~~(ws.foldl (fun r w => (List.range 16).foldl (fun q i => crc32Bit q (w.getLsbD i)) r) (BitVec.allOnes 32))
/-- The words that a seal covers (R437). -/
def sealed (s : State) (es : List EnvEntry) : List Word :=
  [s.reg Reg.CS_NONCEL, s.reg Reg.CS_NONCEH, mod16 es.length] ++ (es.map fun e => [e.sel, e.port, e.data]).flatten
/-- The nonce of the present or last envelope. -/
def nonceOf (s : State) : Nat := (s.reg Reg.CS_NONCEL).toNat + 65536 * (s.reg Reg.CS_NONCEH).toNat
/-- Bits of CS_STAT set, with the global event CSIGN where they were not set before (R441, R447). -/
def csSignal (s : State) (m : Word) : State :=
  if s.reg Reg.CS_STAT &&& m = m then s else (s.setReg Reg.CS_STAT (s.reg Reg.CS_STAT ||| m)).raiseGlobal 0x7C
/-- The envelope ends with a result: its nonce joins the 16 last used, DONEEV is set (R435, R447). -/
def closed (s : State) (result : Word) : State :=
  csSignal { s.setReg Reg.CS_RESULT result with
    envelope := { s.envelope with state := .idle, used := (nonceOf s :: s.envelope.used).take 16 } } 0x4000
/-- A saturating counter has risen. -/
def counted (s : State) (k : Nat) : State := s.setReg k (satAdd (s.reg k) 1)
/-- Entries that write RW bits of a HUB register which no rule guards, as port and mask. -/
def plainEntry (e : EnvEntry) (m : Word) : Prop := e.sel = 0 ∧ writable e.port.toNat = some m
/-- Writes of plain entries in order. -/
def written : List EnvEntry → State → State
  | [], s => s
  | e :: t, s =>
    let p := e.port.toNat
    let m := (writable p).getD 0
    written t (s.setReg p ((s.reg p &&& ~~~m) ||| (e.data &&& m)))
/-- Entries that fail a check of R439, each with the cause that names it. -/
def failing (s : State) (e : EnvEntry) (cause : Nat) : Prop :=
  let scope := field e.sel 14 2
  let clerkNo := field e.sel 0 5
  let p := e.port.toNat
  (cause = 4 ∧ (scope = 3 ∨ field e.sel 5 6 ≠ 0 ∨ (scope = 0 ∧ (field e.sel 11 3 ≠ 0 ∨ clerkNo ≠ 0 ∨ p < 0x4000)) ∨
    (scope = 1 ∧ (clerkNo ≠ 0 ∨ p < 0x1000 ∨ 0x4000 ≤ p)) ∨ (scope = 2 ∧ 0x1000 ≤ p))) ∨
  (cause = 1 ∧ e.sel = 0 ∧ ((0x4005 ≤ p ∧ p ≤ 0x40FF) ∨ (0x432B ≤ p ∧ p ≤ 0x43FF))) ∨
  (cause = 1 ∧ field e.sel 5 6 = 0 ∧ scope = 2 ∧ p = 0x520 ∧ (field e.sel 11 3 ∈ [1, 2, 7] ∨ (field e.sel 11 3 = 0 ∧ 2 ≤ clerkNo))) ∨
  (cause = 2 ∧ e.sel = 0 ∧ p ∈ [0x4000, 0x4301, 0x4302, 0x4306, 0x4307, 0x4308, 0x4309, 0x430D, 0x4310, 0x4321]) ∨
  (cause = 5 ∧ field e.sel 5 6 = 0 ∧ scope = 2 ∧ p = 0x520 ∧ isSort (field e.sel 11 3) = true ∧ s.inService (field e.sel 11 3) = false) ∨
  (cause = 3 ∧ e.sel = 0 ∧ p % 4 = 0 ∧ 0x4500 ≤ p ∧ p < 0x4600 ∧ 5 ≤ field e.data 12 3)
/-- It is the turn of the requester at place `n` where items wait at meter `q`: the first after the one served last (R445). -/
def turn (s : State) (q : Nat × Nat × Nat) (n : Nat) : Prop :=
  let last := s.served.getD (512 * q.1 + 2 * q.2.1 + q.2.2) 162 % 163
  n < 163 ∧ s.waitsAt (waiterAt n) = some q ∧
    ∀ m, m < 163 → s.waitsAt (waiterAt m) = some q → (n + 162 - last) % 163 ≤ (m + 162 - last) % 163
/-- The requester has been served at the meter. -/
def servedAt (s : State) (q : Nat × Nat × Nat) (n : Nat) : State :=
  { s with served := s.served.set (512 * q.1 + 2 * q.2.1 + q.2.2) n }
/-- No clerk's selections and staging but those of the envelope's own writer differ. -/
def OwnStage (s t : State) : Prop :=
  ∀ k d, k / 2 ^ 32 ≠ 132 → t.stage.getD k d = s.stage.getD k d ∧ t.sels.getD k d = s.sels.getD k d

end Sys2Proof.Claims

/-- R429, R435 to R437, R441: OPEN, staging, SEAL and ABORT: only by the author, otherwise counted; the window ends an envelope that
no countersign has ended. -/
def Sys2Proof.Claims.Envelopes : Prop :=
  ∀ s : State, s.live = true → Calm s →
    let e := s.envelope
    let idle := e.state = .idle
    let open_ := e.state = .staging ∨ e.state = .sealedFor
    (∀ who : Requester, isParty who.val = true →
      let mine := ¬idle ∧ e.author = who.val
      let opens := exec (.csCmdOpen who) s
      let seals := exec (.csCmdSeal who) s
      let aborts := exec (.csCmdAbort who) s
      (¬idle → opens = .next (Claims.counted s Reg.CS_BUSYCNT)) ∧
      (idle → e.used.length ≤ 16 → ∃ t rg, opens = .next t ∧
        t = { s with regs := rg, envelope := { e with state := .staging, author := who.val, entries := [], code := 0, start := s.now, window := max 1 (s.reg Reg.CS_WINDOW).toNat, draws := e.draws + 1 } } ∧
        Claims.nonceOf t ∉ e.used ∧ ∀ k, k ≠ Reg.CS_NONCEL → k ≠ Reg.CS_NONCEH → t.reg k = s.reg k) ∧
      (mine → e.state = .staging → seals = .next (Claims.csSignal { s with envelope := { e with state := .sealedFor, code := (Claims.crc32 (Claims.sealed s e.entries)).toNat } } 0x8000)) ∧
      (mine → e.state ≠ .staging → seals = .next s) ∧
      (mine → open_ → aborts = .next (Claims.closed (Claims.counted s Reg.CS_ABORTED) 0x5000)) ∧
      (mine → ¬open_ → aborts = .next s) ∧
      (idle → seals = .next s ∧ aborts = .next s) ∧
      (¬idle → ¬mine → seals = .next (Claims.counted s Reg.CS_SAMEPARTY) ∧ aborts = .next (Claims.counted s Reg.CS_SAMEPARTY)) ∧
      (∀ v : Word, ∃ u st, (u : State) = { s with stage := st } ∧
        let own := fun (i : Nat) => ownKey who.val (Reg.CS_EPUT i)
        (∀ k d, u.stage.getD k d = if k = own 0 ∨ k = own 1 then d else s.stage.getD k d) ∧
        let item : EnvEntry := { sel := s.stage.getD (own 0) 0, port := s.stage.getD (own 1) 0, data := v }
        let puts := exec (.csEput2Write who v) s
        (mine → e.state = .staging → e.entries.length < 64 → puts = .next { u with envelope := { e with entries := e.entries ++ [item] } }) ∧
        (mine → e.state = .staging → 64 ≤ e.entries.length → puts = .next (Claims.counted u Reg.CS_REFUSED)) ∧
        (mine → e.state ≠ .staging → puts = .next u) ∧
        (idle → puts = .next u) ∧
        (¬idle → ¬mine → puts = .next (Claims.counted u Reg.CS_SAMEPARTY)))) ∧
    (let past := open_ ∧ e.start + e.window * 200000 ≤ s.now;
      (past → exec .csWindowExpiry s = .next (Claims.closed (Claims.counted s Reg.CS_EXPIRED) 0x4000)) ∧
      (¬past → exec .csWindowExpiry s = .next s))

/-- R438 to R440: a countersign is judged by the first matching condition; the first entry that fails its checks refuses the
envelope; an accepted envelope's entries are applied in order, and not on a die that is out. -/
def Sys2Proof.Claims.Countersigns : Prop :=
  ∀ s : State, s.live = true → Calm s →
    let e := s.envelope
    (∀ (who : Requester) (v : Word), isParty who.val = true → ∃ u st, (u : State) = { s with stage := st } ∧
      let own := fun (i : Nat) => ownKey who.val (Reg.CS_SIGN i)
      (∀ k d, u.stage.getD k d = if k ∈ [own 0, own 1, own 2] then d else s.stage.getD k d) ∧
      let w := fun (i : Nat) => (s.stage.getD (own i) 0).toNat
      let nonce := w 0 + 65536 * w 1
      let code := w 2 + 65536 * v.toNat
      let sign := exec (.csSign3Write who v) s
      let reject := fun (k : Nat) => Claims.csSignal (Claims.counted u k) 0x2000
      let held := e.state = .sealedFor ∧ nonce = Claims.nonceOf s
      (nonce ∈ e.used → sign = .next (reject Reg.CS_REPLAY)) ∧
      (nonce ∉ e.used → ¬held → sign = .next (reject Reg.CS_BADNONCE)) ∧
      (nonce ∉ e.used → held → e.author = who.val → sign = .next (reject Reg.CS_SAMEPARTY)) ∧
      (nonce ∉ e.used → held → e.author ≠ who.val → code ≠ e.code →
        sign = .next (Claims.closed (reject Reg.CS_REJECTED) 0x3000)) ∧
      (nonce ∉ e.used → held → e.author ≠ who.val → code = e.code → s.inService 0 = true →
        ((∀ x ∈ e.entries, ∃ m, Claims.plainEntry x m) → sign = .next { u with envelope := { e with state := .applying } }) ∧
        (∀ before x after cause, e.entries = before ++ x :: after → (∀ y ∈ before, ∃ m, Claims.plainEntry y m) →
          Claims.failing s x cause → e.entries.length ≤ 64 →
          sign = .next (Claims.closed (Claims.counted u Reg.CS_REFUSED) (Claims.mod16 (0x2000 + 512 * cause + before.length : Nat)))))) ∧
    (e.state ≠ .applying → exec .envelopeApply s = .next s) ∧
    (e.state = .applying → s.inService 0 = true →
      ((∀ x ∈ e.entries, ∃ m, Claims.plainEntry x m) → e.entries ≠ [] → ∃ u st se, exec .envelopeApply s = .next (Claims.closed u 0x1000) ∧
        u = { Claims.counted (Claims.written e.entries s) Reg.CS_APPLIED with stage := st, sels := se } ∧ Claims.OwnStage s u) ∧
      (∀ (rt stamps : Word), rt.toNat < 256 → e.entries = [⟨0, 0x4402, rt⟩, ⟨0, 0x4407, stamps⟩] →
        ∃ u st se, exec .envelopeApply s = .next (Claims.closed u 0x1000) ∧
        u = { Claims.counted (s.setReg (routeKey rt.toNat 7) stamps) Reg.CS_APPLIED with stage := st, sels := se } ∧ Claims.OwnStage s u) ∧
      (∀ (d c : Nat) (x : Word), isSort d = true → c < 32 → s.inService d = false →
        e.entries = [⟨Claims.mod16 (0x8000 + 2048 * d + c : Nat), 0x520, x⟩] → ∃ u st se,
        exec .envelopeApply s = .next (Claims.closed u (Claims.mod16 (0x6000 + 64 * d : Nat))) ∧
        u = { Claims.counted s Reg.CS_APPLIED with stage := st, sels := se } ∧ Claims.OwnStage s u))

/-- R429, R435 to R441: envelopes: opening, staging, sealing, countersigning, what refuses one and what an accepted one
applies. -/
def Obligations.Countersign : Prop := Claims.Envelopes ∧ Claims.Countersigns

/-- R44, R45, R239, R413, R442 to R445: at a round boundary a meter's used count returns to 0; a waiting clerk, camera or host item is
served once its route has a stamp and its turn has come. -/
def Obligations.Postage : Prop :=
  ∀ s : State, s.live = true →
    (∀ (d : DieId) (rt : Fin 256) (ddr : Bool),
      let at_ := if ddr then 0 else d.val
      let cls := if ddr then 1 else 0
      let ax := field (s.reg (routeKey rt.val 3)) 8 4
      let len := max 1 ((s.reg (routeKey rt.val 4)).toNat + 65536 * (s.reg (routeKey rt.val 5)).toNat)
      let m := s.meter at_ rt.val cls
      let rounds := (2 ^ 32 + len - 1) / len
      let bound := fun (i : Nat) => let ahead := (i / len + rounds - m.rndMax) % rounds
        1 ≤ ahead ∧ ahead ≤ (rounds - 1) / 2
      let tick := exec (.postageRoundBoundary d rt ddr) s
      let judge := fun (i : Nat) => (¬bound i → tick = .next s) ∧ (bound i → ∃ t mt, tick = .next t ∧ t = { s with meters := mt } ∧
        t.meter at_ rt.val cls = { m with used := 0, rndMax := i / len } ∧
        (let w := s.meter 8 rt.val cls
          let first := 1 ≤ (i / len + rounds - w.rndMax % rounds) % rounds ∧ (i / len + rounds - w.rndMax % rounds) % rounds ≤ (rounds - 1) / 2
          (first → t.meter 8 rt.val cls = { w with rndMax := i / len, waited := false }) ∧ (¬first → t.meter 8 rt.val cls = w)) ∧
        ∀ d2 r2 c2, r2 < 256 → c2 < 2 → (d2, r2, c2) ≠ (at_, rt.val, cls) → (d2, r2, c2) ≠ (8, rt.val, cls) → t.meter d2 r2 c2 = s.meter d2 r2 c2)
      m.rndMax < rounds → (ax = 15 → judge (s.refUs % 2 ^ 32)) ∧
        (ax < 15 → at_ = 1 ∨ at_ = 2 → tick = .next s) ∧
        (ax < 15 → at_ = 7 → (s.axRounds ax = true → judge ((s.axPos ax).toNat / 65536)) ∧ (s.axRounds ax = false → tick = .next s)) ∧
        (ax < 15 → at_ ≠ 1 → at_ ≠ 2 → at_ ≠ 7 → let r := s.replica at_ ax
          (r.stale = false → r.state = 1 ∨ r.state = 2 → judge (r.pos.toNat / 65536)) ∧
          (r.stale = true ∨ (r.state ≠ 1 ∧ r.state ≠ 2) → tick = .next s))) ∧
    (Calm s → ∀ (w : PostageWaiter) (q : Nat × Nat × Nat) (n : Nat), s.waitsAt w = some q → s.hasStamp q.1 q.2.1 q.2.2 = true →
      Claims.turn s q n → n ≠ waiterPlace w → exec (.postageWaitEnd w) s = .next s) ∧
    (∀ (i : Instr) (c : ClerkId) (len : Nat) (v : Word) (f : Clerk → Clerk),
      Claims.writing s i = some (c, len, Reg.PST_SEL, v, f) → 128 ≤ c.val → Claims.WaitsWith s c.val .postage i len → (s.clerk c.val).ep = false →
      let k := s.clerk c.val
      let rt := s.clerkRoute c.val
      (s.hasStamp 0 rt 0 = true → Claims.turn s (0, rt, 0) c.val → ∃ t, exec (.postageWaitEnd (.clerk c)) s = .next t ∧
        OnlyClerk { (Claims.servedAt s (0, rt, 0) c.val).takeStamp 0 rt 0 with sels := s.sels.set (ownKey c.val Reg.PST_SEL) ((v &&& 0xFF) |||
          (s.selOf c.val Reg.PST_SEL &&& 0xFF00)) } t c.val ∧
        t.clerk c.val = Claims.resumes k (k.pc + BitVec.ofNat 20 len) f) ∧
      (s.hasStamp 0 rt 0 = false → ∃ t, exec (.postageWaitEnd (.clerk c)) s = .next t ∧ OnlyClerk (s.noteWait rt 0) t c.val ∧
        (t.clerk c.val).waiting = k.waiting ∧ (t.clerk c.val).pc = k.pc)) ∧
    (∀ (c : ClerkId), Calm s → exec (.postageWaitEnd (.clerk c)) s = .next s) ∧
    (∀ (i : Fin 2) (k : Fin 16), Calm s →
      let cam := s.cam i.val k.val
      let serve := exec (.postageWaitEnd (.camera i k)) s
      let emptied := fun (u : State) => u.setCam i.val k.val { cam with out := [] }
      (∀ rt box x, cam.out = [.sheet rt box x] → isSort (bagDie box) = true → s.undeliverable (i.val + 1) (bagDie box) = none →
        (s.hasStamp (i.val + 1) rt 0 = true → Claims.turn s (i.val + 1, rt, 0) (130 + 16 * i.val + k.val) → ∃ t, serve = .next t ∧
          let u := emptied ((Claims.servedAt s (i.val + 1, rt, 0) (130 + 16 * i.val + k.val)).takeStamp (i.val + 1) rt 0)
          Claims.Sends u t ∧ Claims.Keeps u t [] ∧ Msg.push (i.val + 1) box { data := x, tag := 0, depth := 0, flips := 0 } ∈ t.msgs) ∧
        (s.hasStamp (i.val + 1) rt 0 = false → ∃ t, serve = .next t ∧ t = (s.noteWait rt 0).setCam i.val k.val cam)) ∧
      (∀ rt a ws, cam.out = [.burst rt a ws] → a % 32 = 0 → ws.length = 32 → s.ddrBad = [] →
        (s.hasStamp 0 rt 1 = true → Claims.turn s (0, rt, 1) (130 + 16 * i.val + k.val) → s.undeliverable (i.val + 1) 0 = none →
          Claims.isOn s (51 + (s.ddrLocal a).1 / 2) = true → ∃ t me, serve = .next t ∧
          let u := emptied { (Claims.servedAt s (0, rt, 1) (130 + 16 * i.val + k.val)).takeStamp 0 rt 1 with mem := me }
          Claims.Sends u t ∧ Claims.Keeps u t [] ∧ ∀ j, t.peek j = if ddrKey a ≤ j ∧ j < ddrKey a + 32 then ws.getD (j - ddrKey a) 0 else s.peek j) ∧
        (s.hasStamp 0 rt 1 = false → serve = .next ((s.noteWait rt 1).setCam i.val k.val cam)))) ∧
    (Calm s → (s.hostQ = [] → exec (.postageWaitEnd .host) s = .next s) ∧
      (∀ p v, s.hostQ = [.portWrite p v] → p < 65536 → let rt := Claims.hostRt s
        (s.hasStamp 0 rt 0 = true → Claims.turn s (0, rt, 0) 162 → ∃ t, exec (.postageWaitEnd .host) s = .next t ∧
          exec (.registerWrite Claims.host (Claims.mod16 p) v)
            ({ (Claims.servedAt s (0, rt, 0) 162) with hostQ := [] }.takeStamp 0 rt 0) = .next t) ∧
        (s.hasStamp 0 rt 0 = false → exec (.postageWaitEnd .host) s = .next (s.noteWait rt 0))))
/-! ## Structure image and repair -/

namespace Sys2Proof.Claims

/-- First word of bank `b` of the IMAGE region (R457). -/
def bankAt (s : State) (b : Nat) : Nat :=
  match s.imageRegion with
  | some (a, n) => ddrKey (a + b * (n / 2))
  | none => ddrKey 0
/-- The active bank. -/
def active (s : State) : Nat := field (s.reg Reg.IMG_STAT) 9 1
/-- 32-bit value at word `i` of an image (R449). -/
def word2 (s : State) (b i : Nat) : Nat := (s.peek (b + i)).toNat + 65536 * (s.peek (b + i + 1)).toNat
/-- A version at word `i` as R453 compares it. -/
def version (s : State) (b i : Nat) : Nat :=
  (s.peek (b + i)).toNat / 256 * 65536 + (s.peek (b + i)).toNat % 256 * 256 + (s.peek (b + i + 1)).toNat % 256
/-- Do two images hold the same slice for die `d`, by digest (R450, R468)? -/
def sameDigest (s : State) (x y d : Nat) : Prop := ∀ i, i < 16 → s.peek (x + 48 + 32 * d + 16 + i) = s.peek (y + 48 + 32 * d + 16 + i)
/-- Place and length in words of the image to stage (R470). -/
def stageFrom (s : State) : Nat :=
  (s.reg Reg.IMG_SRCL).toNat + 65536 * (s.reg Reg.IMG_SRCM).toNat + 2 ^ 32 * field (s.reg Reg.IMG_SRCH) 0 6
def stageLen (s : State) : Nat := ((s.reg Reg.IMG_LENL).toNat + 65536 * field (s.reg Reg.IMG_LENH) 0 1) * 2048
/-- The image to stage may be read: its place is aligned, its length in range, no burst of it uncorrectable (R458, R470). -/
def stageReadable (s : State) : Prop :=
  let a := stageFrom s
  let n := stageLen s
  a % 2048 = 0 ∧ 0 < n ∧ n ≤ 65536 * 2048 ∧ a + n ≤ s.ddrCap ∧ ∀ u ∈ s.ddrBad, u < a / 32 ∨ a + n ≤ 32 * u
/-- The header passes R454: layout, key, signature, anti-rollback. -/
def headerGood (s : State) (b : Nat) : Prop :=
  let key := s.peeks (b + 16) 32
  s.formatOk b = true ∧ Config.otpKeyHash = some (sha256 key) ∧
    ecdsaOk key (s.peeks (b + 480) 32) (sha256 (s.peeks b 480)) = true ∧ s.otpArb ≤ (s.peek (b + 10)).toNat % 256
/-- The image may be staged beside the active one: it fits the bank, IMAGE_ID, COMPAT_MIN, digests (R453, R454, R457). -/
def mixes (s : State) (b : Nat) : Prop :=
  let act := bankAt s (active s)
  word2 s b 12 / 2 ≤ s.bankWords ∧ word2 s b 12 / 2 ≤ stageLen s ∧ word2 s b 4 = word2 s act 4 ∧ version s b 8 ≤ version s act 6 ∧
    s.digestsOk b = true
/-- Six registers that show an image's IMAGE_ID, VERSION and COMPAT_MIN. -/
def shows (s t : State) (b r : Nat) : Prop := ∀ i, i < 6 → t.reg (r + i) = s.peek (b + 4 + i)
/-- The repair of the die has ended: RESULT and CAUSE, RPEV, the REPAIR record, the mode (R465, R470, R492). -/
def RepairOver (s t : State) (result cause mode : Nat) : Prop :=
  let d := field (s.reg Reg.IMG_RPSTAT) 8 3
  let w := mod16 ((256 * d + 64 * result + cause : Nat))
  t.repair = none ∧ t.reg Reg.IMG_RPSTAT = w ∧ bit (t.reg Reg.IMG_STAT) 13 = true ∧ t.mode = mode ∧ (t.die d).draining = false ∧
    ∃ r, t.faultLog.find? ((t.logCount + 65535) % 65536 % 64) = some r ∧ r.take 2 = [mod16 ((0x6000 + d : Nat)), w]
/-- The mode that a repair which leaves its die as it was returns to: DEGRADED where a die is out (R16, R17). -/
def backTo (s : State) (r : RepairRun) : Nat := if (s.reg Reg.DEVICE_DIES).toNat % 256 = 255 then r.fromMode else 5
/-- The repair is at step `k`, begun now, its OUT list applied or not. -/
def AtStepWith (s t : State) (k : Nat) (listed : Bool) : Prop :=
  (∃ r, t.repair = some { r with at_ := s.now, listed := listed } ∧ s.repair = some r) ∧
    t.reg Reg.IMG_RPSTAT = (s.reg Reg.IMG_RPSTAT &&& 0x0FFF) ||| mod16 ((4096 * k : Nat))
/-- Only the repair's own step differs: it is step `k`, begun now. -/
def AtStep (s t : State) (k : Nat) : Prop := AtStepWith s t k false
/-- K4 begins, or its list is applied at last: with an envelope APPLYING the list waits; else an OUT list without entries is applied (R462). -/
def ListsAtK4 (s : State) (o : Host.Outcome State Fault Refusal) (d : Nat) : Prop :=
  s.envelope.state ≠ .applying → s.fallback d true = [] → ∃ t rg st se, o = .next t ∧ AtStepWith s t 4 true ∧
    t = { s with regs := rg, repair := t.repair, stage := st, sels := se } ∧ ∀ j, j ≠ Reg.IMG_RPSTAT → t.reg j = s.reg j
/-- The loader's route, and whether it has a DDR stamp left or needs none: before READY nothing is charged (R457). -/
def loaderRt (s : State) : Nat := field (s.reg Reg.IMG_CFG) 0 8
def loaderMay (s : State) : Prop :=
  s.phase ≠ .awake ∨ bit (s.reg (routeKey (loaderRt s) 3)) 15 = false ∨ (s.meter 0 (loaderRt s) 1).used < (s.reg (routeKey (loaderRt s) 7)).toNat
/-- Nothing but the repair's step differs. -/
def OnlyStep (s t : State) (k : Nat) : Prop :=
  AtStep s t k ∧ (∃ rg, t = { s with regs := rg, repair := t.repair }) ∧ ∀ j, j ≠ Reg.IMG_RPSTAT → t.reg j = s.reg j
/-- A repair of a die is running, at a step. -/
def Repairing (s : State) (r : RepairRun) (d k : Nat) : Prop :=
  s.repair = some r ∧ field (s.reg Reg.IMG_RPSTAT) 8 3 = d ∧ field (s.reg Reg.IMG_RPSTAT) 12 4 = k ∧ 1 ≤ d

end Sys2Proof.Claims

/-- R453 to R455, R457, R458, R468, R470: STAGE, the end of staging, COMMIT and DISCARD. Where several checks of a staged image fail,
which cause STGERR holds is not stated here. -/
def Sys2Proof.Claims.ImageCommands : Prop :=
  ∀ s : State, s.live = true →
    (∀ who : Requester, isParty who.val = true → Calm s →
      let idle := field (s.reg Reg.IMG_STAT) 0 3 = 0
      let stat := s.reg Reg.IMG_STAT
      let refused := Host.Outcome.next (s.setReg Reg.IMG_STAT (stat ||| 0x0800))
      let stage := exec (.imgCmdStage who) s
      let commit := exec (.imgCmdCommit who) s
      let discard := exec (.imgCmdDiscard who) s
      (¬idle → stage = refused ∧ commit = refused ∧ discard = refused) ∧
      (idle → ∃ t, stage = .next t ∧ Claims.OnlyReg s t Reg.IMG_STAT ∧ t.reg Reg.IMG_STAT &&& 0xFF07 = (stat &&& 0xFE00) ||| 1) ∧
      (idle → (s.reg Reg.IMG_DIEBANK ≠ 0 → discard = refused) ∧
        (s.reg Reg.IMG_DIEBANK = 0 → discard = .next (s.setReg Reg.IMG_STAT (stat &&& 0xFEFF)))) ∧
      (let act := Claims.bankAt s (Claims.active s)
        let stg := Claims.bankAt s (1 - Claims.active s)
        let may := bit stat 8 = true ∧ Claims.sameDigest s act stg 0 ∧
          ∀ d, d < 8 → s.inService d = true → bit (s.reg Reg.IMG_DIEBANK) d = true ∨ Claims.sameDigest s act stg d
        let arb := (s.peek (stg + 10)).toNat % 256
        (idle → ¬may → commit = refused) ∧
        (idle → may → ∃ t rg ot, commit = .next t ∧ t = { s with regs := rg, otpArb := ot } ∧
          t.reg Reg.IMG_STAT = ((stat ^^^ 0x0200) &&& 0xFEFF) ||| 0x4000 ∧ t.reg Reg.IMG_DIEBANK = 0 ∧ Claims.shows s t stg Reg.IMG_IDL ∧
          ot = (if bit (s.reg Reg.IMG_CFG) 15 then max s.otpArb arb else s.otpArb) ∧
          (ot < 256 → t.reg Reg.IMG_ARB = Claims.mod16 (256 * arb + ot : Nat)) ∧
          ∀ k, k ∉ [Reg.IMG_STAT, Reg.IMG_DIEBANK, Reg.IMG_ARB] → k < Reg.IMG_IDL ∨ Reg.IMG_IDL + 6 ≤ k → t.reg k = s.reg k))) ∧
    (let src := ddrKey (Claims.stageFrom s)
      let n := Claims.word2 s src 12 / 2
      let dst := Claims.bankAt s (1 - Claims.active s)
      let loading := field (s.reg Reg.IMG_STAT) 0 3 = 1
      let done := exec .stagingComplete s
      let good := Claims.stageReadable s ∧ Claims.headerGood s src ∧ Claims.mixes s src
      let rt := Claims.loaderRt s
      (¬loading → done = .next s) ∧
      (loading → good → ¬Claims.loaderMay s → done = .next (s.noteWait rt 1)) ∧
      (loading → good → (src + n ≤ dst ∨ dst + n ≤ src) → Claims.loaderMay s → Claims.isOn s 51 = true → Claims.isOn s 52 = true →
        ∃ t rg me mt, done = .next t ∧ t = { s with regs := rg, mem := me, meters := mt } ∧
        t.reg Reg.IMG_STAT = (s.reg Reg.IMG_STAT &&& 0xFFF8) ||| 0x8100 ∧ Claims.shows s t src Reg.IMG_STGIDL ∧
        (∀ k, t.peek k = if dst ≤ k ∧ k < dst + n then s.peek (src + (k - dst)) else s.peek k) ∧
        ∀ k, k ≠ Reg.IMG_STAT → k ≠ routeKey rt 9 → k < Reg.IMG_STGIDL ∨ Reg.IMG_STGIDL + 6 ≤ k → t.reg k = s.reg k) ∧
      (loading → ¬good → Claims.loaderMay s → Claims.isOn s 51 = true → Claims.isOn s 52 = true →
        ∃ t rg mt ms ge rw fw rt' lk e, done = .next t ∧ 1 ≤ e ∧ e ≤ 9 ∧
        t = { s with regs := rg, meters := mt, msgs := ms, globalEvs := ge, ddrRows := rw, faultWins := fw, routers := rt', links := lk } ∧
        t.reg Reg.IMG_STAT = (s.reg Reg.IMG_STAT &&& 0xFF08) ||| Claims.mod16 ((0x1000 + 16 * e : Nat)) ∧
        t.reg Reg.IMG_AUTHFAIL = satAdd (s.reg Reg.IMG_AUTHFAIL) 1 ∧
        t.reg Reg.IMG_RDERR = (if e = 9 then satAdd (s.reg Reg.IMG_RDERR) 1 else s.reg Reg.IMG_RDERR) ∧
        (e ≠ 9 → ∀ k, k ∉ [Reg.IMG_STAT, Reg.IMG_AUTHFAIL, routeKey rt 9] → t.reg k = s.reg k) ∧
        let key := s.peeks (src + 16) 32
        let act := Claims.bankAt s (Claims.active s)
        (Claims.stageReadable s → s.formatOk src = false → e = 1) ∧
        (Claims.stageReadable s → s.formatOk src = true → Config.otpKeyHash ≠ some (sha256 key) → e = 2) ∧
        (Claims.stageReadable s → Claims.headerGood s src → n ≤ s.bankWords → n ≤ Claims.stageLen s →
          (Claims.word2 s src 4 ≠ Claims.word2 s act 4 → e = 5) ∧
          (Claims.word2 s src 4 = Claims.word2 s act 4 → (Claims.version s act 6 < Claims.version s src 8 → e = 6) ∧
            (Claims.version s src 8 ≤ Claims.version s act 6 → e = 7)))))

/-- R456, R470: while the load window is READY, a piece of 1 to 64 units of 4 KiB joins the image that host boot delivers. -/
def Sys2Proof.Claims.HostLoads : Prop :=
  ∀ (s : State) (who : Requester) (v : Word), s.live = true → Calm s → isParty who.val = true →
    let n := v.toNat % 128
    let base := 0x90000000000 + s.hostLoad.got
    let takes := s.loadReady = true ∧ 1 ≤ n ∧ n ≤ 64
    (¬takes → exec (.imgHloadWrite who v) s = .next s) ∧
    (takes → ∃ t me, exec (.imgHloadWrite who v) s = .next t ∧
      t = { s with mem := me, hostLoad := { got := s.hostLoad.got + 2048 * n, last := bit v 14, err := false } } ∧
      ∀ k, t.peek k = if base ≤ k ∧ k < base + 2048 * n then s.peek (0x70000000000 + (k - base)) else s.peek k)

/-- R453 to R458, R468, R470: staging an image, committing and discarding it, and host boot. -/
def Obligations.Image : Prop := Claims.ImageCommands ∧ Claims.HostLoads

/-- R463, R465 to R467: the steps K1 to K6 of a repair, and its end by ABORT. -/
def Sys2Proof.Claims.RepairDrains : Prop :=
  ∀ (s : State) (r : RepairRun) (d k : Nat), s.live = true → Calm s → Claims.Repairing s r d k →
    let next := fun (ok : Bool) => exec (.repairStepComplete ok) s
    (∀ ok, k = 1 → bit (s.reg Reg.DEVICE_MODE) 4 = true → next ok = .next s) ∧
    (∀ ok, k = 1 → bit (s.reg Reg.DEVICE_MODE) 4 = false →
      let stg := Claims.bankAt s (1 - Claims.active s)
      let held := bit (s.reg Reg.IMG_STAT) 8 = true ∧ Claims.word2 s stg (48 + 32 * d + 8) ≠ 0
      (r.staged = true → ¬held → ∃ t, next ok = .next t ∧ Claims.RepairOver s t 2 7 (Claims.backTo s r) ∧ t.mem = s.mem ∧
        t.logCount = (s.logCount + 1) % 65536 ∧ t.reg Reg.IMG_RPFAIL = satAdd (s.reg Reg.IMG_RPFAIL) 1) ∧
      (r.staged = false ∨ held → ∃ t, next ok = .next t ∧ Claims.OnlyStep s t (if r.wasOut then 6 else 2))) ∧
    (∀ ok, k = 2 → ∃ t, next ok = .next t ∧ Claims.AtStep s t 3 ∧ t.msgs = s.msgs ++ [.recallDrain d] ∧
      (t.die d).draining = true ∧ t.clerks = s.clerks) ∧
    (∀ ok, k = 3 → let parked := ∀ c, c < 128 → clerkDie c = d → s.parkedForSleep c = true
      (parked → (s.envelope.state = .applying → ∃ t, next ok = .next t ∧ Claims.OnlyStep s t 4) ∧ Claims.ListsAtK4 s (next ok) d) ∧
      (¬parked → next ok = .next s)) ∧
    (let past := k = 3 ∧ r.at_ + max 1 (s.reg Reg.IMG_DRAINT).toNat * 200000 ≤ s.now;
      (past → (s.envelope.state = .applying → ∃ t, exec .drainTimeout s = .next t ∧ Claims.OnlyStep s t 4) ∧
        Claims.ListsAtK4 s (exec .drainTimeout s) d) ∧ (¬past → exec .drainTimeout s = .next s)) ∧
    (∀ ok, k = 4 → (r.listed = false → (s.envelope.state = .applying → next ok = .next s) ∧ Claims.ListsAtK4 s (next ok) d) ∧
      (r.listed = true → (r.at_ + 4000 ≤ s.now → ∃ t, next ok = .next t ∧ Claims.OnlyStep s t 5) ∧
        (s.now < r.at_ + 4000 → next ok = .next s))) ∧
    (∀ ok, k = 5 → (s.moves = [] → ∃ t, next ok = .next t ∧ Claims.OnlyStep s t 6) ∧ (s.moves ≠ [] → next ok = .next s)) ∧
    (∀ ok, k = 6 → d < 8 → ∃ t, next ok = .next t ∧ t.inService d = false ∧ (∀ e, e ≠ d → e < 16 → bit (t.reg Reg.DEVICE_DIES) e = bit (s.reg Reg.DEVICE_DIES) e) ∧
      (t.die d).state = .reset ∧ (∀ e, e ≠ d → t.die e = s.die e) ∧ field (t.reg Reg.IMG_RPSTAT) 12 4 = 7 ∧
      field (t.reg Reg.IMG_STAT) 0 3 = (if field (s.reg Reg.IMG_STAT) 0 3 = 0 then 2 else field (s.reg Reg.IMG_STAT) 0 3) ∧
      (∀ c, clerkDie c = d → c < 128 → (t.clerk c).waiting = none) ∧ ∀ b, bagDie b = d → t.bag b = Bag.reset) ∧
    (∀ who : Requester, Reaches s who.val Reg.IMG_RPCTL → s.starting = false → s.envelope.state ≠ .applying →
      (k < 6 → s.fallback d false = [] → ∃ t, exec (.imgRpctlAbort who) s = .next t ∧ Claims.RepairOver s t 3 0 (Claims.backTo s r) ∧
        ∀ m, m ∈ t.moves ↔ m ∈ s.moves ∧ bagDie m.1 ≠ d) ∧
      (6 ≤ k → s.inService d = false → ∃ t, exec (.imgRpctlAbort who) s = .next t ∧ Claims.RepairOver s t 3 6 5 ∧
        (t.die d).state = .out ∧ t.inService d = false ∧ bit (t.reg Reg.DEVICE_DIES) (8 + d) = bit (s.reg Reg.DEVICE_DIES) (8 + d)) ∧
      (k = 6 → s.inService d = true → ∃ t, exec (.imgRpctlAbort who) s = .next t ∧ Claims.RepairOver s t 3 6 5 ∧
        (t.die d).state = .out ∧ t.inService d = false))

/-- R458, R465, R466: the steps K7 to K10: loading, self-test, bring-up, re-admission; a failure leaves the die declared out in
DEGRADED. -/
def Sys2Proof.Claims.RepairReadmits : Prop :=
  ∀ (s : State) (r : RepairRun) (d k : Nat), s.live = true → Calm s → Claims.Repairing s r d k → d < 8 →
    let next := fun (ok : Bool) => exec (.repairStepComplete ok) s
    let fails := fun (t : State) (cause : Nat) => Claims.RepairOver s t 2 cause 5 ∧ t.inService d = false ∧
      bit (t.reg Reg.DEVICE_DIES) (8 + d) = true ∧ (t.die d).state = .out ∧ t.reg Reg.IMG_RPFAIL = satAdd (s.reg Reg.IMG_RPFAIL) 1
    let bank := if r.staged then 1 - Claims.active s else Claims.active s
    (∀ ok, k = 7 → field (s.reg Reg.IMG_STAT) 0 3 = 1 → next ok = .next s) ∧
    (∀ ok, k = 7 → field (s.reg Reg.IMG_STAT) 0 3 ≠ 1 → s.hasSlice (s.bankKey bank) d = true → ¬Claims.loaderMay s →
      next ok = .next (s.noteWait (Claims.loaderRt s) 1)) ∧
    (∀ ok u, k = 7 → field (s.reg Reg.IMG_STAT) 0 3 ≠ 1 → s.loaderPays (s.sliceBursts bank d) = some u →
      s.hasSlice (s.bankKey bank) d = true → (s.die d).state ≠ .out → let load := u.configureDie d bank
      (load.2 = 0 → ∃ t, next ok = .next t ∧ field (t.reg Reg.IMG_RPSTAT) 12 4 = 8 ∧ bit (t.reg Reg.IMG_DIEBANK) d = r.staged ∧
        field (t.reg Reg.IMG_STAT) 0 3 = 0) ∧
      (load.2 ≠ 0 → load.1 = u → ∃ t, next ok = .next t ∧ fails t load.2) ∧
      (s.digestOk (s.bankKey bank) d = false → s.ddrBad = [] → Claims.isOn s 51 = true → Claims.isOn s 52 = true → load = (u, 2))) ∧
    (k = 8 → (∃ t, next true = .next t ∧ field (t.reg Reg.IMG_RPSTAT) 12 4 = 9 ∧ (t.die d).state = .train ∧ (t.die d).running = true ∧
        ∀ e, e ≠ d → t.die e = s.die e) ∧
      ((s.die d).state ≠ .out → ∃ t, next false = .next t ∧ fails t 4)) ∧
    (∀ ok, k = 9 →
      (s.inService d = true → s.envelope.state ≠ .applying → s.fallback d false = [] → ∃ t, next ok = .next t ∧
        field (t.reg Reg.IMG_RPSTAT) 12 4 = 10 ∧ bit (t.reg Reg.DEVICE_MODE) 4 = true ∧ t.mode = 6) ∧
      (s.inService d = false → (s.die d).state ≠ .out → s.linking = true → next ok = .next s) ∧
      (s.inService d = false → (s.die d).state ≠ .out → s.linking = false → ∃ t, next ok = .next t ∧ fails t 5)) ∧
    (∀ ok, k = 10 → (s.moves ≠ [] → next ok = .next s) ∧
      (s.moves = [] → ∃ t, next ok = .next t ∧ t.reg Reg.IMG_RPCNT = satAdd (s.reg Reg.IMG_RPCNT) 1 ∧
        Claims.RepairOver s t 1 0 (if (s.reg Reg.DEVICE_DIES).toNat % 256 = 255 then 4 else 5)))
/-! ## Resets and start-up -/

/-- R458, R463, R465 to R467: the steps of the repair of a die and the moves of its mailbags. -/
def Obligations.Repair : Prop := Claims.RepairDrains ∧ Claims.RepairReadmits

namespace Sys2Proof.Claims

/-- AON registers, which PORST_N keeps (R388, R473). -/
def aonReg (k : Nat) : Prop := 0x4200 ≤ k ∧ k < 0x4300
/-- Memory that PORST_N keeps: the code stores, the AON SRAM, the boot flash, host memory (R64, R388, R473). -/
def keptCell (k : Nat) : Prop :=
  (codeKey 0 0 ≤ k ∧ k < ddrKey 0) ∨ (aonKey 0 ≤ k ∧ k < corrKey 0 0) ∨ (flashKey 0 ≤ k ∧ k < loadKey 0) ∨ hostKey 0 ≤ k
/-- What the device is after PORST_N went low, or after HUB reset (R16, R90, R473). -/
def PoweredDown (s t : State) : Prop :=
  t.pending = s.pending ∧ t.vaon = s.vaon ∧ (∀ k, t.reg k = if 0x4200 ≤ k ∧ k < 0x4300 then s.reg k else State.reset.reg k) ∧
    (∀ k, keptCell k → t.peek k = s.peek k) ∧ (∀ k, ¬keptCell k → t.peek k = 0) ∧ (∀ c, t.clerk c = Clerk.reset) ∧
    (∀ n, t.bag n = Bag.reset) ∧ (∀ d, t.die d = Die.reset) ∧ t.pads = [] ∧ t.msgs = [] ∧ t.holes = [] ∧ t.envelope.state = .idle ∧
    t.stage = [] ∧ t.sels = [] ∧ t.faultLog = s.faultLog ∧ t.logCount = s.logCount ∧ t.aonTime = s.aonTime ∧ t.otpArb = s.otpArb
/-- The START record of a failure: its code and step (R485, R492). -/
def StartRecord (s t : State) (code step : Nat) : Prop :=
  t.logCount = (s.logCount + 1) % 65536 ∧
    ∃ r, t.faultLog.find? (s.logCount % 64) = some r ∧ r.take 2 = [mod16 ((0x5000 + code : Nat)), mod16 (step : Nat)]
/-- The image that start-up takes: of the flash, or of the host (R456). -/
def bootImage (s : State) : Nat := if s.hostBoot then loadKey 0 else flashKey 0
/-- Die `d` stays out at start-up (R480). -/
def StaysOut (s t : State) (d : Nat) : Prop :=
  (t.die d).state = .out ∧ t.inService d = false ∧ bit (t.reg Reg.DEVICE_DIES) (8 + d) = true ∧
    ∀ e, e < 16 → e ≠ d → e ≠ 8 + d → bit (t.reg Reg.DEVICE_DIES) e = bit (s.reg Reg.DEVICE_DIES) e

end Sys2Proof.Claims

/-- R90, R218, R385, R388, R459, R460, R473 to R475: VAON, PORST_N, and the reset of one die. -/
def Obligations.Resets : Prop :=
  ∀ s : State,
    (∃ t, exec .porstNLow s = .next t ∧ t.phase = .off ∧ Claims.PoweredDown s t) ∧
    (∀ boot smb : Fin 4, (s.phase ≠ .off ∨ s.vaon = false → exec (.porstNRelease boot smb) s = .next s) ∧
      (s.phase = .off → s.vaon = true → ∃ t rg, exec (.porstNRelease boot smb) s = .next t ∧
        t = { s with phase := .starting 1, now := 0, strapBoot := boot.val, strapSmb := smb.val, regs := rg } ∧
        t.reg Reg.AON_SYNCAXL = 0 ∧ t.reg Reg.AON_SYNCAXH = 0 ∧ ∀ k, k < Reg.AON_SYNCTL ∨ Reg.AON_SYNCAXH < k → t.reg k = s.reg k)) ∧
    (∃ t, exec .vaonLoss s = .next t ∧ t.phase = .off ∧ t.vaon = false ∧ (∀ k, t.reg k = State.reset.reg k) ∧ t.faultLog = [] ∧ t.logCount = 0 ∧
      t.aonTime = 0 ∧ (∀ c, t.clerk c = Clerk.reset) ∧ (∀ k, aonKey 0 ≤ k → k < corrKey 0 0 → t.peek k = 0) ∧
      ∀ k, codeKey 0 0 ≤ k → k < ddrKey 0 → t.peek k = s.peek k) ∧
    (s.vaon = true → exec .vaonApplied s = .next s) ∧
    (s.vaon = false → ∃ t, exec .vaonApplied s = .next t ∧ t.vaon = true ∧ t.phase = s.phase ∧ t.aonTime = 0 ∧ t.logCount = 0 ∧
      (∀ k, t.reg k = State.reset.reg k) ∧ t.otpArb = s.otpArb) ∧
    (∀ d : DieId, s.live = true → Calm s →
      let reset := exec (.dieReset d) s
      let fresh := fun (t : State) => (∀ c, clerkDie c = d.val → c < 128 → t.clerk c = Clerk.reset) ∧
        (∀ c, clerkDie c ≠ d.val → t.clerk c = s.clerk c) ∧ (∀ b, bagDie b = d.val → t.bag b = Bag.reset) ∧
        (∀ b, bagDie b ≠ d.val → t.bag b = s.bag b) ∧ t.inService d.val = false ∧
        (isSort d.val = true → Msg.recallDie d.val ∈ t.msgs)
      (d.val = 0 ∨ s.phase ≠ .awake ∨ s.repairing = true → reset = .next s) ∧
      (d.val ≠ 0 → s.phase = .awake → s.repairing = false →
        let u := (s.clearDie d.val).modReg Reg.DEVICE_DIES fun w => putField w d.val 1 0
        let bank := if bit (s.reg Reg.IMG_DIEBANK) d.val then 1 - Claims.active s else Claims.active s
        let v := (u.loaderPays (u.sliceBursts bank d.val)).getD u
        let load := v.configureDie d.val bank
        (load.2 = 0 → (s.die d.val).state ≠ .out → ∃ t, reset = .next t ∧ fresh t ∧ (t.die d.val).state = .train ∧
          (t.die d.val).running = true ∧ ∀ e, e ≠ d.val → t.die e = s.die e) ∧
        (load.2 = 0 → (s.die d.val).state = .out → ∃ t, reset = .next t ∧ fresh t ∧ (t.die d.val).state = .out) ∧
        (load = (v, 2) → (s.die d.val).state ≠ .out → s.envelope.state = .applying → ∃ t, reset = .next t ∧ fresh t ∧
          (t.die d.val).state = .out ∧ bit (t.reg Reg.DEVICE_DIES) (8 + d.val) = true)))

/-- R410, R474 to R486: the steps J1 to J6 of start-up, with the failures that stop it in BOOTHOLD or go on from the host. -/
def Sys2Proof.Claims.StartUpLoads : Prop :=
  ∀ (s : State) (trng flash : Bool) (fails : List (Fin 4 × Fin 8)) (rails pl0 : BitVec 4), Calm s →
    let next := exec (.startStepComplete trng flash fails rails pl0) s
    let b := Claims.bootImage s
    let stops := fun (t : State) (code step : Nat) => t.phase = .bootHold ∧ Claims.StartRecord s t code step ∧ t.clerks = s.clerks
    let magic := s.peek b = 0x5649 ∧ s.peek (b + 1) = 0x534B
    ((∀ k, 1 ≤ k → k ≤ 11 → s.phase ≠ .starting k) → next = .next s) ∧
    (s.phase = .starting 1 → (s.strapBoot ≠ 3 → next = .next { s with phase := .starting 2 }) ∧
      (s.strapBoot = 3 → ∃ t, next = .next t ∧ stops t 1 1)) ∧
    (s.phase = .starting 2 →
      (Config.otpKeyHash = none ∨ trng = false → ∃ t, next = .next t ∧ stops t 2 2) ∧
      (Config.otpKeyHash ≠ none → trng = true → (s.strapBoot ≠ 1 → next = .next { s with phase := .starting 3 }) ∧
        (s.strapBoot = 1 → ∃ t, next = .next t ∧ t.phase = .starting 3 ∧ t.hostBoot = true ∧ bit (t.reg Reg.HOST_CFG) 15 = true ∧
          bit (t.reg (Reg.PWR_ON 3)) 2 = true))) ∧
    (s.phase = .starting 3 →
      (s.hostBoot = true → s.hostLoad.got < 512 → next = .next s) ∧
      (s.hostBoot = false → flash = false ∨ ¬magic → (s.strapBoot ≠ 2 → ∃ t, next = .next t ∧ stops t 3 3) ∧
        (s.strapBoot = 2 → ∃ t, next = .next t ∧ t.phase = .starting 3 ∧ t.hostBoot = true ∧ Claims.StartRecord s t 3 3 ∧
          bit (t.reg Reg.HOST_CFG) 15 = true)) ∧
      (s.hostBoot = false ∨ 512 ≤ s.hostLoad.got → (s.hostBoot = true ∨ flash = true) → Claims.headerGood s b →
        next = .next { s with phase := .starting 4 }) ∧
      (s.hostBoot = false ∨ 512 ≤ s.hostLoad.got → (s.hostBoot = true ∨ (flash = true ∧ magic)) → ¬Claims.headerGood s b →
        ∃ t, next = .next t ∧ Claims.StartRecord s t 4 3 ∧ (s.hostBoot = true ∨ s.strapBoot ≠ 2 → t.reg Reg.IMG_AUTHFAIL = satAdd (s.reg Reg.IMG_AUTHFAIL) 1) ∧
          (s.hostBoot = true → t.phase = .starting 3 ∧ t.hostLoad = { got := 0, last := false, err := true }) ∧
          (s.hostBoot = false → s.strapBoot ≠ 2 → t.phase = .bootHold) ∧
          (s.hostBoot = false → s.strapBoot = 2 → t.phase = .starting 3 ∧ t.hostBoot = true))) ∧
    (s.phase = .starting 4 → s.hostBoot = false →
      let stop := s.sliceOff b 0 + s.sliceLen b 0 / 2
      (2097152 < stop → s.strapBoot ≠ 2 → ∃ t, next = .next t ∧ stops t 5 4) ∧
      (stop ≤ 2097152 → flash = true → s.digestOk b 0 = false → s.strapBoot ≠ 2 → ∃ t, next = .next t ∧ stops t 4 4 ∧
        field (t.reg Reg.IMG_STAT) 4 4 = 7) ∧
      (∀ u, stop ≤ 2097152 → flash = true → s.digestOk b 0 = true → s.loadSlice b 0 = some u → u.imgTotal b / 2 ≤ u.bankWords →
        u.fbPend = [] → (∀ c, (u.clerk c).waiting = none) → ∃ t, next = .next t ∧ t.phase = .starting 5 ∧ t.inService 0 = true ∧ (t.die 0).running = true ∧ t.mode = u.mode)) ∧
    (s.phase = .starting 5 → fails = [] → let w := (s.reg Reg.DDR_CFG).toNat % 16
      w = 15 ∨ w = 3 ∨ w = 1 → ∃ t, next = .next t ∧
        (∀ ch, ch < 4 → w.testBit ch = true → field (t.reg (Reg.DDR_CHSTAT ch)) 0 3 = 2) ∧ (t.reg Reg.DDR_CFG).toNat % 16 = w ∧
        (∀ a, a < 2 ^ 38 → t.peek (ddrKey a) = 0) ∧ t.ddrBad = [] ∧
        (t.regionTop ≤ t.ddrCap → t.phase = .starting 6) ∧ (t.ddrCap < t.regionTop → t.phase = .bootHold ∧ Claims.StartRecord s t 7 5)) ∧
    (s.phase = .starting 6 → s.hostBoot = false → (flash = false → ∃ t, next = .next t ∧ stops t 3 6) ∧
      (flash = true → let n := Claims.word2 s b 12 / 2
        let dst := s.bankKey 0
        n ≤ 2 ^ 27 → (b + n ≤ dst ∨ dst + n ≤ b) → ∃ t, next = .next t ∧
        (∀ k, dst ≤ k → k < dst + n → t.peek k = s.peek (b + (k - dst))) ∧
        (t.digestsOk dst = false → stops t 4 6) ∧
        (t.digestsOk dst = true → t.phase = .starting 7 ∧ bit (t.reg Reg.IMG_STAT) 9 = false ∧ Claims.shows t t dst Reg.IMG_IDL ∧ t.fromFlash = true)))

/-- R16, R265, R329, R479 to R482, R485: the steps J7 to J11 of start-up: rails, dies, bring-up, OUT lists, READY. -/
def Sys2Proof.Claims.StartUpBringsUp : Prop :=
  ∀ (s : State) (trng flash : Bool) (fails : List (Fin 4 × Fin 8)) (rails pl0 : BitVec 4), Calm s →
    let next := exec (.startStepComplete trng flash fails rails pl0) s
    (s.phase = .starting 7 → (∀ n, n < 4 → ∃ k, s.sortRail n = some k) → ∃ t, next = .next t ∧ t.phase = .starting 8 ∧
      ∀ n, n < 4 → let m := (s.reg (Reg.PWR_PLMAX n)).toNat % 8
        let level := (t.reg (Reg.PWR_PL n)).toNat % 8
        let k := (s.sortRail n).getD 0
        (rails.getLsbD n = true → level = m ∧ field (t.reg (Reg.PWR_PL n)) 4 3 = m ∧ (t.die (3 + n)) = s.die (3 + n)) ∧
        (rails.getLsbD n = false → pl0.getLsbD n = true → level = 0 ∧ bit (t.reg Reg.PWR_STAT) 13 = true) ∧
        (rails.getLsbD n = false → pl0.getLsbD n = false → (t.die (3 + n)).state = .out ∧ t.inService (3 + n) = false ∧
          bit (t.reg Reg.DEVICE_DIES) (11 + n) = true) ∧
        t.pmbCmd.find? k = some (0x21, Claims.voutCommand s k m)) ∧
    (∀ d, s.phase = .starting 8 → s.wake = none → 1 ≤ d → d < 8 →
      (∀ e, 1 ≤ e → e < 8 → e ≠ d → (s.die e).state = .out) → (s.die d).state ≠ .out →
      let k := s.bankKey 0
      (s.hasSlice k d = false → ∃ t, next = .next t ∧ t.phase = .starting 9 ∧ Claims.StaysOut s t d ∧ Claims.StartRecord s t 0x12 8) ∧
      (s.hasSlice k d = true → (s.configureDie d 0).2 = 0 → ∃ t, next = .next t ∧ t.phase = .starting 9 ∧ (t.die d).state = .train ∧
        (t.die d).running = true) ∧
      (s.hasSlice k d = true → s.configureDie d 0 = (s, 2) → ∃ t, next = .next t ∧ t.phase = .starting 9 ∧ Claims.StaysOut s t d ∧
        Claims.StartRecord s t 0x13 8)) ∧
    (s.phase = .starting 9 → (s.linking = true → next = .next s) ∧
      (s.linking = false → (∀ d, 1 ≤ d → d < 8 → (s.die d).state = .inService) → next = .next { s with phase := .starting 10 }) ∧
      (∀ d, s.linking = false → 1 ≤ d → d < 8 → (s.die d).state ≠ .out → (s.die d).state ≠ .inService →
        (∀ e, 1 ≤ e → e < 8 → e ≠ d → (s.die e).state = .inService) → ∃ t, next = .next t ∧ t.phase = .starting 10 ∧
        Claims.StaysOut s t d ∧ Claims.StartRecord s t 0x14 9)) ∧
    (s.phase = .starting 10 → (s.envelope.state = .applying → next = .next s) ∧
      (s.envelope.state ≠ .applying → (∀ d, 1 ≤ d → d < 8 → s.inService d = false → s.fallback d true = []) →
        ∃ t st se, next = .next t ∧ t = { s with phase := .starting 11, stage := st, sels := se } ∧ Claims.OwnStage s t)) ∧
    (s.phase = .starting 11 → ∃ t, next = .next t ∧ t.phase = .awake ∧ t.mode = 3 ∧ bit (t.reg Reg.DEVICE_MODE) 4 = false ∧
      (s.globalEvs.getD 0x7A GlobalEv.reset = GlobalEv.reset → Claims.eventsGo s 0 →
        (t.globalEvs.getD 0x7A GlobalEv.reset).sentUs = some s.refUs ∧ ∀ m ∈ Claims.parcels s 0x7A 1 false, m ∈ t.msgs) ∧
      t.clerks = s.clerks ∧ t.mem = s.mem ∧ (s.wake ≠ none → bit (t.reg Reg.AON_STAT) 15 = true))
/-! ## Faults and service -/

/-- R16, R265, R329, R410, R474 to R486: the steps of start-up. -/
def Obligations.StartUp : Prop := Claims.StartUpLoads ∧ Claims.StartUpBringsUp

namespace Sys2Proof.Claims

/-- Window of a resource of a class (R488). -/
def windowOf (s : State) (cls idx : Nat) : FaultWin := s.faultWins.getD (65536 * cls + idx) FaultWin.reset
/-- The event opens a new window: none is open, or its length in ms of REF time has passed (R488). -/
def newWindow (s : State) (cls idx : Nat) : Prop :=
  (windowOf s cls idx).count = 0 ∨ (windowOf s cls idx).start + max 1 (s.reg (Reg.FW_WIN cls)).toNat * 200000 ≤ s.now
/-- Counter of a dead-letter cause (R490). -/
def letterCounter : Nat → Nat
  | 1 => 0 | 2 => 1 | 3 => 2 | 4 => 2 | 5 => 3 | 6 => 4 | 7 => 5 | 8 => 6 | 9 => 7 | 10 => 8 | 11 => 9 | 12 => 10 | 13 => 11
  | 14 => 12 | 15 => 13 | 16 => 14 | _ => 15
/-- The clerk that a write of ERR_RESTART names (R498). -/
def restartClerk (v : Word) : Nat := if v.toNat / 128 % 2 = 1 then 128 + v.toNat % 2 else v.toNat % 128
/-- Word `i` of the service digest once HUB has written it (R494): those that show a register or a count. -/
def digestWord (s : State) (i : Nat) : Option Word :=
  let r := s.reg
  let three := [r Reg.DEVICE_ID, r Reg.DEVICE_REV]
  if i = 1 ∨ i = 2 then some (three.getD (i - 1) 0)
  else if 5 ≤ i ∧ i < 10 then some ([r Reg.IMG_IDL, r Reg.IMG_IDH, r Reg.IMG_VER0, r Reg.IMG_VER1, r Reg.IMG_ARB].getD (i - 5) 0)
  else if i = 4 then some (mod16 ((r Reg.DEVICE_DIES).toNat / 256))
  else if 16 ≤ i ∧ i < 20 then some (r (Reg.WAKE_RECORD (i - 16)))
  else if 20 ≤ i ∧ i < 24 then some (r (Reg.ENTRY_RECORD (i - 20)))
  else if 24 ≤ i ∧ i < 27 then some (mod16 ((s.aonTime / 65536 ^ (i - 24) : Nat)))
  else if i = 27 then some (r Reg.AON_SLEEPCNT)
  else if i = 28 then some (r Reg.AON_WAKECNT)
  else if i = 29 then some (mod16 (s.logCount : Nat))
  else if 32 ≤ i ∧ i < 48 then some (r (Reg.DLO_CNT (i - 32)))
  else if 48 ≤ i ∧ i < 54 then some (r (Reg.FW_LAST (i - 48)))
  else if 54 ≤ i ∧ i < 59 then some (r (Reg.AON_SYNCTL + (i - 54)))
  else if 113 ≤ i ∧ i < 120 then
    some ([r Reg.FE_SAFECNT, r Reg.OB_STALE, r Reg.OB_LATE, r Reg.CS_PVCNT, r Reg.CS_REJECTED, r Reg.IMG_AUTHFAIL, r Reg.IMG_RPFAIL].getD (i - 113) 0)
  else if 120 ≤ i ∧ i < 124 then some (r (Reg.PWR_PL (i - 120)))
  else if i = 124 then some (r Reg.PWR_STAT)
  else if i = 30 ∨ i = 31 ∨ (59 ≤ i ∧ i < 64) ∨ (125 ≤ i ∧ i < 128) then some 0
  else none
/-- The newest record of the AON fault log but `i` (R492). -/
def newest (s : State) (i : Nat) : List Word := s.faultLog.getD ((s.logCount + 65535 - i) % 65536 % 64) []

end Sys2Proof.Claims

/-- R488 to R491, R496, R498: fault windows and the LASTING mark, the dead-letter office, the restart of a halted clerk, the digest
words by port. -/
def Sys2Proof.Claims.FaultsCount : Prop :=
  ∀ s : State, s.live = true →
    ((∀ m ∈ s.msgs, ∀ c i, m ≠ .fwEvent c i) → exec .faultWindowEvent s = .next s) ∧
    (∀ cls idx u, Claims.Arrives s (fun m => match m with | .fwEvent _ _ => true | _ => false) (.fwEvent cls idx) u → cls < 6 → idx < 65536 →
      let w := Claims.windowOf s cls idx
      let n := max 1 ((s.reg (Reg.FW_CFG cls)).toNat % 256)
      ∃ t first count, exec .faultWindowEvent s = .next t ∧
        (Claims.newWindow s cls idx → first = s.now ∧ count = 1) ∧ (¬Claims.newWindow s cls idx → first = w.start ∧ count = w.count + 1) ∧
        (count < n ∨ w.lasting = true → (∃ fw, t = { u with faultWins := fw }) ∧
          Claims.windowOf t cls idx = { w with start := first, count := count } ∧
          ∀ c i, (c, i) ≠ (cls, idx) → c < 6 → i < 65536 → Claims.windowOf t c i = Claims.windowOf s c i) ∧
        (n ≤ count → w.lasting = false → cls = 0 ∨ cls = 2 → bit (s.reg (Reg.FW_CFG cls)) 15 = false →
          (Claims.windowOf t cls idx).lasting = true ∧ t.reg (Reg.FW_LAST cls) = satAdd (s.reg (Reg.FW_LAST cls)) 1 ∧
          bit (t.reg Reg.ERR_STAT) 15 = true ∧ t.logCount = (s.logCount + 1) % 65536 ∧
          (∃ r, t.faultLog.find? (s.logCount % 64) = some r ∧ r.getD 0 0 = Claims.mod16 ((0x1000 + 256 * cls : Nat)) ∧
            (cls = 2 → r.getD 1 0 = Claims.mod16 (idx : Nat))) ∧
          (s.globalEvs.getD 0x7B GlobalEv.reset = GlobalEv.reset → Claims.eventsGo u 0 → ∀ m ∈ Claims.parcels s 0x7B 1 false, m ∈ t.msgs) ∧
          (cls = 0 → bit (s.reg Reg.DDR_PPRCFG) 15 = true → Msg.ppr idx ∈ t.msgs) ∧ t.clerks = s.clerks ∧ t.mem = s.mem)) ∧
    ((∀ m ∈ s.msgs, ∀ c d w, m ≠ .dead c d w) → exec .deadLetterReport s = .next s) ∧
    (∀ cause d w u, Claims.Arrives s (fun m => match m with | .dead _ _ _ => true | _ => false) (.dead cause d w) u → 1 ≤ cause → cause ≤ 17 → d < 8 →
      let k := Reg.DLO_CNT (Claims.letterCounter cause)
      ∃ t rg, exec .deadLetterReport s = .next t ∧ t = { u with regs := rg, deadCaps := (if s.deadCaps.length < 8 then
          s.deadCaps ++ [Claims.mod16 ((256 * cause + 32 * d : Nat)) :: w] else s.deadCaps) } ∧
        t.reg k = satAdd (s.reg k) 1 ∧ t.reg Reg.ERR_STAT = s.reg Reg.ERR_STAT ||| 0x4000 ∧
        ∀ j, j ≠ k → j ≠ Reg.ERR_STAT → t.reg j = s.reg j) ∧
    (∀ (who : Requester) (v : Word), isParty who.val = true → Calm s →
      let c := Claims.restartClerk v
      let k := s.clerk c
      let goes := bit v 15 = true ∧ (v.toNat / 128 % 2 = 1 → v.toNat % 128 < 2) ∧ k.halted = true ∧ k.dbgHalt = false
      (¬goes → exec (.errRestart who v) s = .next s) ∧
      (∀ i, goes → s.bags = [] → s.msgs = [] → k.journal = [] → k.old = some i → k.deferred = none → i < 4 → (k.slot i).gen < 128 →
        (∀ j, j < 4 → k.slotOpen j = (j == i)) → ∃ t, exec (.errRestart who v) s = .next t ∧ (t.clerk c).halted = false ∧
        t.reg (Reg.EP_LASTRC c) = Claims.mod16 ((0x8900 + 8192 * i + (k.slot i).gen : Nat)) ∧
        t.reg (Reg.EP_RECALLCNT c) = satAdd (s.reg (Reg.EP_RECALLCNT c)) 1 ∧ ∀ j, j < 4 → (t.clerk c).slotOpen j = false) ∧
      (goes → (∀ i, i < 4 → k.slotOpen i = false) → ∃ t ms cl ep, exec (.errRestart who v) s = .next t ∧
        t = { s with msgs := ms, clerks := cl, epochs := ep } ∧ (∀ e, e ≠ c → t.clerk e = s.clerk e) ∧
        let f := t.clerk c
        f.halted = false ∧ f.w = Clerk.reset.w ∧ f.s = Clerk.reset.s ∧ f.a = Clerk.reset.a ∧ f.pc = 0 ∧ f.status = 0x600F ∧ f.ctx = 0 ∧
          f.excCause = 0 ∧ f.excVec = 0x40 ∧ f.isp = 0 ∧ f.rpt = 0 ∧ f.pl = 0 ∧ f.ph = 0 ∧ f.waiting = none ∧
          ∀ i, i < 4 → (f.slot i).gen = (k.slot i).gen)) ∧
    (∀ who : Requester, isParty who.val = true → (who.val < 130 → (s.clerk who.val).ep = false) →
      let own := ownKey who.val Reg.ERR_DIGSEL
      ∃ t se, exec (.errDigdataRead who) s = .next t ∧ t = { s with sels := se } ∧
        (t.sels.getD own 0).toNat = ((s.sels.getD own 0).toNat % 128 + 1) % 128 ∧ ∀ k d, k ≠ own → se.getD k d = s.sels.getD k d)

/-- R386, R494, R530: the digest is updated each millisecond while awake, by AON as its records change while asleep; the responder
latches a page at the command byte; a bus timeout drops the transaction. -/
def Sys2Proof.Claims.Digest : Prop :=
  ∀ s : State,
    (s.phase = .off → exec .digestUpdate s = .next s) ∧
    (s.phase = .awake → s.digestMs = s.now / 200000 → exec .digestUpdate s = .next s) ∧
    (s.phase = .awake ∧ s.digestMs ≠ s.now / 200000 ∨ s.phase = .bootHold → ∃ t dg, exec .digestUpdate s = .next t ∧
      t = { s with digest := dg, digestMs := s.now / 200000 } ∧ dg.length = 128 ∧ dg.getD 0 0 = s.digest.getD 0 0 + 1 ∧
      (dg.getD 3 0).toNat = (if s.phase = .awake then s.mode else 8) * 4096 + (s.reg Reg.DEVICE_DIES).toNat % 256 ∧
      (∀ i, i < 128 → ∀ w, Claims.digestWord s i = some w → dg.getD i 0 = w) ∧
      (∀ i, i < 8 → i < s.logCount → s.logCount < 65536 → ∀ j, j < 6 → dg.getD (64 + 6 * i + j) 0 = (Claims.newest s i).getD j 0)) ∧
    (s.phase = .dormant ∨ s.phase = .isSealed → s.digest.length = 128 →
      let same := ∀ i, 16 ≤ i → i < 30 → Claims.digestWord s i = some (s.digest.getD i 0)
      (same → exec .digestUpdate s = .next s) ∧
      (¬same → ∃ t dg, exec .digestUpdate s = .next t ∧ t = { s with digest := dg } ∧ dg.getD 0 0 = s.digest.getD 0 0 + 1 ∧
        (∀ i, 16 ≤ i → i < 30 → Claims.digestWord s i = some (dg.getD i 0)) ∧
        ∀ i, i ≠ 0 → i < 16 ∨ 30 ≤ i → dg.getD i 0 = s.digest.getD i 0)) ∧
    (∀ k : Fin 8, (s.vaon = false → exec (.smbusDigest k) s = .next s) ∧
      (s.vaon = true → exec (.smbusDigest k) s = .next { s with smbReply := (s.digest.drop (16 * k.val)).take 16 })) ∧
    (s.phase = .awake → exec .smbusBusTimeout s = .next { s with smbReply := [] }) ∧
    (s.phase ≠ .awake → exec .smbusBusTimeout s = .next s)
/-! ## Debug and boundary scan -/

/-- R386, R488 to R491, R494, R496, R498, R530: fault windows, dead letters, restarts and the service digest. -/
def Obligations.Service : Prop := Claims.FaultsCount ∧ Claims.Digest

namespace Sys2Proof.Claims

/-- The answer of DBG_DATA: DONE, ERR and the word (R497). -/
def answered (s : State) (err : Bool) (v : Word) : State :=
  { s with tap := { s.tap with ir := 0x10, done := true, err := err, data := v } }
/-- READY or SERVICE (R497). -/
def control (s : State) : Prop := s.live = true ∧ (s.mode = 3 ∨ s.mode = 7)
/-- The clerk is replaced, and the command answered without error. -/
def does (s : State) (c : Nat) (k : Clerk) : State := answered (s.setClerk c k) false 0
/-- Registers that RDREG and WRREG name whose value is the clerk's alone: Wn, a lane of Sn, RPT, ISP, the exception PC, the
exception vector, the PC (R497). -/
def dbgValue (k : Clerk) (n : Nat) : Option Word :=
  if n < 16 then some (if n = 0 then 0 else k.w.toList.getD n 0)
  else if n < 0x90 then some ((k.s.toList.getD ((n - 16) / 8) (Sheet.ofList [])).lane (n % 8))
  else if n = 0xF0 then some k.status
  else if n = 0xF1 then some k.isp
  else if n = 0xF2 then some k.excCause
  else if n = 0xF3 then some (k.excPc.setWidth 16)
  else if n = 0xF4 then some ((k.excPc >>> 16).setWidth 16)
  else if n = 0xF5 then some (k.excVec.setWidth 16)
  else if n = 0xF6 then some ((k.excVec >>> 16).setWidth 16)
  else if n = 0xF7 then some (k.ctx.setWidth 16)
  else if n = 0xF8 then some k.rpt
  else if n = 0xFB then some (k.pc.setWidth 16)
  else if n = 0xFC then some ((k.pc >>> 16).setWidth 16)
  else none
/-- The clerk with such a register written (R497); STATUS, CTX and the products apart. -/
def dbgSet (k : Clerk) (n : Nat) (v : Word) : Option Clerk :=
  if n = 0 then some k
  else if n < 16 then some (k.ww ⟨n % 16, Nat.mod_lt _ (by decide)⟩ v)
  else if n < 0x90 then
    some (k.ws ⟨(n - 16) / 8 % 16, Nat.mod_lt _ (by decide)⟩ (Sheet.gen fun i => if i = n % 8 then v else (k.rs ⟨(n - 16) / 8 % 16, Nat.mod_lt _ (by decide)⟩).lane i))
  else if n = 0xF1 then some { k with isp := v }
  else if n = 0xF2 then some { k with excCause := k.excCause &&& ~~~(v &&& 0x8000) }
  else if n = 0xF3 then some { k with excPc := BitVec.ofNat 20 (k.excPc.toNat / 65536 * 65536 + v.toNat) }
  else if n = 0xF8 then some { k with rpt := v }
  else if n = 0xFB then some { k with pc := BitVec.ofNat 20 (k.pc.toNat / 65536 * 65536 + v.toNat), rep := none }
  else if n = 0xFC then some { k with pc := BitVec.ofNat 20 (v.toNat % 16 * 65536 + k.pc.toNat % 65536), rep := none }
  else none
/-- What the TAP's boundary register holds for pad `n`: 64 firing pads, then 32 GPIO pads. -/
def pads (fire : BitVec 64) (gpio : BitVec 32) (n : Nat) : Bool := if n < 64 then fire.getLsbD n else gpio.getLsbD (n - 64)

end Sys2Proof.Claims

/-- R91, R131, R159, R189, R497: HALT, RESUME, STEP, register, memory and port accesses, ARM: what each does to a clerk where the
mode and the clerk permit it, and ERR with nothing changed where not. Here no recall waits for the clerk. -/
def Sys2Proof.Claims.DebugPort : Prop :=
  ∀ (s : State) (c : ClerkId),
    let k := s.clerk c.val
    let err := Host.Outcome.next (Claims.answered s true 0)
    let free := Claims.control s ∧ k.halted = false
    let held := free ∧ k.dbgHalt = true
    let reads := s.live = true ∧ (k.dbgHalt = true ∨ k.halted = true)
    (¬free → exec (.halt c) s = err ∧ exec (.arm c) s = err ∧ exec (.disarm c) s = err) ∧
    (free → exec (.arm c) s = .next (Claims.does s c.val { k with armed := true }) ∧
      exec (.disarm c) s = .next (Claims.does s c.val { k with armed := false })) ∧
    (free → k.dbgHalt = true → exec (.halt c) s = .next (Claims.answered s false 0)) ∧
    (free → k.dbgHalt = false → k.haltable = false → exec (.halt c) s = .next (Claims.does s c.val { k with haltReq := true })) ∧
    (free → k.dbgHalt = false → k.waiting = none → k.rep = none → k.shadow = [] → ∃ t, exec (.halt c) s = .next t ∧
      (t.clerk c.val).dbgHalt = true ∧ (t.clerk c.val).pc = k.pc ∧ (t.clerk c.val).w = k.w ∧ (t.clerk c.val).status = k.status ∧
      t.mem = s.mem ∧ t.regs = s.regs ∧ ∀ e, e ≠ c.val → t.clerk e = s.clerk e) ∧
    (k.deferred = none → (s.live = true ∧ k.halted = false ∧ k.dbgHalt = true →
        exec (.resume c) s = .next (Claims.does s c.val { k with dbgHalt := false, haltReq := false })) ∧
      (held → exec (.step c) s = .next (Claims.does s c.val { k with dbgHalt := false, haltReq := false, stepping := true }))) ∧
    (¬(s.live = true ∧ k.halted = false ∧ k.dbgHalt = true) → exec (.resume c) s = err) ∧
    (¬held → exec (.step c) s = err) ∧
    (∀ arg v : Word,
      let rd := exec (.rdreg c arg) s
      let wr := exec (.wrreg c arg v) s
      let known := arg.toNat < 0xFD ∨ (0x100 ≤ arg.toNat ∧ arg.toNat < 0x110)
      (¬(reads ∧ known) → rd = err) ∧ (¬(held ∧ known) → wr = err) ∧
      (reads → known → ∃ x, rd = .next (Claims.answered s false x) ∧ (∀ y, Claims.dbgValue k arg.toNat = some y → x = y)) ∧
      (held → ∀ f, Claims.dbgSet k arg.toNat v = some f → wr = .next (Claims.does s c.val f)) ∧
      (held → arg = 0xF0 → bit v 11 = true → bit v 10 = true → wr = err) ∧
      (held → arg = 0xF0 → v &&& 0x0C00 ≠ 0x0C00 → (v ^^^ k.status) &&& 0x6C00 = 0 → k.ctx = 0 → ∃ t, wr = .next t ∧
        (t.clerk c.val).status = (k.status &&& 0x7C00) ||| (v &&& 0x800F) ∧ (t.clerk c.val).pc = k.pc)) ∧
    (∀ a v : Word, let low := a.toNat < 0x8000
      (reads → low → exec (.rdmem c a) s = .next (Claims.answered s false (s.peek (privKey c.val a.toNat)))) ∧
      (¬(reads ∧ low) → exec (.rdmem c a) s = err) ∧
      (held → low → ∃ t, exec (.wrmem c a v) s = .next (Claims.answered t false 0) ∧ (∃ me, t = { s with mem := me }) ∧
        ∀ j, t.peek j = if j = privKey c.val a.toNat then v else s.peek j) ∧
      (¬(held ∧ low) → exec (.wrmem c a v) s = err)) ∧
    (∀ p : Word, (reads → p.toNat < 0x1000 → ∃ x, exec (.rdport c p) s = .next (Claims.answered s false x) ∧
        (p.toNat = 0xC2 → x = s.reg (0x100000 + 0x1000 * c.val + 0xC2) &&& 0x3F3F)) ∧
      (¬(reads ∧ p.toNat < 0x1000) → exec (.rdport c p) s = err))

/-- R290, R296, R497: the TAP's instructions; EXTEST and CLAMP drive the pads from the boundary register, but for a firing pad that
the safe gate forces; HIGHZ lets them go. -/
def Sys2Proof.Claims.BoundaryScan : Prop :=
  ∀ s : State,
    (∃ t, exec .extest s = .next t ∧ (∃ tp, t = { s with tap := tp }) ∧ t.tap.ir = 0 ∧ t.tap.boundary = s.tap.boundary ∧
      (∀ n, n < 64 → t.firePin n = if s.forced then s.padLevel n else some (s.tap.boundary.getD n false)) ∧
      ∀ i, i < 32 → t.gpioPin i = some (s.tap.boundary.getD (64 + i) false)) ∧
    exec .idcode s = .next { s with tap := { s.tap with ir := 1, idcode := some 0x2964074B#32 } } ∧
    (∀ fire gpio, ∃ t, exec (.samplePreload fire gpio) s = .next t ∧ (∃ tp, t = { s with tap := tp }) ∧ t.tap.ir = 2 ∧
      (∀ n, n < 96 → t.tap.boundary.getD n false = Claims.pads fire gpio n) ∧
      (∀ n, n < 64 → t.tap.captured.getD n none = s.firePin n ∧ t.firePin n = s.padLevel n) ∧
      ∀ i, i < 32 → t.tap.captured.getD (64 + i) none = s.gpioPin i) ∧
    (∃ t, exec .clamp s = .next t ∧ t = { s with tap := { s.tap with ir := 4 } } ∧
      (∀ n, n < 64 → t.firePin n = if s.forced then s.padLevel n else some (s.tap.boundary.getD n false))) ∧
    (∃ t, exec .highz s = .next t ∧ t = { s with tap := { s.tap with ir := 5 } } ∧
      ∀ n, n < 64 → t.firePin n = if s.forced then s.padLevel n else none) ∧
    (∃ t, exec .bypass s = .next t ∧ t = { s with tap := { s.tap with ir := 0xFF } } ∧ ∀ n, n < 64 → t.firePin n = s.padLevel n)
/-! ## Reset and the invariant -/

/-- R91, R131, R159, R189, R290, R296, R497: the debug port and boundary scan. -/
def Obligations.Debug : Prop := Claims.DebugPort ∧ Claims.BoundaryScan

namespace Sys2Proof.Claims

/-- What every step keeps: memory in its canonical form, the AON fault log's count within 16 bits (R492), and at most 8 dead letters
captured (R491). -/
structure Inv (s : State) : Prop where
  memory : Sound s
  log : s.logCount < 65536
  captures : s.deadCaps.length ≤ 8

end Sys2Proof.Claims

/-- R21, R90, R491, R492: right after reset no command waits, the DEVICE registers read as their tables say, reserved ports read 0,
every clerk is as a die reset leaves it, memory lists nothing, and the invariant holds. The power-on contents of memory are the
model's choice (log 2). -/
def Obligations.ResetState : Prop :=
  let s := State.reset
  s.pending = [] ∧ Claims.Inv s ∧ (∀ k, s.peek k = 0) ∧
    s.reg 0x4000 = 0x9640 ∧ s.reg 0x4001 = 0x0201 ∧ s.reg 0x4002 = 0x0013 ∧ s.reg 0x4003 = 0 ∧ s.reg 0x4004 = 0 ∧
    (∀ p, 0x4005 ≤ p → p < 0x4100 → s.reg p = 0) ∧
    ∀ c, let k := s.clerk c
      (∀ r, k.rw r = 0) ∧ (∀ r i, (k.rs r).lane i = 0) ∧ (∀ r i, (k.ra r).lane i = 0) ∧ k.pl = 0 ∧ k.ph = 0 ∧
        (∀ i, k.spl.lane i = 0 ∧ k.sph.lane i = 0) ∧ k.rpt = 0 ∧ k.isp = 0 ∧ k.pc = 0 ∧ k.status = 0x600F ∧ k.ctx = 0 ∧
        k.excCause = 0 ∧ k.excVec = 0x40 ∧ k.halted = false ∧ k.journal = [] ∧ ∀ i, i < 4 → k.slotOpen i = false

/-- R491, R492: from every state in which memory is in its canonical form, the log's count fits its counter and at most 8 dead letters
are captured, a step gives such a state. That memory has one form is the model's own (log 2). -/
def Obligations.InvariantKept : Prop :=
  ∀ s t : State, Claims.Inv s → step s = .next t → Claims.Inv t
end

