-- ==== Sys2Proof/Laws/Table.lean ====
section
/-!
SUPPORT. Laws of tables and of the word memory: a read after a write, and the canonical form.
-/
namespace Sys2Proof.Machine

/-! ## Tables -/

@[simp] theorem Tbl.find?_nil {α : Type} (k : Nat) : Tbl.find? ([] : Tbl α) k = none := rfl
@[simp] theorem Tbl.getD_nil {α : Type} (k : Nat) (d : α) : Tbl.getD ([] : Tbl α) k d = d := rfl

/-- A table lists what was last set, and a set leaves every other key alone. -/
theorem Tbl.find?_set {α : Type} (t : Tbl α) (k k' : Nat) (v : α) :
    Tbl.find? (Tbl.set t k v) k' = if k' = k then some v else Tbl.find? t k' := by
  induction t with
  | nil =>
    simp only [Tbl.set, Tbl.find?]
    by_cases h : k = k' <;> simp [h, eq_comm]
  | cons e t ih =>
    obtain ⟨a, b⟩ := e
    simp only [Tbl.set]
    split
    · simp only [Tbl.find?]
      by_cases h : k = k'
      · simp [h]
      · rw [if_neg h, if_neg (Ne.symm h)]
    · split
      · next h1 h2 =>
        subst h2
        simp only [Tbl.find?]
        by_cases h : k = k'
        · simp [h]
        · rw [if_neg h, if_neg (Ne.symm h), if_neg h]
      · next h1 h2 =>
        simp only [Tbl.find?, ih]
        by_cases h : a = k'
        · rw [if_pos h, if_neg (by omega), if_pos h]
        · rw [if_neg h, if_neg h]

@[simp] theorem Tbl.getD_set_self {α : Type} (t : Tbl α) (k : Nat) (v d : α) : Tbl.getD (Tbl.set t k v) k d = v := by
  unfold Tbl.getD; rw [Tbl.find?_set, if_pos rfl]; rfl

theorem Tbl.getD_set_ne {α : Type} (t : Tbl α) {k k' : Nat} (v d : α) (h : k' ≠ k) :
    Tbl.getD (Tbl.set t k v) k' d = Tbl.getD t k' d := by
  unfold Tbl.getD; rw [Tbl.find?_set, if_neg h]

theorem Tbl.getD_set {α : Type} (t : Tbl α) (k k' : Nat) (v d : α) :
    Tbl.getD (Tbl.set t k v) k' d = if k' = k then v else Tbl.getD t k' d := by
  split
  · next h => subst h; simp
  · next h => exact Tbl.getD_set_ne t v d h

/-- Dropping keys removes exactly those. -/
theorem Tbl.find?_drop {α : Type} (t : Tbl α) (p : Nat → Bool) (k : Nat) :
    Tbl.find? (Tbl.drop t p) k = if p k then none else Tbl.find? t k := by
  induction t with
  | nil => simp [Tbl.drop]
  | cons e t ih =>
    obtain ⟨a, b⟩ := e
    simp only [Tbl.drop, List.filter_cons] at *
    by_cases ha : p a <;> by_cases hk : a = k <;> simp_all [Tbl.find?]

theorem Tbl.getD_drop {α : Type} (t : Tbl α) (p : Nat → Bool) (k : Nat) (d : α) :
    Tbl.getD (Tbl.drop t p) k d = if p k then d else Tbl.getD t k d := by
  unfold Tbl.getD; rw [Tbl.find?_drop]; split <;> rfl

theorem Tbl.getD_erase {α : Type} (t : Tbl α) (k k' : Nat) (d : α) :
    Tbl.getD (Tbl.erase t k) k' d = if k' = k then d else Tbl.getD t k' d := by
  simp [Tbl.erase, Tbl.getD_drop]

/-! ## Rising keys -/

/-- Every key of the table lies above `a`. -/
def Tbl.above {α : Type} (a : Nat) (t : Tbl α) : Prop := ∀ e ∈ t, a < e.1

theorem Tbl.sorted_cons {α : Type} (k : Nat) (v : α) (t : Tbl α) :
    Tbl.sorted ((k, v) :: t) = true ↔ Tbl.above k t ∧ Tbl.sorted t = true := by
  induction t generalizing k v with
  | nil => simp [Tbl.sorted, Tbl.above]
  | cons e t ih =>
    obtain ⟨a, b⟩ := e
    simp only [Tbl.sorted, Bool.and_eq_true, decide_eq_true_eq, Tbl.above, List.mem_cons, forall_eq_or_imp]
    constructor
    · rintro ⟨h1, h2⟩
      refine ⟨⟨h1, ?_⟩, h2⟩
      intro e he
      have := ((ih a b).1 h2).1 e he
      omega
    · rintro ⟨⟨h1, -⟩, h2⟩
      exact ⟨h1, h2⟩

theorem Tbl.above_set {α : Type} {a : Nat} {t : Tbl α} (k : Nat) (v : α) (h : Tbl.above a t) (hk : a < k) :
    Tbl.above a (Tbl.set t k v) := by
  induction t with
  | nil => simp [Tbl.set, Tbl.above, hk]
  | cons e t ih =>
    obtain ⟨x, y⟩ := e
    have hx : a < x := h (x, y) (by simp)
    have ht : Tbl.above a t := fun e he => h e (by simp [he])
    simp only [Tbl.set]
    split
    · intro e he
      simp only [List.mem_cons] at he
      rcases he with rfl | rfl | he
      · exact hk
      · exact hx
      · exact ht e he
    · split
      · intro e he
        simp only [List.mem_cons] at he
        rcases he with rfl | he
        · exact hk
        · exact ht e he
      · intro e he
        simp only [List.mem_cons] at he
        rcases he with rfl | he
        · exact hx
        · exact ih ht e he

/-- A set keeps the keys rising. -/
theorem Tbl.sorted_set {α : Type} {t : Tbl α} (k : Nat) (v : α) (h : Tbl.sorted t = true) :
    Tbl.sorted (Tbl.set t k v) = true := by
  induction t with
  | nil => simp [Tbl.set, Tbl.sorted]
  | cons e t ih =>
    obtain ⟨x, y⟩ := e
    obtain ⟨ha, hs⟩ := (Tbl.sorted_cons x y t).1 h
    simp only [Tbl.set]
    split
    · next hlt =>
      refine (Tbl.sorted_cons ..).2 ⟨?_, h⟩
      intro e he
      simp only [List.mem_cons] at he
      rcases he with rfl | he
      · exact hlt
      · exact lt_trans hlt (ha e he)
    · split
      · next heq => subst heq; exact (Tbl.sorted_cons ..).2 ⟨ha, hs⟩
      · next h1 h2 => exact (Tbl.sorted_cons ..).2 ⟨Tbl.above_set k v ha (by omega), ih hs⟩

/-- Dropping keys keeps the keys rising. -/
theorem Tbl.sorted_drop {α : Type} {t : Tbl α} (p : Nat → Bool) (h : Tbl.sorted t = true) :
    Tbl.sorted (Tbl.drop t p) = true := by
  induction t with
  | nil => simp [Tbl.drop, Tbl.sorted]
  | cons e t ih =>
    obtain ⟨x, y⟩ := e
    obtain ⟨ha, hs⟩ := (Tbl.sorted_cons x y t).1 h
    have ih' := ih hs
    simp only [Tbl.drop, List.filter_cons] at *
    split
    · refine (Tbl.sorted_cons ..).2 ⟨?_, ih'⟩
      intro e he
      exact ha e ((List.mem_filter.1 he).1)
    · exact ih'

theorem Tbl.mem_set {α : Type} {t : Tbl α} {k : Nat} {v : α} {e : Nat × α} (h : e ∈ Tbl.set t k v) : e = (k, v) ∨ e ∈ t := by
  induction t with
  | nil => simpa [Tbl.set] using h
  | cons x t ih =>
    obtain ⟨a, b⟩ := x
    simp only [Tbl.set] at h
    split at h
    · simpa using h
    · split at h
      · simp only [List.mem_cons] at h ⊢; tauto
      · simp only [List.mem_cons] at h ⊢
        rcases h with h | h
        · exact .inr (.inl h)
        · rcases ih h with h | h <;> tauto

/-! ## Memory -/

/-- A word reads as what was last written to it. -/
@[simp] theorem Mem.read_write_self (m : Mem) (a : Nat) (v : Word) : (m.write a v).read a = v := by
  unfold Mem.write Mem.read
  split
  · next h => simp [Tbl.getD_erase, h]
  · simp

/-- A write leaves every other word alone. -/
theorem Mem.read_write_ne (m : Mem) {a b : Nat} (v : Word) (h : b ≠ a) : (m.write a v).read b = m.read b := by
  unfold Mem.write Mem.read
  split
  · simp [Tbl.getD_erase, h]
  · exact Tbl.getD_set_ne m v _ h

theorem Mem.read_write (m : Mem) (a b : Nat) (v : Word) : (m.write a v).read b = if b = a then v else m.read b := by
  split
  · next h => subst h; simp
  · next h => exact Mem.read_write_ne m v h

/-- A write keeps the canonical form. -/
theorem Mem.write_wf {m : Mem} (a : Nat) (v : Word) (h : m.wf = true) : (m.write a v).wf = true := by
  unfold Mem.wf at *
  simp only [Bool.and_eq_true, List.all_eq_true, decide_eq_true_eq] at *
  obtain ⟨hs, hb⟩ := h
  unfold Mem.write
  split
  · refine ⟨Tbl.sorted_drop _ hs, ?_⟩
    intro e he
    exact hb e ((List.mem_filter.1 he).1)
  · next hv =>
    refine ⟨Tbl.sorted_set _ _ hs, ?_⟩
    intro e he
    rcases Tbl.mem_set he with rfl | he
    · exact hv
    · exact hb e he

/-- Dropping cells keeps the canonical form; so does keeping only some. -/
theorem Mem.drop_wf {m : Mem} (p : Nat → Bool) (h : m.wf = true) : Mem.wf (Tbl.drop m p) = true := by
  unfold Mem.wf at *
  simp only [Bool.and_eq_true, List.all_eq_true, decide_eq_true_eq] at *
  exact ⟨Tbl.sorted_drop p h.1, fun e he => h.2 e (List.mem_filter.1 he).1⟩
theorem Mem.filter_wf {m : Mem} (p : Nat → Bool) (h : m.wf = true) : Mem.wf (m.filter fun e => p e.1) = true := by
  have e : (m.filter fun e => p e.1) = Tbl.drop m fun k => !p k := by simp [Tbl.drop]
  rw [e]
  exact Mem.drop_wf _ h

/-- The empty memory is canonical. -/
theorem Mem.wf_nil : Mem.wf [] = true := rfl

end Sys2Proof.Machine
end

