-- ==== Sys2Proof/Laws/State.lean ====
section
/-!
SUPPORT. Field laws: for each named update of State, what each field holds after it; and the accessors over them. Each is
true by rfl, so that no proof unfolds a record update.
-/
namespace Sys2Proof.Machine

/-! ## State.setReg -/

@[simp] theorem State.setReg_pending (s : State) (k : Nat) (v : Word) : (s.setReg k v).pending = s.pending := rfl
@[simp] theorem State.setReg_now (s : State) (k : Nat) (v : Word) : (s.setReg k v).now = s.now := rfl
@[simp] theorem State.setReg_snaps (s : State) (k : Nat) (v : Word) : (s.setReg k v).snaps = s.snaps := rfl
@[simp] theorem State.setReg_stage (s : State) (k : Nat) (v : Word) : (s.setReg k v).stage = s.stage := rfl
@[simp] theorem State.setReg_sels (s : State) (k : Nat) (v : Word) : (s.setReg k v).sels = s.sels := rfl
@[simp] theorem State.setReg_mem (s : State) (k : Nat) (v : Word) : (s.setReg k v).mem = s.mem := rfl
@[simp] theorem State.setReg_msgs (s : State) (k : Nat) (v : Word) : (s.setReg k v).msgs = s.msgs := rfl
@[simp] theorem State.setReg_clerks (s : State) (k : Nat) (v : Word) : (s.setReg k v).clerks = s.clerks := rfl
@[simp] theorem State.setReg_lineCaches (s : State) (k : Nat) (v : Word) : (s.setReg k v).lineCaches = s.lineCaches := rfl
@[simp] theorem State.setReg_axes (s : State) (k : Nat) (v : Word) : (s.setReg k v).axes = s.axes := rfl
@[simp] theorem State.setReg_replicas (s : State) (k : Nat) (v : Word) : (s.setReg k v).replicas = s.replicas := rfl
@[simp] theorem State.setReg_epochs (s : State) (k : Nat) (v : Word) : (s.setReg k v).epochs = s.epochs := rfl
@[simp] theorem State.setReg_bags (s : State) (k : Nat) (v : Word) : (s.setReg k v).bags = s.bags := rfl
@[simp] theorem State.setReg_arrivals (s : State) (k : Nat) (v : Word) : (s.setReg k v).arrivals = s.arrivals := rfl
@[simp] theorem State.setReg_icu (s : State) (k : Nat) (v : Word) : (s.setReg k v).icu = s.icu := rfl
@[simp] theorem State.setReg_free (s : State) (k : Nat) (v : Word) : (s.setReg k v).free = s.free := rfl
@[simp] theorem State.setReg_modeAt (s : State) (k : Nat) (v : Word) : (s.setReg k v).modeAt = s.modeAt := rfl
@[simp] theorem State.setReg_fbPend (s : State) (k : Nat) (v : Word) : (s.setReg k v).fbPend = s.fbPend := rfl
@[simp] theorem State.setReg_bcLast (s : State) (k : Nat) (v : Word) : (s.setReg k v).bcLast = s.bcLast := rfl
@[simp] theorem State.setReg_bePause (s : State) (k : Nat) (v : Word) : (s.setReg k v).bePause = s.bePause := rfl
@[simp] theorem State.setReg_cams (s : State) (k : Nat) (v : Word) : (s.setReg k v).cams = s.cams := rfl
@[simp] theorem State.setReg_cxSignal (s : State) (k : Nat) (v : Word) : (s.setReg k v).cxSignal = s.cxSignal := rfl
@[simp] theorem State.setReg_ccChans (s : State) (k : Nat) (v : Word) : (s.setReg k v).ccChans = s.ccChans := rfl
@[simp] theorem State.setReg_rgGap (s : State) (k : Nat) (v : Word) : (s.setReg k v).rgGap = s.rgGap := rfl
@[simp] theorem State.setReg_links (s : State) (k : Nat) (v : Word) : (s.setReg k v).links = s.links := rfl
@[simp] theorem State.setReg_routers (s : State) (k : Nat) (v : Word) : (s.setReg k v).routers = s.routers := rfl
@[simp] theorem State.setReg_dies (s : State) (k : Nat) (v : Word) : (s.setReg k v).dies = s.dies := rfl
@[simp] theorem State.setReg_crossings (s : State) (k : Nat) (v : Word) : (s.setReg k v).crossings = s.crossings := rfl
@[simp] theorem State.setReg_routes (s : State) (k : Nat) (v : Word) : (s.setReg k v).routes = s.routes := rfl
@[simp] theorem State.setReg_faultWins (s : State) (k : Nat) (v : Word) : (s.setReg k v).faultWins = s.faultWins := rfl
@[simp] theorem State.setReg_deadCaps (s : State) (k : Nat) (v : Word) : (s.setReg k v).deadCaps = s.deadCaps := rfl
@[simp] theorem State.setReg_faultLog (s : State) (k : Nat) (v : Word) : (s.setReg k v).faultLog = s.faultLog := rfl
@[simp] theorem State.setReg_logCount (s : State) (k : Nat) (v : Word) : (s.setReg k v).logCount = s.logCount := rfl
@[simp] theorem State.setReg_aonTime (s : State) (k : Nat) (v : Word) : (s.setReg k v).aonTime = s.aonTime := rfl
@[simp] theorem State.setReg_meters (s : State) (k : Nat) (v : Word) : (s.setReg k v).meters = s.meters := rfl
@[simp] theorem State.setReg_served (s : State) (k : Nat) (v : Word) : (s.setReg k v).served = s.served := rfl
@[simp] theorem State.setReg_globalEvs (s : State) (k : Nat) (v : Word) : (s.setReg k v).globalEvs = s.globalEvs := rfl
@[simp] theorem State.setReg_chans (s : State) (k : Nat) (v : Word) : (s.setReg k v).chans = s.chans := rfl
@[simp] theorem State.setReg_outbox (s : State) (k : Nat) (v : Word) : (s.setReg k v).outbox = s.outbox := rfl
@[simp] theorem State.setReg_fe (s : State) (k : Nat) (v : Word) : (s.setReg k v).fe = s.fe := rfl
@[simp] theorem State.setReg_zports (s : State) (k : Nat) (v : Word) : (s.setReg k v).zports = s.zports := rfl
@[simp] theorem State.setReg_znodes (s : State) (k : Nat) (v : Word) : (s.setReg k v).znodes = s.znodes := rfl
@[simp] theorem State.setReg_padHold (s : State) (k : Nat) (v : Word) : (s.setReg k v).padHold = s.padHold := rfl
@[simp] theorem State.setReg_phase (s : State) (k : Nat) (v : Word) : (s.setReg k v).phase = s.phase := rfl
@[simp] theorem State.setReg_vaon (s : State) (k : Nat) (v : Word) : (s.setReg k v).vaon = s.vaon := rfl
@[simp] theorem State.setReg_plRuns (s : State) (k : Nat) (v : Word) : (s.setReg k v).plRuns = s.plRuns := rfl
@[simp] theorem State.setReg_holdOff (s : State) (k : Nat) (v : Word) : (s.setReg k v).holdOff = s.holdOff := rfl
@[simp] theorem State.setReg_sleep (s : State) (k : Nat) (v : Word) : (s.setReg k v).sleep = s.sleep := rfl
@[simp] theorem State.setReg_wake (s : State) (k : Nat) (v : Word) : (s.setReg k v).wake = s.wake := rfl
@[simp] theorem State.setReg_savedAxes (s : State) (k : Nat) (v : Word) : (s.setReg k v).savedAxes = s.savedAxes := rfl
@[simp] theorem State.setReg_savedAon (s : State) (k : Nat) (v : Word) : (s.setReg k v).savedAon = s.savedAon := rfl
@[simp] theorem State.setReg_savedLevels (s : State) (k : Nat) (v : Word) : (s.setReg k v).savedLevels = s.savedLevels := rfl
@[simp] theorem State.setReg_bankSigs (s : State) (k : Nat) (v : Word) : (s.setReg k v).bankSigs = s.bankSigs := rfl
@[simp] theorem State.setReg_encWake (s : State) (k : Nat) (v : Word) : (s.setReg k v).encWake = s.encWake := rfl
@[simp] theorem State.setReg_gpioWake (s : State) (k : Nat) (v : Word) : (s.setReg k v).gpioWake = s.gpioWake := rfl
@[simp] theorem State.setReg_strapBoot (s : State) (k : Nat) (v : Word) : (s.setReg k v).strapBoot = s.strapBoot := rfl
@[simp] theorem State.setReg_strapSmb (s : State) (k : Nat) (v : Word) : (s.setReg k v).strapSmb = s.strapSmb := rfl
@[simp] theorem State.setReg_polled (s : State) (k : Nat) (v : Word) : (s.setReg k v).polled = s.polled := rfl
@[simp] theorem State.setReg_pmbCmd (s : State) (k : Nat) (v : Word) : (s.setReg k v).pmbCmd = s.pmbCmd := rfl
@[simp] theorem State.setReg_encPins (s : State) (k : Nat) (v : Word) : (s.setReg k v).encPins = s.encPins := rfl
@[simp] theorem State.setReg_ticks (s : State) (k : Nat) (v : Word) : (s.setReg k v).ticks = s.ticks := rfl
@[simp] theorem State.setReg_savedBags (s : State) (k : Nat) (v : Word) : (s.setReg k v).savedBags = s.savedBags := rfl
@[simp] theorem State.setReg_ddrRows (s : State) (k : Nat) (v : Word) : (s.setReg k v).ddrRows = s.ddrRows := rfl
@[simp] theorem State.setReg_ddrBad (s : State) (k : Nat) (v : Word) : (s.setReg k v).ddrBad = s.ddrBad := rfl
@[simp] theorem State.setReg_scrubAt (s : State) (k : Nat) (v : Word) : (s.setReg k v).scrubAt = s.scrubAt := rfl
@[simp] theorem State.setReg_holes (s : State) (k : Nat) (v : Word) : (s.setReg k v).holes = s.holes := rfl
@[simp] theorem State.setReg_pcie (s : State) (k : Nat) (v : Word) : (s.setReg k v).pcie = s.pcie := rfl
@[simp] theorem State.setReg_hostQ (s : State) (k : Nat) (v : Word) : (s.setReg k v).hostQ = s.hostQ := rfl
@[simp] theorem State.setReg_hostOut (s : State) (k : Nat) (v : Word) : (s.setReg k v).hostOut = s.hostOut := rfl
@[simp] theorem State.setReg_hostCpl (s : State) (k : Nat) (v : Word) : (s.setReg k v).hostCpl = s.hostCpl := rfl
@[simp] theorem State.setReg_envelope (s : State) (k : Nat) (v : Word) : (s.setReg k v).envelope = s.envelope := rfl
@[simp] theorem State.setReg_otpArb (s : State) (k : Nat) (v : Word) : (s.setReg k v).otpArb = s.otpArb := rfl
@[simp] theorem State.setReg_hostLoad (s : State) (k : Nat) (v : Word) : (s.setReg k v).hostLoad = s.hostLoad := rfl
@[simp] theorem State.setReg_hostBoot (s : State) (k : Nat) (v : Word) : (s.setReg k v).hostBoot = s.hostBoot := rfl
@[simp] theorem State.setReg_fromFlash (s : State) (k : Nat) (v : Word) : (s.setReg k v).fromFlash = s.fromFlash := rfl
@[simp] theorem State.setReg_repair (s : State) (k : Nat) (v : Word) : (s.setReg k v).repair = s.repair := rfl
@[simp] theorem State.setReg_moves (s : State) (k : Nat) (v : Word) : (s.setReg k v).moves = s.moves := rfl
@[simp] theorem State.setReg_digest (s : State) (k : Nat) (v : Word) : (s.setReg k v).digest = s.digest := rfl
@[simp] theorem State.setReg_digestMs (s : State) (k : Nat) (v : Word) : (s.setReg k v).digestMs = s.digestMs := rfl
@[simp] theorem State.setReg_smbReply (s : State) (k : Nat) (v : Word) : (s.setReg k v).smbReply = s.smbReply := rfl
@[simp] theorem State.setReg_pads (s : State) (k : Nat) (v : Word) : (s.setReg k v).pads = s.pads := rfl
@[simp] theorem State.setReg_heldFire (s : State) (k : Nat) (v : Word) : (s.setReg k v).heldFire = s.heldFire := rfl
@[simp] theorem State.setReg_heldGpio (s : State) (k : Nat) (v : Word) : (s.setReg k v).heldGpio = s.heldGpio := rfl
@[simp] theorem State.setReg_heldZl (s : State) (k : Nat) (v : Word) : (s.setReg k v).heldZl = s.heldZl := rfl
@[simp] theorem State.setReg_tap (s : State) (k : Nat) (v : Word) : (s.setReg k v).tap = s.tap := rfl

/-! ## State.poke -/

@[simp] theorem State.poke_pending (s : State) (k : Nat) (v : Word) : (s.poke k v).pending = s.pending := rfl
@[simp] theorem State.poke_now (s : State) (k : Nat) (v : Word) : (s.poke k v).now = s.now := rfl
@[simp] theorem State.poke_regs (s : State) (k : Nat) (v : Word) : (s.poke k v).regs = s.regs := rfl
@[simp] theorem State.poke_snaps (s : State) (k : Nat) (v : Word) : (s.poke k v).snaps = s.snaps := rfl
@[simp] theorem State.poke_stage (s : State) (k : Nat) (v : Word) : (s.poke k v).stage = s.stage := rfl
@[simp] theorem State.poke_sels (s : State) (k : Nat) (v : Word) : (s.poke k v).sels = s.sels := rfl
@[simp] theorem State.poke_msgs (s : State) (k : Nat) (v : Word) : (s.poke k v).msgs = s.msgs := rfl
@[simp] theorem State.poke_clerks (s : State) (k : Nat) (v : Word) : (s.poke k v).clerks = s.clerks := rfl
@[simp] theorem State.poke_lineCaches (s : State) (k : Nat) (v : Word) : (s.poke k v).lineCaches = s.lineCaches := rfl
@[simp] theorem State.poke_axes (s : State) (k : Nat) (v : Word) : (s.poke k v).axes = s.axes := rfl
@[simp] theorem State.poke_replicas (s : State) (k : Nat) (v : Word) : (s.poke k v).replicas = s.replicas := rfl
@[simp] theorem State.poke_epochs (s : State) (k : Nat) (v : Word) : (s.poke k v).epochs = s.epochs := rfl
@[simp] theorem State.poke_bags (s : State) (k : Nat) (v : Word) : (s.poke k v).bags = s.bags := rfl
@[simp] theorem State.poke_arrivals (s : State) (k : Nat) (v : Word) : (s.poke k v).arrivals = s.arrivals := rfl
@[simp] theorem State.poke_icu (s : State) (k : Nat) (v : Word) : (s.poke k v).icu = s.icu := rfl
@[simp] theorem State.poke_free (s : State) (k : Nat) (v : Word) : (s.poke k v).free = s.free := rfl
@[simp] theorem State.poke_modeAt (s : State) (k : Nat) (v : Word) : (s.poke k v).modeAt = s.modeAt := rfl
@[simp] theorem State.poke_fbPend (s : State) (k : Nat) (v : Word) : (s.poke k v).fbPend = s.fbPend := rfl
@[simp] theorem State.poke_bcLast (s : State) (k : Nat) (v : Word) : (s.poke k v).bcLast = s.bcLast := rfl
@[simp] theorem State.poke_bePause (s : State) (k : Nat) (v : Word) : (s.poke k v).bePause = s.bePause := rfl
@[simp] theorem State.poke_cams (s : State) (k : Nat) (v : Word) : (s.poke k v).cams = s.cams := rfl
@[simp] theorem State.poke_cxSignal (s : State) (k : Nat) (v : Word) : (s.poke k v).cxSignal = s.cxSignal := rfl
@[simp] theorem State.poke_ccChans (s : State) (k : Nat) (v : Word) : (s.poke k v).ccChans = s.ccChans := rfl
@[simp] theorem State.poke_rgGap (s : State) (k : Nat) (v : Word) : (s.poke k v).rgGap = s.rgGap := rfl
@[simp] theorem State.poke_links (s : State) (k : Nat) (v : Word) : (s.poke k v).links = s.links := rfl
@[simp] theorem State.poke_routers (s : State) (k : Nat) (v : Word) : (s.poke k v).routers = s.routers := rfl
@[simp] theorem State.poke_dies (s : State) (k : Nat) (v : Word) : (s.poke k v).dies = s.dies := rfl
@[simp] theorem State.poke_crossings (s : State) (k : Nat) (v : Word) : (s.poke k v).crossings = s.crossings := rfl
@[simp] theorem State.poke_routes (s : State) (k : Nat) (v : Word) : (s.poke k v).routes = s.routes := rfl
@[simp] theorem State.poke_faultWins (s : State) (k : Nat) (v : Word) : (s.poke k v).faultWins = s.faultWins := rfl
@[simp] theorem State.poke_deadCaps (s : State) (k : Nat) (v : Word) : (s.poke k v).deadCaps = s.deadCaps := rfl
@[simp] theorem State.poke_faultLog (s : State) (k : Nat) (v : Word) : (s.poke k v).faultLog = s.faultLog := rfl
@[simp] theorem State.poke_logCount (s : State) (k : Nat) (v : Word) : (s.poke k v).logCount = s.logCount := rfl
@[simp] theorem State.poke_aonTime (s : State) (k : Nat) (v : Word) : (s.poke k v).aonTime = s.aonTime := rfl
@[simp] theorem State.poke_meters (s : State) (k : Nat) (v : Word) : (s.poke k v).meters = s.meters := rfl
@[simp] theorem State.poke_served (s : State) (k : Nat) (v : Word) : (s.poke k v).served = s.served := rfl
@[simp] theorem State.poke_globalEvs (s : State) (k : Nat) (v : Word) : (s.poke k v).globalEvs = s.globalEvs := rfl
@[simp] theorem State.poke_chans (s : State) (k : Nat) (v : Word) : (s.poke k v).chans = s.chans := rfl
@[simp] theorem State.poke_outbox (s : State) (k : Nat) (v : Word) : (s.poke k v).outbox = s.outbox := rfl
@[simp] theorem State.poke_fe (s : State) (k : Nat) (v : Word) : (s.poke k v).fe = s.fe := rfl
@[simp] theorem State.poke_zports (s : State) (k : Nat) (v : Word) : (s.poke k v).zports = s.zports := rfl
@[simp] theorem State.poke_znodes (s : State) (k : Nat) (v : Word) : (s.poke k v).znodes = s.znodes := rfl
@[simp] theorem State.poke_padHold (s : State) (k : Nat) (v : Word) : (s.poke k v).padHold = s.padHold := rfl
@[simp] theorem State.poke_phase (s : State) (k : Nat) (v : Word) : (s.poke k v).phase = s.phase := rfl
@[simp] theorem State.poke_vaon (s : State) (k : Nat) (v : Word) : (s.poke k v).vaon = s.vaon := rfl
@[simp] theorem State.poke_plRuns (s : State) (k : Nat) (v : Word) : (s.poke k v).plRuns = s.plRuns := rfl
@[simp] theorem State.poke_holdOff (s : State) (k : Nat) (v : Word) : (s.poke k v).holdOff = s.holdOff := rfl
@[simp] theorem State.poke_sleep (s : State) (k : Nat) (v : Word) : (s.poke k v).sleep = s.sleep := rfl
@[simp] theorem State.poke_wake (s : State) (k : Nat) (v : Word) : (s.poke k v).wake = s.wake := rfl
@[simp] theorem State.poke_savedAxes (s : State) (k : Nat) (v : Word) : (s.poke k v).savedAxes = s.savedAxes := rfl
@[simp] theorem State.poke_savedAon (s : State) (k : Nat) (v : Word) : (s.poke k v).savedAon = s.savedAon := rfl
@[simp] theorem State.poke_savedLevels (s : State) (k : Nat) (v : Word) : (s.poke k v).savedLevels = s.savedLevels := rfl
@[simp] theorem State.poke_bankSigs (s : State) (k : Nat) (v : Word) : (s.poke k v).bankSigs = s.bankSigs := rfl
@[simp] theorem State.poke_encWake (s : State) (k : Nat) (v : Word) : (s.poke k v).encWake = s.encWake := rfl
@[simp] theorem State.poke_gpioWake (s : State) (k : Nat) (v : Word) : (s.poke k v).gpioWake = s.gpioWake := rfl
@[simp] theorem State.poke_strapBoot (s : State) (k : Nat) (v : Word) : (s.poke k v).strapBoot = s.strapBoot := rfl
@[simp] theorem State.poke_strapSmb (s : State) (k : Nat) (v : Word) : (s.poke k v).strapSmb = s.strapSmb := rfl
@[simp] theorem State.poke_polled (s : State) (k : Nat) (v : Word) : (s.poke k v).polled = s.polled := rfl
@[simp] theorem State.poke_pmbCmd (s : State) (k : Nat) (v : Word) : (s.poke k v).pmbCmd = s.pmbCmd := rfl
@[simp] theorem State.poke_encPins (s : State) (k : Nat) (v : Word) : (s.poke k v).encPins = s.encPins := rfl
@[simp] theorem State.poke_ticks (s : State) (k : Nat) (v : Word) : (s.poke k v).ticks = s.ticks := rfl
@[simp] theorem State.poke_savedBags (s : State) (k : Nat) (v : Word) : (s.poke k v).savedBags = s.savedBags := rfl
@[simp] theorem State.poke_ddrRows (s : State) (k : Nat) (v : Word) : (s.poke k v).ddrRows = s.ddrRows := rfl
@[simp] theorem State.poke_ddrBad (s : State) (k : Nat) (v : Word) : (s.poke k v).ddrBad = s.ddrBad := rfl
@[simp] theorem State.poke_scrubAt (s : State) (k : Nat) (v : Word) : (s.poke k v).scrubAt = s.scrubAt := rfl
@[simp] theorem State.poke_holes (s : State) (k : Nat) (v : Word) : (s.poke k v).holes = s.holes := rfl
@[simp] theorem State.poke_pcie (s : State) (k : Nat) (v : Word) : (s.poke k v).pcie = s.pcie := rfl
@[simp] theorem State.poke_hostQ (s : State) (k : Nat) (v : Word) : (s.poke k v).hostQ = s.hostQ := rfl
@[simp] theorem State.poke_hostOut (s : State) (k : Nat) (v : Word) : (s.poke k v).hostOut = s.hostOut := rfl
@[simp] theorem State.poke_hostCpl (s : State) (k : Nat) (v : Word) : (s.poke k v).hostCpl = s.hostCpl := rfl
@[simp] theorem State.poke_envelope (s : State) (k : Nat) (v : Word) : (s.poke k v).envelope = s.envelope := rfl
@[simp] theorem State.poke_otpArb (s : State) (k : Nat) (v : Word) : (s.poke k v).otpArb = s.otpArb := rfl
@[simp] theorem State.poke_hostLoad (s : State) (k : Nat) (v : Word) : (s.poke k v).hostLoad = s.hostLoad := rfl
@[simp] theorem State.poke_hostBoot (s : State) (k : Nat) (v : Word) : (s.poke k v).hostBoot = s.hostBoot := rfl
@[simp] theorem State.poke_fromFlash (s : State) (k : Nat) (v : Word) : (s.poke k v).fromFlash = s.fromFlash := rfl
@[simp] theorem State.poke_repair (s : State) (k : Nat) (v : Word) : (s.poke k v).repair = s.repair := rfl
@[simp] theorem State.poke_moves (s : State) (k : Nat) (v : Word) : (s.poke k v).moves = s.moves := rfl
@[simp] theorem State.poke_digest (s : State) (k : Nat) (v : Word) : (s.poke k v).digest = s.digest := rfl
@[simp] theorem State.poke_digestMs (s : State) (k : Nat) (v : Word) : (s.poke k v).digestMs = s.digestMs := rfl
@[simp] theorem State.poke_smbReply (s : State) (k : Nat) (v : Word) : (s.poke k v).smbReply = s.smbReply := rfl
@[simp] theorem State.poke_pads (s : State) (k : Nat) (v : Word) : (s.poke k v).pads = s.pads := rfl
@[simp] theorem State.poke_heldFire (s : State) (k : Nat) (v : Word) : (s.poke k v).heldFire = s.heldFire := rfl
@[simp] theorem State.poke_heldGpio (s : State) (k : Nat) (v : Word) : (s.poke k v).heldGpio = s.heldGpio := rfl
@[simp] theorem State.poke_heldZl (s : State) (k : Nat) (v : Word) : (s.poke k v).heldZl = s.heldZl := rfl
@[simp] theorem State.poke_tap (s : State) (k : Nat) (v : Word) : (s.poke k v).tap = s.tap := rfl

/-! ## State.setClerk -/

@[simp] theorem State.setClerk_pending (s : State) (c : Nat) (k : Clerk) : (s.setClerk c k).pending = s.pending := rfl
@[simp] theorem State.setClerk_now (s : State) (c : Nat) (k : Clerk) : (s.setClerk c k).now = s.now := rfl
@[simp] theorem State.setClerk_regs (s : State) (c : Nat) (k : Clerk) : (s.setClerk c k).regs = s.regs := rfl
@[simp] theorem State.setClerk_snaps (s : State) (c : Nat) (k : Clerk) : (s.setClerk c k).snaps = s.snaps := rfl
@[simp] theorem State.setClerk_stage (s : State) (c : Nat) (k : Clerk) : (s.setClerk c k).stage = s.stage := rfl
@[simp] theorem State.setClerk_sels (s : State) (c : Nat) (k : Clerk) : (s.setClerk c k).sels = s.sels := rfl
@[simp] theorem State.setClerk_mem (s : State) (c : Nat) (k : Clerk) : (s.setClerk c k).mem = s.mem := rfl
@[simp] theorem State.setClerk_msgs (s : State) (c : Nat) (k : Clerk) : (s.setClerk c k).msgs = s.msgs := rfl
@[simp] theorem State.setClerk_lineCaches (s : State) (c : Nat) (k : Clerk) : (s.setClerk c k).lineCaches = s.lineCaches := rfl
@[simp] theorem State.setClerk_axes (s : State) (c : Nat) (k : Clerk) : (s.setClerk c k).axes = s.axes := rfl
@[simp] theorem State.setClerk_replicas (s : State) (c : Nat) (k : Clerk) : (s.setClerk c k).replicas = s.replicas := rfl
@[simp] theorem State.setClerk_epochs (s : State) (c : Nat) (k : Clerk) : (s.setClerk c k).epochs = s.epochs := rfl
@[simp] theorem State.setClerk_bags (s : State) (c : Nat) (k : Clerk) : (s.setClerk c k).bags = s.bags := rfl
@[simp] theorem State.setClerk_arrivals (s : State) (c : Nat) (k : Clerk) : (s.setClerk c k).arrivals = s.arrivals := rfl
@[simp] theorem State.setClerk_icu (s : State) (c : Nat) (k : Clerk) : (s.setClerk c k).icu = s.icu := rfl
@[simp] theorem State.setClerk_free (s : State) (c : Nat) (k : Clerk) : (s.setClerk c k).free = s.free := rfl
@[simp] theorem State.setClerk_modeAt (s : State) (c : Nat) (k : Clerk) : (s.setClerk c k).modeAt = s.modeAt := rfl
@[simp] theorem State.setClerk_fbPend (s : State) (c : Nat) (k : Clerk) : (s.setClerk c k).fbPend = s.fbPend := rfl
@[simp] theorem State.setClerk_bcLast (s : State) (c : Nat) (k : Clerk) : (s.setClerk c k).bcLast = s.bcLast := rfl
@[simp] theorem State.setClerk_bePause (s : State) (c : Nat) (k : Clerk) : (s.setClerk c k).bePause = s.bePause := rfl
@[simp] theorem State.setClerk_cams (s : State) (c : Nat) (k : Clerk) : (s.setClerk c k).cams = s.cams := rfl
@[simp] theorem State.setClerk_cxSignal (s : State) (c : Nat) (k : Clerk) : (s.setClerk c k).cxSignal = s.cxSignal := rfl
@[simp] theorem State.setClerk_ccChans (s : State) (c : Nat) (k : Clerk) : (s.setClerk c k).ccChans = s.ccChans := rfl
@[simp] theorem State.setClerk_rgGap (s : State) (c : Nat) (k : Clerk) : (s.setClerk c k).rgGap = s.rgGap := rfl
@[simp] theorem State.setClerk_links (s : State) (c : Nat) (k : Clerk) : (s.setClerk c k).links = s.links := rfl
@[simp] theorem State.setClerk_routers (s : State) (c : Nat) (k : Clerk) : (s.setClerk c k).routers = s.routers := rfl
@[simp] theorem State.setClerk_dies (s : State) (c : Nat) (k : Clerk) : (s.setClerk c k).dies = s.dies := rfl
@[simp] theorem State.setClerk_crossings (s : State) (c : Nat) (k : Clerk) : (s.setClerk c k).crossings = s.crossings := rfl
@[simp] theorem State.setClerk_routes (s : State) (c : Nat) (k : Clerk) : (s.setClerk c k).routes = s.routes := rfl
@[simp] theorem State.setClerk_faultWins (s : State) (c : Nat) (k : Clerk) : (s.setClerk c k).faultWins = s.faultWins := rfl
@[simp] theorem State.setClerk_deadCaps (s : State) (c : Nat) (k : Clerk) : (s.setClerk c k).deadCaps = s.deadCaps := rfl
@[simp] theorem State.setClerk_faultLog (s : State) (c : Nat) (k : Clerk) : (s.setClerk c k).faultLog = s.faultLog := rfl
@[simp] theorem State.setClerk_logCount (s : State) (c : Nat) (k : Clerk) : (s.setClerk c k).logCount = s.logCount := rfl
@[simp] theorem State.setClerk_aonTime (s : State) (c : Nat) (k : Clerk) : (s.setClerk c k).aonTime = s.aonTime := rfl
@[simp] theorem State.setClerk_meters (s : State) (c : Nat) (k : Clerk) : (s.setClerk c k).meters = s.meters := rfl
@[simp] theorem State.setClerk_served (s : State) (c : Nat) (k : Clerk) : (s.setClerk c k).served = s.served := rfl
@[simp] theorem State.setClerk_globalEvs (s : State) (c : Nat) (k : Clerk) : (s.setClerk c k).globalEvs = s.globalEvs := rfl
@[simp] theorem State.setClerk_chans (s : State) (c : Nat) (k : Clerk) : (s.setClerk c k).chans = s.chans := rfl
@[simp] theorem State.setClerk_outbox (s : State) (c : Nat) (k : Clerk) : (s.setClerk c k).outbox = s.outbox := rfl
@[simp] theorem State.setClerk_fe (s : State) (c : Nat) (k : Clerk) : (s.setClerk c k).fe = s.fe := rfl
@[simp] theorem State.setClerk_zports (s : State) (c : Nat) (k : Clerk) : (s.setClerk c k).zports = s.zports := rfl
@[simp] theorem State.setClerk_znodes (s : State) (c : Nat) (k : Clerk) : (s.setClerk c k).znodes = s.znodes := rfl
@[simp] theorem State.setClerk_padHold (s : State) (c : Nat) (k : Clerk) : (s.setClerk c k).padHold = s.padHold := rfl
@[simp] theorem State.setClerk_phase (s : State) (c : Nat) (k : Clerk) : (s.setClerk c k).phase = s.phase := rfl
@[simp] theorem State.setClerk_vaon (s : State) (c : Nat) (k : Clerk) : (s.setClerk c k).vaon = s.vaon := rfl
@[simp] theorem State.setClerk_plRuns (s : State) (c : Nat) (k : Clerk) : (s.setClerk c k).plRuns = s.plRuns := rfl
@[simp] theorem State.setClerk_holdOff (s : State) (c : Nat) (k : Clerk) : (s.setClerk c k).holdOff = s.holdOff := rfl
@[simp] theorem State.setClerk_sleep (s : State) (c : Nat) (k : Clerk) : (s.setClerk c k).sleep = s.sleep := rfl
@[simp] theorem State.setClerk_wake (s : State) (c : Nat) (k : Clerk) : (s.setClerk c k).wake = s.wake := rfl
@[simp] theorem State.setClerk_savedAxes (s : State) (c : Nat) (k : Clerk) : (s.setClerk c k).savedAxes = s.savedAxes := rfl
@[simp] theorem State.setClerk_savedAon (s : State) (c : Nat) (k : Clerk) : (s.setClerk c k).savedAon = s.savedAon := rfl
@[simp] theorem State.setClerk_savedLevels (s : State) (c : Nat) (k : Clerk) : (s.setClerk c k).savedLevels = s.savedLevels := rfl
@[simp] theorem State.setClerk_bankSigs (s : State) (c : Nat) (k : Clerk) : (s.setClerk c k).bankSigs = s.bankSigs := rfl
@[simp] theorem State.setClerk_encWake (s : State) (c : Nat) (k : Clerk) : (s.setClerk c k).encWake = s.encWake := rfl
@[simp] theorem State.setClerk_gpioWake (s : State) (c : Nat) (k : Clerk) : (s.setClerk c k).gpioWake = s.gpioWake := rfl
@[simp] theorem State.setClerk_strapBoot (s : State) (c : Nat) (k : Clerk) : (s.setClerk c k).strapBoot = s.strapBoot := rfl
@[simp] theorem State.setClerk_strapSmb (s : State) (c : Nat) (k : Clerk) : (s.setClerk c k).strapSmb = s.strapSmb := rfl
@[simp] theorem State.setClerk_polled (s : State) (c : Nat) (k : Clerk) : (s.setClerk c k).polled = s.polled := rfl
@[simp] theorem State.setClerk_pmbCmd (s : State) (c : Nat) (k : Clerk) : (s.setClerk c k).pmbCmd = s.pmbCmd := rfl
@[simp] theorem State.setClerk_encPins (s : State) (c : Nat) (k : Clerk) : (s.setClerk c k).encPins = s.encPins := rfl
@[simp] theorem State.setClerk_ticks (s : State) (c : Nat) (k : Clerk) : (s.setClerk c k).ticks = s.ticks := rfl
@[simp] theorem State.setClerk_savedBags (s : State) (c : Nat) (k : Clerk) : (s.setClerk c k).savedBags = s.savedBags := rfl
@[simp] theorem State.setClerk_ddrRows (s : State) (c : Nat) (k : Clerk) : (s.setClerk c k).ddrRows = s.ddrRows := rfl
@[simp] theorem State.setClerk_ddrBad (s : State) (c : Nat) (k : Clerk) : (s.setClerk c k).ddrBad = s.ddrBad := rfl
@[simp] theorem State.setClerk_scrubAt (s : State) (c : Nat) (k : Clerk) : (s.setClerk c k).scrubAt = s.scrubAt := rfl
@[simp] theorem State.setClerk_holes (s : State) (c : Nat) (k : Clerk) : (s.setClerk c k).holes = s.holes := rfl
@[simp] theorem State.setClerk_pcie (s : State) (c : Nat) (k : Clerk) : (s.setClerk c k).pcie = s.pcie := rfl
@[simp] theorem State.setClerk_hostQ (s : State) (c : Nat) (k : Clerk) : (s.setClerk c k).hostQ = s.hostQ := rfl
@[simp] theorem State.setClerk_hostOut (s : State) (c : Nat) (k : Clerk) : (s.setClerk c k).hostOut = s.hostOut := rfl
@[simp] theorem State.setClerk_hostCpl (s : State) (c : Nat) (k : Clerk) : (s.setClerk c k).hostCpl = s.hostCpl := rfl
@[simp] theorem State.setClerk_envelope (s : State) (c : Nat) (k : Clerk) : (s.setClerk c k).envelope = s.envelope := rfl
@[simp] theorem State.setClerk_otpArb (s : State) (c : Nat) (k : Clerk) : (s.setClerk c k).otpArb = s.otpArb := rfl
@[simp] theorem State.setClerk_hostLoad (s : State) (c : Nat) (k : Clerk) : (s.setClerk c k).hostLoad = s.hostLoad := rfl
@[simp] theorem State.setClerk_hostBoot (s : State) (c : Nat) (k : Clerk) : (s.setClerk c k).hostBoot = s.hostBoot := rfl
@[simp] theorem State.setClerk_fromFlash (s : State) (c : Nat) (k : Clerk) : (s.setClerk c k).fromFlash = s.fromFlash := rfl
@[simp] theorem State.setClerk_repair (s : State) (c : Nat) (k : Clerk) : (s.setClerk c k).repair = s.repair := rfl
@[simp] theorem State.setClerk_moves (s : State) (c : Nat) (k : Clerk) : (s.setClerk c k).moves = s.moves := rfl
@[simp] theorem State.setClerk_digest (s : State) (c : Nat) (k : Clerk) : (s.setClerk c k).digest = s.digest := rfl
@[simp] theorem State.setClerk_digestMs (s : State) (c : Nat) (k : Clerk) : (s.setClerk c k).digestMs = s.digestMs := rfl
@[simp] theorem State.setClerk_smbReply (s : State) (c : Nat) (k : Clerk) : (s.setClerk c k).smbReply = s.smbReply := rfl
@[simp] theorem State.setClerk_pads (s : State) (c : Nat) (k : Clerk) : (s.setClerk c k).pads = s.pads := rfl
@[simp] theorem State.setClerk_heldFire (s : State) (c : Nat) (k : Clerk) : (s.setClerk c k).heldFire = s.heldFire := rfl
@[simp] theorem State.setClerk_heldGpio (s : State) (c : Nat) (k : Clerk) : (s.setClerk c k).heldGpio = s.heldGpio := rfl
@[simp] theorem State.setClerk_heldZl (s : State) (c : Nat) (k : Clerk) : (s.setClerk c k).heldZl = s.heldZl := rfl
@[simp] theorem State.setClerk_tap (s : State) (c : Nat) (k : Clerk) : (s.setClerk c k).tap = s.tap := rfl

/-! ## State.send -/

@[simp] theorem State.send_pending (s : State) (m : Msg) : (s.send m).pending = s.pending := rfl
@[simp] theorem State.send_now (s : State) (m : Msg) : (s.send m).now = s.now := rfl
@[simp] theorem State.send_regs (s : State) (m : Msg) : (s.send m).regs = s.regs := rfl
@[simp] theorem State.send_snaps (s : State) (m : Msg) : (s.send m).snaps = s.snaps := rfl
@[simp] theorem State.send_stage (s : State) (m : Msg) : (s.send m).stage = s.stage := rfl
@[simp] theorem State.send_sels (s : State) (m : Msg) : (s.send m).sels = s.sels := rfl
@[simp] theorem State.send_mem (s : State) (m : Msg) : (s.send m).mem = s.mem := rfl
@[simp] theorem State.send_clerks (s : State) (m : Msg) : (s.send m).clerks = s.clerks := rfl
@[simp] theorem State.send_lineCaches (s : State) (m : Msg) : (s.send m).lineCaches = s.lineCaches := rfl
@[simp] theorem State.send_axes (s : State) (m : Msg) : (s.send m).axes = s.axes := rfl
@[simp] theorem State.send_replicas (s : State) (m : Msg) : (s.send m).replicas = s.replicas := rfl
@[simp] theorem State.send_epochs (s : State) (m : Msg) : (s.send m).epochs = s.epochs := rfl
@[simp] theorem State.send_bags (s : State) (m : Msg) : (s.send m).bags = s.bags := rfl
@[simp] theorem State.send_arrivals (s : State) (m : Msg) : (s.send m).arrivals = s.arrivals := rfl
@[simp] theorem State.send_icu (s : State) (m : Msg) : (s.send m).icu = s.icu := rfl
@[simp] theorem State.send_free (s : State) (m : Msg) : (s.send m).free = s.free := rfl
@[simp] theorem State.send_modeAt (s : State) (m : Msg) : (s.send m).modeAt = s.modeAt := rfl
@[simp] theorem State.send_fbPend (s : State) (m : Msg) : (s.send m).fbPend = s.fbPend := rfl
@[simp] theorem State.send_bcLast (s : State) (m : Msg) : (s.send m).bcLast = s.bcLast := rfl
@[simp] theorem State.send_bePause (s : State) (m : Msg) : (s.send m).bePause = s.bePause := rfl
@[simp] theorem State.send_cams (s : State) (m : Msg) : (s.send m).cams = s.cams := rfl
@[simp] theorem State.send_cxSignal (s : State) (m : Msg) : (s.send m).cxSignal = s.cxSignal := rfl
@[simp] theorem State.send_ccChans (s : State) (m : Msg) : (s.send m).ccChans = s.ccChans := rfl
@[simp] theorem State.send_rgGap (s : State) (m : Msg) : (s.send m).rgGap = s.rgGap := rfl
@[simp] theorem State.send_links (s : State) (m : Msg) : (s.send m).links = s.links := rfl
@[simp] theorem State.send_routers (s : State) (m : Msg) : (s.send m).routers = s.routers := rfl
@[simp] theorem State.send_dies (s : State) (m : Msg) : (s.send m).dies = s.dies := rfl
@[simp] theorem State.send_crossings (s : State) (m : Msg) : (s.send m).crossings = s.crossings := rfl
@[simp] theorem State.send_routes (s : State) (m : Msg) : (s.send m).routes = s.routes := rfl
@[simp] theorem State.send_faultWins (s : State) (m : Msg) : (s.send m).faultWins = s.faultWins := rfl
@[simp] theorem State.send_deadCaps (s : State) (m : Msg) : (s.send m).deadCaps = s.deadCaps := rfl
@[simp] theorem State.send_faultLog (s : State) (m : Msg) : (s.send m).faultLog = s.faultLog := rfl
@[simp] theorem State.send_logCount (s : State) (m : Msg) : (s.send m).logCount = s.logCount := rfl
@[simp] theorem State.send_aonTime (s : State) (m : Msg) : (s.send m).aonTime = s.aonTime := rfl
@[simp] theorem State.send_meters (s : State) (m : Msg) : (s.send m).meters = s.meters := rfl
@[simp] theorem State.send_served (s : State) (m : Msg) : (s.send m).served = s.served := rfl
@[simp] theorem State.send_globalEvs (s : State) (m : Msg) : (s.send m).globalEvs = s.globalEvs := rfl
@[simp] theorem State.send_chans (s : State) (m : Msg) : (s.send m).chans = s.chans := rfl
@[simp] theorem State.send_outbox (s : State) (m : Msg) : (s.send m).outbox = s.outbox := rfl
@[simp] theorem State.send_fe (s : State) (m : Msg) : (s.send m).fe = s.fe := rfl
@[simp] theorem State.send_zports (s : State) (m : Msg) : (s.send m).zports = s.zports := rfl
@[simp] theorem State.send_znodes (s : State) (m : Msg) : (s.send m).znodes = s.znodes := rfl
@[simp] theorem State.send_padHold (s : State) (m : Msg) : (s.send m).padHold = s.padHold := rfl
@[simp] theorem State.send_phase (s : State) (m : Msg) : (s.send m).phase = s.phase := rfl
@[simp] theorem State.send_vaon (s : State) (m : Msg) : (s.send m).vaon = s.vaon := rfl
@[simp] theorem State.send_plRuns (s : State) (m : Msg) : (s.send m).plRuns = s.plRuns := rfl
@[simp] theorem State.send_holdOff (s : State) (m : Msg) : (s.send m).holdOff = s.holdOff := rfl
@[simp] theorem State.send_sleep (s : State) (m : Msg) : (s.send m).sleep = s.sleep := rfl
@[simp] theorem State.send_wake (s : State) (m : Msg) : (s.send m).wake = s.wake := rfl
@[simp] theorem State.send_savedAxes (s : State) (m : Msg) : (s.send m).savedAxes = s.savedAxes := rfl
@[simp] theorem State.send_savedAon (s : State) (m : Msg) : (s.send m).savedAon = s.savedAon := rfl
@[simp] theorem State.send_savedLevels (s : State) (m : Msg) : (s.send m).savedLevels = s.savedLevels := rfl
@[simp] theorem State.send_bankSigs (s : State) (m : Msg) : (s.send m).bankSigs = s.bankSigs := rfl
@[simp] theorem State.send_encWake (s : State) (m : Msg) : (s.send m).encWake = s.encWake := rfl
@[simp] theorem State.send_gpioWake (s : State) (m : Msg) : (s.send m).gpioWake = s.gpioWake := rfl
@[simp] theorem State.send_strapBoot (s : State) (m : Msg) : (s.send m).strapBoot = s.strapBoot := rfl
@[simp] theorem State.send_strapSmb (s : State) (m : Msg) : (s.send m).strapSmb = s.strapSmb := rfl
@[simp] theorem State.send_polled (s : State) (m : Msg) : (s.send m).polled = s.polled := rfl
@[simp] theorem State.send_pmbCmd (s : State) (m : Msg) : (s.send m).pmbCmd = s.pmbCmd := rfl
@[simp] theorem State.send_encPins (s : State) (m : Msg) : (s.send m).encPins = s.encPins := rfl
@[simp] theorem State.send_ticks (s : State) (m : Msg) : (s.send m).ticks = s.ticks := rfl
@[simp] theorem State.send_savedBags (s : State) (m : Msg) : (s.send m).savedBags = s.savedBags := rfl
@[simp] theorem State.send_ddrRows (s : State) (m : Msg) : (s.send m).ddrRows = s.ddrRows := rfl
@[simp] theorem State.send_ddrBad (s : State) (m : Msg) : (s.send m).ddrBad = s.ddrBad := rfl
@[simp] theorem State.send_scrubAt (s : State) (m : Msg) : (s.send m).scrubAt = s.scrubAt := rfl
@[simp] theorem State.send_holes (s : State) (m : Msg) : (s.send m).holes = s.holes := rfl
@[simp] theorem State.send_pcie (s : State) (m : Msg) : (s.send m).pcie = s.pcie := rfl
@[simp] theorem State.send_hostQ (s : State) (m : Msg) : (s.send m).hostQ = s.hostQ := rfl
@[simp] theorem State.send_hostOut (s : State) (m : Msg) : (s.send m).hostOut = s.hostOut := rfl
@[simp] theorem State.send_hostCpl (s : State) (m : Msg) : (s.send m).hostCpl = s.hostCpl := rfl
@[simp] theorem State.send_envelope (s : State) (m : Msg) : (s.send m).envelope = s.envelope := rfl
@[simp] theorem State.send_otpArb (s : State) (m : Msg) : (s.send m).otpArb = s.otpArb := rfl
@[simp] theorem State.send_hostLoad (s : State) (m : Msg) : (s.send m).hostLoad = s.hostLoad := rfl
@[simp] theorem State.send_hostBoot (s : State) (m : Msg) : (s.send m).hostBoot = s.hostBoot := rfl
@[simp] theorem State.send_fromFlash (s : State) (m : Msg) : (s.send m).fromFlash = s.fromFlash := rfl
@[simp] theorem State.send_repair (s : State) (m : Msg) : (s.send m).repair = s.repair := rfl
@[simp] theorem State.send_moves (s : State) (m : Msg) : (s.send m).moves = s.moves := rfl
@[simp] theorem State.send_digest (s : State) (m : Msg) : (s.send m).digest = s.digest := rfl
@[simp] theorem State.send_digestMs (s : State) (m : Msg) : (s.send m).digestMs = s.digestMs := rfl
@[simp] theorem State.send_smbReply (s : State) (m : Msg) : (s.send m).smbReply = s.smbReply := rfl
@[simp] theorem State.send_pads (s : State) (m : Msg) : (s.send m).pads = s.pads := rfl
@[simp] theorem State.send_heldFire (s : State) (m : Msg) : (s.send m).heldFire = s.heldFire := rfl
@[simp] theorem State.send_heldGpio (s : State) (m : Msg) : (s.send m).heldGpio = s.heldGpio := rfl
@[simp] theorem State.send_heldZl (s : State) (m : Msg) : (s.send m).heldZl = s.heldZl := rfl
@[simp] theorem State.send_tap (s : State) (m : Msg) : (s.send m).tap = s.tap := rfl

/-! ## State.putStage -/

@[simp] theorem State.putStage_pending (s : State) (w k : Nat) (v : Word) : (s.putStage w k v).pending = s.pending := rfl
@[simp] theorem State.putStage_now (s : State) (w k : Nat) (v : Word) : (s.putStage w k v).now = s.now := rfl
@[simp] theorem State.putStage_regs (s : State) (w k : Nat) (v : Word) : (s.putStage w k v).regs = s.regs := rfl
@[simp] theorem State.putStage_snaps (s : State) (w k : Nat) (v : Word) : (s.putStage w k v).snaps = s.snaps := rfl
@[simp] theorem State.putStage_sels (s : State) (w k : Nat) (v : Word) : (s.putStage w k v).sels = s.sels := rfl
@[simp] theorem State.putStage_mem (s : State) (w k : Nat) (v : Word) : (s.putStage w k v).mem = s.mem := rfl
@[simp] theorem State.putStage_msgs (s : State) (w k : Nat) (v : Word) : (s.putStage w k v).msgs = s.msgs := rfl
@[simp] theorem State.putStage_clerks (s : State) (w k : Nat) (v : Word) : (s.putStage w k v).clerks = s.clerks := rfl
@[simp] theorem State.putStage_lineCaches (s : State) (w k : Nat) (v : Word) : (s.putStage w k v).lineCaches = s.lineCaches := rfl
@[simp] theorem State.putStage_axes (s : State) (w k : Nat) (v : Word) : (s.putStage w k v).axes = s.axes := rfl
@[simp] theorem State.putStage_replicas (s : State) (w k : Nat) (v : Word) : (s.putStage w k v).replicas = s.replicas := rfl
@[simp] theorem State.putStage_epochs (s : State) (w k : Nat) (v : Word) : (s.putStage w k v).epochs = s.epochs := rfl
@[simp] theorem State.putStage_bags (s : State) (w k : Nat) (v : Word) : (s.putStage w k v).bags = s.bags := rfl
@[simp] theorem State.putStage_arrivals (s : State) (w k : Nat) (v : Word) : (s.putStage w k v).arrivals = s.arrivals := rfl
@[simp] theorem State.putStage_icu (s : State) (w k : Nat) (v : Word) : (s.putStage w k v).icu = s.icu := rfl
@[simp] theorem State.putStage_free (s : State) (w k : Nat) (v : Word) : (s.putStage w k v).free = s.free := rfl
@[simp] theorem State.putStage_modeAt (s : State) (w k : Nat) (v : Word) : (s.putStage w k v).modeAt = s.modeAt := rfl
@[simp] theorem State.putStage_fbPend (s : State) (w k : Nat) (v : Word) : (s.putStage w k v).fbPend = s.fbPend := rfl
@[simp] theorem State.putStage_bcLast (s : State) (w k : Nat) (v : Word) : (s.putStage w k v).bcLast = s.bcLast := rfl
@[simp] theorem State.putStage_bePause (s : State) (w k : Nat) (v : Word) : (s.putStage w k v).bePause = s.bePause := rfl
@[simp] theorem State.putStage_cams (s : State) (w k : Nat) (v : Word) : (s.putStage w k v).cams = s.cams := rfl
@[simp] theorem State.putStage_cxSignal (s : State) (w k : Nat) (v : Word) : (s.putStage w k v).cxSignal = s.cxSignal := rfl
@[simp] theorem State.putStage_ccChans (s : State) (w k : Nat) (v : Word) : (s.putStage w k v).ccChans = s.ccChans := rfl
@[simp] theorem State.putStage_rgGap (s : State) (w k : Nat) (v : Word) : (s.putStage w k v).rgGap = s.rgGap := rfl
@[simp] theorem State.putStage_links (s : State) (w k : Nat) (v : Word) : (s.putStage w k v).links = s.links := rfl
@[simp] theorem State.putStage_routers (s : State) (w k : Nat) (v : Word) : (s.putStage w k v).routers = s.routers := rfl
@[simp] theorem State.putStage_dies (s : State) (w k : Nat) (v : Word) : (s.putStage w k v).dies = s.dies := rfl
@[simp] theorem State.putStage_crossings (s : State) (w k : Nat) (v : Word) : (s.putStage w k v).crossings = s.crossings := rfl
@[simp] theorem State.putStage_routes (s : State) (w k : Nat) (v : Word) : (s.putStage w k v).routes = s.routes := rfl
@[simp] theorem State.putStage_faultWins (s : State) (w k : Nat) (v : Word) : (s.putStage w k v).faultWins = s.faultWins := rfl
@[simp] theorem State.putStage_deadCaps (s : State) (w k : Nat) (v : Word) : (s.putStage w k v).deadCaps = s.deadCaps := rfl
@[simp] theorem State.putStage_faultLog (s : State) (w k : Nat) (v : Word) : (s.putStage w k v).faultLog = s.faultLog := rfl
@[simp] theorem State.putStage_logCount (s : State) (w k : Nat) (v : Word) : (s.putStage w k v).logCount = s.logCount := rfl
@[simp] theorem State.putStage_aonTime (s : State) (w k : Nat) (v : Word) : (s.putStage w k v).aonTime = s.aonTime := rfl
@[simp] theorem State.putStage_meters (s : State) (w k : Nat) (v : Word) : (s.putStage w k v).meters = s.meters := rfl
@[simp] theorem State.putStage_served (s : State) (w k : Nat) (v : Word) : (s.putStage w k v).served = s.served := rfl
@[simp] theorem State.putStage_globalEvs (s : State) (w k : Nat) (v : Word) : (s.putStage w k v).globalEvs = s.globalEvs := rfl
@[simp] theorem State.putStage_chans (s : State) (w k : Nat) (v : Word) : (s.putStage w k v).chans = s.chans := rfl
@[simp] theorem State.putStage_outbox (s : State) (w k : Nat) (v : Word) : (s.putStage w k v).outbox = s.outbox := rfl
@[simp] theorem State.putStage_fe (s : State) (w k : Nat) (v : Word) : (s.putStage w k v).fe = s.fe := rfl
@[simp] theorem State.putStage_zports (s : State) (w k : Nat) (v : Word) : (s.putStage w k v).zports = s.zports := rfl
@[simp] theorem State.putStage_znodes (s : State) (w k : Nat) (v : Word) : (s.putStage w k v).znodes = s.znodes := rfl
@[simp] theorem State.putStage_padHold (s : State) (w k : Nat) (v : Word) : (s.putStage w k v).padHold = s.padHold := rfl
@[simp] theorem State.putStage_phase (s : State) (w k : Nat) (v : Word) : (s.putStage w k v).phase = s.phase := rfl
@[simp] theorem State.putStage_vaon (s : State) (w k : Nat) (v : Word) : (s.putStage w k v).vaon = s.vaon := rfl
@[simp] theorem State.putStage_plRuns (s : State) (w k : Nat) (v : Word) : (s.putStage w k v).plRuns = s.plRuns := rfl
@[simp] theorem State.putStage_holdOff (s : State) (w k : Nat) (v : Word) : (s.putStage w k v).holdOff = s.holdOff := rfl
@[simp] theorem State.putStage_sleep (s : State) (w k : Nat) (v : Word) : (s.putStage w k v).sleep = s.sleep := rfl
@[simp] theorem State.putStage_wake (s : State) (w k : Nat) (v : Word) : (s.putStage w k v).wake = s.wake := rfl
@[simp] theorem State.putStage_savedAxes (s : State) (w k : Nat) (v : Word) : (s.putStage w k v).savedAxes = s.savedAxes := rfl
@[simp] theorem State.putStage_savedAon (s : State) (w k : Nat) (v : Word) : (s.putStage w k v).savedAon = s.savedAon := rfl
@[simp] theorem State.putStage_savedLevels (s : State) (w k : Nat) (v : Word) : (s.putStage w k v).savedLevels = s.savedLevels := rfl
@[simp] theorem State.putStage_bankSigs (s : State) (w k : Nat) (v : Word) : (s.putStage w k v).bankSigs = s.bankSigs := rfl
@[simp] theorem State.putStage_encWake (s : State) (w k : Nat) (v : Word) : (s.putStage w k v).encWake = s.encWake := rfl
@[simp] theorem State.putStage_gpioWake (s : State) (w k : Nat) (v : Word) : (s.putStage w k v).gpioWake = s.gpioWake := rfl
@[simp] theorem State.putStage_strapBoot (s : State) (w k : Nat) (v : Word) : (s.putStage w k v).strapBoot = s.strapBoot := rfl
@[simp] theorem State.putStage_strapSmb (s : State) (w k : Nat) (v : Word) : (s.putStage w k v).strapSmb = s.strapSmb := rfl
@[simp] theorem State.putStage_polled (s : State) (w k : Nat) (v : Word) : (s.putStage w k v).polled = s.polled := rfl
@[simp] theorem State.putStage_pmbCmd (s : State) (w k : Nat) (v : Word) : (s.putStage w k v).pmbCmd = s.pmbCmd := rfl
@[simp] theorem State.putStage_encPins (s : State) (w k : Nat) (v : Word) : (s.putStage w k v).encPins = s.encPins := rfl
@[simp] theorem State.putStage_ticks (s : State) (w k : Nat) (v : Word) : (s.putStage w k v).ticks = s.ticks := rfl
@[simp] theorem State.putStage_savedBags (s : State) (w k : Nat) (v : Word) : (s.putStage w k v).savedBags = s.savedBags := rfl
@[simp] theorem State.putStage_ddrRows (s : State) (w k : Nat) (v : Word) : (s.putStage w k v).ddrRows = s.ddrRows := rfl
@[simp] theorem State.putStage_ddrBad (s : State) (w k : Nat) (v : Word) : (s.putStage w k v).ddrBad = s.ddrBad := rfl
@[simp] theorem State.putStage_scrubAt (s : State) (w k : Nat) (v : Word) : (s.putStage w k v).scrubAt = s.scrubAt := rfl
@[simp] theorem State.putStage_holes (s : State) (w k : Nat) (v : Word) : (s.putStage w k v).holes = s.holes := rfl
@[simp] theorem State.putStage_pcie (s : State) (w k : Nat) (v : Word) : (s.putStage w k v).pcie = s.pcie := rfl
@[simp] theorem State.putStage_hostQ (s : State) (w k : Nat) (v : Word) : (s.putStage w k v).hostQ = s.hostQ := rfl
@[simp] theorem State.putStage_hostOut (s : State) (w k : Nat) (v : Word) : (s.putStage w k v).hostOut = s.hostOut := rfl
@[simp] theorem State.putStage_hostCpl (s : State) (w k : Nat) (v : Word) : (s.putStage w k v).hostCpl = s.hostCpl := rfl
@[simp] theorem State.putStage_envelope (s : State) (w k : Nat) (v : Word) : (s.putStage w k v).envelope = s.envelope := rfl
@[simp] theorem State.putStage_otpArb (s : State) (w k : Nat) (v : Word) : (s.putStage w k v).otpArb = s.otpArb := rfl
@[simp] theorem State.putStage_hostLoad (s : State) (w k : Nat) (v : Word) : (s.putStage w k v).hostLoad = s.hostLoad := rfl
@[simp] theorem State.putStage_hostBoot (s : State) (w k : Nat) (v : Word) : (s.putStage w k v).hostBoot = s.hostBoot := rfl
@[simp] theorem State.putStage_fromFlash (s : State) (w k : Nat) (v : Word) : (s.putStage w k v).fromFlash = s.fromFlash := rfl
@[simp] theorem State.putStage_repair (s : State) (w k : Nat) (v : Word) : (s.putStage w k v).repair = s.repair := rfl
@[simp] theorem State.putStage_moves (s : State) (w k : Nat) (v : Word) : (s.putStage w k v).moves = s.moves := rfl
@[simp] theorem State.putStage_digest (s : State) (w k : Nat) (v : Word) : (s.putStage w k v).digest = s.digest := rfl
@[simp] theorem State.putStage_digestMs (s : State) (w k : Nat) (v : Word) : (s.putStage w k v).digestMs = s.digestMs := rfl
@[simp] theorem State.putStage_smbReply (s : State) (w k : Nat) (v : Word) : (s.putStage w k v).smbReply = s.smbReply := rfl
@[simp] theorem State.putStage_pads (s : State) (w k : Nat) (v : Word) : (s.putStage w k v).pads = s.pads := rfl
@[simp] theorem State.putStage_heldFire (s : State) (w k : Nat) (v : Word) : (s.putStage w k v).heldFire = s.heldFire := rfl
@[simp] theorem State.putStage_heldGpio (s : State) (w k : Nat) (v : Word) : (s.putStage w k v).heldGpio = s.heldGpio := rfl
@[simp] theorem State.putStage_heldZl (s : State) (w k : Nat) (v : Word) : (s.putStage w k v).heldZl = s.heldZl := rfl
@[simp] theorem State.putStage_tap (s : State) (w k : Nat) (v : Word) : (s.putStage w k v).tap = s.tap := rfl

/-! ## State.clearStage -/

@[simp] theorem State.clearStage_pending (s : State) (w k n : Nat) : (s.clearStage w k n).pending = s.pending := rfl
@[simp] theorem State.clearStage_now (s : State) (w k n : Nat) : (s.clearStage w k n).now = s.now := rfl
@[simp] theorem State.clearStage_regs (s : State) (w k n : Nat) : (s.clearStage w k n).regs = s.regs := rfl
@[simp] theorem State.clearStage_snaps (s : State) (w k n : Nat) : (s.clearStage w k n).snaps = s.snaps := rfl
@[simp] theorem State.clearStage_sels (s : State) (w k n : Nat) : (s.clearStage w k n).sels = s.sels := rfl
@[simp] theorem State.clearStage_mem (s : State) (w k n : Nat) : (s.clearStage w k n).mem = s.mem := rfl
@[simp] theorem State.clearStage_msgs (s : State) (w k n : Nat) : (s.clearStage w k n).msgs = s.msgs := rfl
@[simp] theorem State.clearStage_clerks (s : State) (w k n : Nat) : (s.clearStage w k n).clerks = s.clerks := rfl
@[simp] theorem State.clearStage_lineCaches (s : State) (w k n : Nat) : (s.clearStage w k n).lineCaches = s.lineCaches := rfl
@[simp] theorem State.clearStage_axes (s : State) (w k n : Nat) : (s.clearStage w k n).axes = s.axes := rfl
@[simp] theorem State.clearStage_replicas (s : State) (w k n : Nat) : (s.clearStage w k n).replicas = s.replicas := rfl
@[simp] theorem State.clearStage_epochs (s : State) (w k n : Nat) : (s.clearStage w k n).epochs = s.epochs := rfl
@[simp] theorem State.clearStage_bags (s : State) (w k n : Nat) : (s.clearStage w k n).bags = s.bags := rfl
@[simp] theorem State.clearStage_arrivals (s : State) (w k n : Nat) : (s.clearStage w k n).arrivals = s.arrivals := rfl
@[simp] theorem State.clearStage_icu (s : State) (w k n : Nat) : (s.clearStage w k n).icu = s.icu := rfl
@[simp] theorem State.clearStage_free (s : State) (w k n : Nat) : (s.clearStage w k n).free = s.free := rfl
@[simp] theorem State.clearStage_modeAt (s : State) (w k n : Nat) : (s.clearStage w k n).modeAt = s.modeAt := rfl
@[simp] theorem State.clearStage_fbPend (s : State) (w k n : Nat) : (s.clearStage w k n).fbPend = s.fbPend := rfl
@[simp] theorem State.clearStage_bcLast (s : State) (w k n : Nat) : (s.clearStage w k n).bcLast = s.bcLast := rfl
@[simp] theorem State.clearStage_bePause (s : State) (w k n : Nat) : (s.clearStage w k n).bePause = s.bePause := rfl
@[simp] theorem State.clearStage_cams (s : State) (w k n : Nat) : (s.clearStage w k n).cams = s.cams := rfl
@[simp] theorem State.clearStage_cxSignal (s : State) (w k n : Nat) : (s.clearStage w k n).cxSignal = s.cxSignal := rfl
@[simp] theorem State.clearStage_ccChans (s : State) (w k n : Nat) : (s.clearStage w k n).ccChans = s.ccChans := rfl
@[simp] theorem State.clearStage_rgGap (s : State) (w k n : Nat) : (s.clearStage w k n).rgGap = s.rgGap := rfl
@[simp] theorem State.clearStage_links (s : State) (w k n : Nat) : (s.clearStage w k n).links = s.links := rfl
@[simp] theorem State.clearStage_routers (s : State) (w k n : Nat) : (s.clearStage w k n).routers = s.routers := rfl
@[simp] theorem State.clearStage_dies (s : State) (w k n : Nat) : (s.clearStage w k n).dies = s.dies := rfl
@[simp] theorem State.clearStage_crossings (s : State) (w k n : Nat) : (s.clearStage w k n).crossings = s.crossings := rfl
@[simp] theorem State.clearStage_routes (s : State) (w k n : Nat) : (s.clearStage w k n).routes = s.routes := rfl
@[simp] theorem State.clearStage_faultWins (s : State) (w k n : Nat) : (s.clearStage w k n).faultWins = s.faultWins := rfl
@[simp] theorem State.clearStage_deadCaps (s : State) (w k n : Nat) : (s.clearStage w k n).deadCaps = s.deadCaps := rfl
@[simp] theorem State.clearStage_faultLog (s : State) (w k n : Nat) : (s.clearStage w k n).faultLog = s.faultLog := rfl
@[simp] theorem State.clearStage_logCount (s : State) (w k n : Nat) : (s.clearStage w k n).logCount = s.logCount := rfl
@[simp] theorem State.clearStage_aonTime (s : State) (w k n : Nat) : (s.clearStage w k n).aonTime = s.aonTime := rfl
@[simp] theorem State.clearStage_meters (s : State) (w k n : Nat) : (s.clearStage w k n).meters = s.meters := rfl
@[simp] theorem State.clearStage_served (s : State) (w k n : Nat) : (s.clearStage w k n).served = s.served := rfl
@[simp] theorem State.clearStage_globalEvs (s : State) (w k n : Nat) : (s.clearStage w k n).globalEvs = s.globalEvs := rfl
@[simp] theorem State.clearStage_chans (s : State) (w k n : Nat) : (s.clearStage w k n).chans = s.chans := rfl
@[simp] theorem State.clearStage_outbox (s : State) (w k n : Nat) : (s.clearStage w k n).outbox = s.outbox := rfl
@[simp] theorem State.clearStage_fe (s : State) (w k n : Nat) : (s.clearStage w k n).fe = s.fe := rfl
@[simp] theorem State.clearStage_zports (s : State) (w k n : Nat) : (s.clearStage w k n).zports = s.zports := rfl
@[simp] theorem State.clearStage_znodes (s : State) (w k n : Nat) : (s.clearStage w k n).znodes = s.znodes := rfl
@[simp] theorem State.clearStage_padHold (s : State) (w k n : Nat) : (s.clearStage w k n).padHold = s.padHold := rfl
@[simp] theorem State.clearStage_phase (s : State) (w k n : Nat) : (s.clearStage w k n).phase = s.phase := rfl
@[simp] theorem State.clearStage_vaon (s : State) (w k n : Nat) : (s.clearStage w k n).vaon = s.vaon := rfl
@[simp] theorem State.clearStage_plRuns (s : State) (w k n : Nat) : (s.clearStage w k n).plRuns = s.plRuns := rfl
@[simp] theorem State.clearStage_holdOff (s : State) (w k n : Nat) : (s.clearStage w k n).holdOff = s.holdOff := rfl
@[simp] theorem State.clearStage_sleep (s : State) (w k n : Nat) : (s.clearStage w k n).sleep = s.sleep := rfl
@[simp] theorem State.clearStage_wake (s : State) (w k n : Nat) : (s.clearStage w k n).wake = s.wake := rfl
@[simp] theorem State.clearStage_savedAxes (s : State) (w k n : Nat) : (s.clearStage w k n).savedAxes = s.savedAxes := rfl
@[simp] theorem State.clearStage_savedAon (s : State) (w k n : Nat) : (s.clearStage w k n).savedAon = s.savedAon := rfl
@[simp] theorem State.clearStage_savedLevels (s : State) (w k n : Nat) : (s.clearStage w k n).savedLevels = s.savedLevels := rfl
@[simp] theorem State.clearStage_bankSigs (s : State) (w k n : Nat) : (s.clearStage w k n).bankSigs = s.bankSigs := rfl
@[simp] theorem State.clearStage_encWake (s : State) (w k n : Nat) : (s.clearStage w k n).encWake = s.encWake := rfl
@[simp] theorem State.clearStage_gpioWake (s : State) (w k n : Nat) : (s.clearStage w k n).gpioWake = s.gpioWake := rfl
@[simp] theorem State.clearStage_strapBoot (s : State) (w k n : Nat) : (s.clearStage w k n).strapBoot = s.strapBoot := rfl
@[simp] theorem State.clearStage_strapSmb (s : State) (w k n : Nat) : (s.clearStage w k n).strapSmb = s.strapSmb := rfl
@[simp] theorem State.clearStage_polled (s : State) (w k n : Nat) : (s.clearStage w k n).polled = s.polled := rfl
@[simp] theorem State.clearStage_pmbCmd (s : State) (w k n : Nat) : (s.clearStage w k n).pmbCmd = s.pmbCmd := rfl
@[simp] theorem State.clearStage_encPins (s : State) (w k n : Nat) : (s.clearStage w k n).encPins = s.encPins := rfl
@[simp] theorem State.clearStage_ticks (s : State) (w k n : Nat) : (s.clearStage w k n).ticks = s.ticks := rfl
@[simp] theorem State.clearStage_savedBags (s : State) (w k n : Nat) : (s.clearStage w k n).savedBags = s.savedBags := rfl
@[simp] theorem State.clearStage_ddrRows (s : State) (w k n : Nat) : (s.clearStage w k n).ddrRows = s.ddrRows := rfl
@[simp] theorem State.clearStage_ddrBad (s : State) (w k n : Nat) : (s.clearStage w k n).ddrBad = s.ddrBad := rfl
@[simp] theorem State.clearStage_scrubAt (s : State) (w k n : Nat) : (s.clearStage w k n).scrubAt = s.scrubAt := rfl
@[simp] theorem State.clearStage_holes (s : State) (w k n : Nat) : (s.clearStage w k n).holes = s.holes := rfl
@[simp] theorem State.clearStage_pcie (s : State) (w k n : Nat) : (s.clearStage w k n).pcie = s.pcie := rfl
@[simp] theorem State.clearStage_hostQ (s : State) (w k n : Nat) : (s.clearStage w k n).hostQ = s.hostQ := rfl
@[simp] theorem State.clearStage_hostOut (s : State) (w k n : Nat) : (s.clearStage w k n).hostOut = s.hostOut := rfl
@[simp] theorem State.clearStage_hostCpl (s : State) (w k n : Nat) : (s.clearStage w k n).hostCpl = s.hostCpl := rfl
@[simp] theorem State.clearStage_envelope (s : State) (w k n : Nat) : (s.clearStage w k n).envelope = s.envelope := rfl
@[simp] theorem State.clearStage_otpArb (s : State) (w k n : Nat) : (s.clearStage w k n).otpArb = s.otpArb := rfl
@[simp] theorem State.clearStage_hostLoad (s : State) (w k n : Nat) : (s.clearStage w k n).hostLoad = s.hostLoad := rfl
@[simp] theorem State.clearStage_hostBoot (s : State) (w k n : Nat) : (s.clearStage w k n).hostBoot = s.hostBoot := rfl
@[simp] theorem State.clearStage_fromFlash (s : State) (w k n : Nat) : (s.clearStage w k n).fromFlash = s.fromFlash := rfl
@[simp] theorem State.clearStage_repair (s : State) (w k n : Nat) : (s.clearStage w k n).repair = s.repair := rfl
@[simp] theorem State.clearStage_moves (s : State) (w k n : Nat) : (s.clearStage w k n).moves = s.moves := rfl
@[simp] theorem State.clearStage_digest (s : State) (w k n : Nat) : (s.clearStage w k n).digest = s.digest := rfl
@[simp] theorem State.clearStage_digestMs (s : State) (w k n : Nat) : (s.clearStage w k n).digestMs = s.digestMs := rfl
@[simp] theorem State.clearStage_smbReply (s : State) (w k n : Nat) : (s.clearStage w k n).smbReply = s.smbReply := rfl
@[simp] theorem State.clearStage_pads (s : State) (w k n : Nat) : (s.clearStage w k n).pads = s.pads := rfl
@[simp] theorem State.clearStage_heldFire (s : State) (w k n : Nat) : (s.clearStage w k n).heldFire = s.heldFire := rfl
@[simp] theorem State.clearStage_heldGpio (s : State) (w k n : Nat) : (s.clearStage w k n).heldGpio = s.heldGpio := rfl
@[simp] theorem State.clearStage_heldZl (s : State) (w k n : Nat) : (s.clearStage w k n).heldZl = s.heldZl := rfl
@[simp] theorem State.clearStage_tap (s : State) (w k n : Nat) : (s.clearStage w k n).tap = s.tap := rfl

/-! ## State.modDie -/

@[simp] theorem State.modDie_pending (s : State) (d : Nat) (f : Die → Die) : (s.modDie d f).pending = s.pending := rfl
@[simp] theorem State.modDie_now (s : State) (d : Nat) (f : Die → Die) : (s.modDie d f).now = s.now := rfl
@[simp] theorem State.modDie_regs (s : State) (d : Nat) (f : Die → Die) : (s.modDie d f).regs = s.regs := rfl
@[simp] theorem State.modDie_snaps (s : State) (d : Nat) (f : Die → Die) : (s.modDie d f).snaps = s.snaps := rfl
@[simp] theorem State.modDie_stage (s : State) (d : Nat) (f : Die → Die) : (s.modDie d f).stage = s.stage := rfl
@[simp] theorem State.modDie_sels (s : State) (d : Nat) (f : Die → Die) : (s.modDie d f).sels = s.sels := rfl
@[simp] theorem State.modDie_mem (s : State) (d : Nat) (f : Die → Die) : (s.modDie d f).mem = s.mem := rfl
@[simp] theorem State.modDie_msgs (s : State) (d : Nat) (f : Die → Die) : (s.modDie d f).msgs = s.msgs := rfl
@[simp] theorem State.modDie_clerks (s : State) (d : Nat) (f : Die → Die) : (s.modDie d f).clerks = s.clerks := rfl
@[simp] theorem State.modDie_lineCaches (s : State) (d : Nat) (f : Die → Die) : (s.modDie d f).lineCaches = s.lineCaches := rfl
@[simp] theorem State.modDie_axes (s : State) (d : Nat) (f : Die → Die) : (s.modDie d f).axes = s.axes := rfl
@[simp] theorem State.modDie_replicas (s : State) (d : Nat) (f : Die → Die) : (s.modDie d f).replicas = s.replicas := rfl
@[simp] theorem State.modDie_epochs (s : State) (d : Nat) (f : Die → Die) : (s.modDie d f).epochs = s.epochs := rfl
@[simp] theorem State.modDie_bags (s : State) (d : Nat) (f : Die → Die) : (s.modDie d f).bags = s.bags := rfl
@[simp] theorem State.modDie_arrivals (s : State) (d : Nat) (f : Die → Die) : (s.modDie d f).arrivals = s.arrivals := rfl
@[simp] theorem State.modDie_icu (s : State) (d : Nat) (f : Die → Die) : (s.modDie d f).icu = s.icu := rfl
@[simp] theorem State.modDie_free (s : State) (d : Nat) (f : Die → Die) : (s.modDie d f).free = s.free := rfl
@[simp] theorem State.modDie_modeAt (s : State) (d : Nat) (f : Die → Die) : (s.modDie d f).modeAt = s.modeAt := rfl
@[simp] theorem State.modDie_fbPend (s : State) (d : Nat) (f : Die → Die) : (s.modDie d f).fbPend = s.fbPend := rfl
@[simp] theorem State.modDie_bcLast (s : State) (d : Nat) (f : Die → Die) : (s.modDie d f).bcLast = s.bcLast := rfl
@[simp] theorem State.modDie_bePause (s : State) (d : Nat) (f : Die → Die) : (s.modDie d f).bePause = s.bePause := rfl
@[simp] theorem State.modDie_cams (s : State) (d : Nat) (f : Die → Die) : (s.modDie d f).cams = s.cams := rfl
@[simp] theorem State.modDie_cxSignal (s : State) (d : Nat) (f : Die → Die) : (s.modDie d f).cxSignal = s.cxSignal := rfl
@[simp] theorem State.modDie_ccChans (s : State) (d : Nat) (f : Die → Die) : (s.modDie d f).ccChans = s.ccChans := rfl
@[simp] theorem State.modDie_rgGap (s : State) (d : Nat) (f : Die → Die) : (s.modDie d f).rgGap = s.rgGap := rfl
@[simp] theorem State.modDie_links (s : State) (d : Nat) (f : Die → Die) : (s.modDie d f).links = s.links := rfl
@[simp] theorem State.modDie_routers (s : State) (d : Nat) (f : Die → Die) : (s.modDie d f).routers = s.routers := rfl
@[simp] theorem State.modDie_crossings (s : State) (d : Nat) (f : Die → Die) : (s.modDie d f).crossings = s.crossings := rfl
@[simp] theorem State.modDie_routes (s : State) (d : Nat) (f : Die → Die) : (s.modDie d f).routes = s.routes := rfl
@[simp] theorem State.modDie_faultWins (s : State) (d : Nat) (f : Die → Die) : (s.modDie d f).faultWins = s.faultWins := rfl
@[simp] theorem State.modDie_deadCaps (s : State) (d : Nat) (f : Die → Die) : (s.modDie d f).deadCaps = s.deadCaps := rfl
@[simp] theorem State.modDie_faultLog (s : State) (d : Nat) (f : Die → Die) : (s.modDie d f).faultLog = s.faultLog := rfl
@[simp] theorem State.modDie_logCount (s : State) (d : Nat) (f : Die → Die) : (s.modDie d f).logCount = s.logCount := rfl
@[simp] theorem State.modDie_aonTime (s : State) (d : Nat) (f : Die → Die) : (s.modDie d f).aonTime = s.aonTime := rfl
@[simp] theorem State.modDie_meters (s : State) (d : Nat) (f : Die → Die) : (s.modDie d f).meters = s.meters := rfl
@[simp] theorem State.modDie_served (s : State) (d : Nat) (f : Die → Die) : (s.modDie d f).served = s.served := rfl
@[simp] theorem State.modDie_globalEvs (s : State) (d : Nat) (f : Die → Die) : (s.modDie d f).globalEvs = s.globalEvs := rfl
@[simp] theorem State.modDie_chans (s : State) (d : Nat) (f : Die → Die) : (s.modDie d f).chans = s.chans := rfl
@[simp] theorem State.modDie_outbox (s : State) (d : Nat) (f : Die → Die) : (s.modDie d f).outbox = s.outbox := rfl
@[simp] theorem State.modDie_fe (s : State) (d : Nat) (f : Die → Die) : (s.modDie d f).fe = s.fe := rfl
@[simp] theorem State.modDie_zports (s : State) (d : Nat) (f : Die → Die) : (s.modDie d f).zports = s.zports := rfl
@[simp] theorem State.modDie_znodes (s : State) (d : Nat) (f : Die → Die) : (s.modDie d f).znodes = s.znodes := rfl
@[simp] theorem State.modDie_padHold (s : State) (d : Nat) (f : Die → Die) : (s.modDie d f).padHold = s.padHold := rfl
@[simp] theorem State.modDie_phase (s : State) (d : Nat) (f : Die → Die) : (s.modDie d f).phase = s.phase := rfl
@[simp] theorem State.modDie_vaon (s : State) (d : Nat) (f : Die → Die) : (s.modDie d f).vaon = s.vaon := rfl
@[simp] theorem State.modDie_plRuns (s : State) (d : Nat) (f : Die → Die) : (s.modDie d f).plRuns = s.plRuns := rfl
@[simp] theorem State.modDie_holdOff (s : State) (d : Nat) (f : Die → Die) : (s.modDie d f).holdOff = s.holdOff := rfl
@[simp] theorem State.modDie_sleep (s : State) (d : Nat) (f : Die → Die) : (s.modDie d f).sleep = s.sleep := rfl
@[simp] theorem State.modDie_wake (s : State) (d : Nat) (f : Die → Die) : (s.modDie d f).wake = s.wake := rfl
@[simp] theorem State.modDie_savedAxes (s : State) (d : Nat) (f : Die → Die) : (s.modDie d f).savedAxes = s.savedAxes := rfl
@[simp] theorem State.modDie_savedAon (s : State) (d : Nat) (f : Die → Die) : (s.modDie d f).savedAon = s.savedAon := rfl
@[simp] theorem State.modDie_savedLevels (s : State) (d : Nat) (f : Die → Die) : (s.modDie d f).savedLevels = s.savedLevels := rfl
@[simp] theorem State.modDie_bankSigs (s : State) (d : Nat) (f : Die → Die) : (s.modDie d f).bankSigs = s.bankSigs := rfl
@[simp] theorem State.modDie_encWake (s : State) (d : Nat) (f : Die → Die) : (s.modDie d f).encWake = s.encWake := rfl
@[simp] theorem State.modDie_gpioWake (s : State) (d : Nat) (f : Die → Die) : (s.modDie d f).gpioWake = s.gpioWake := rfl
@[simp] theorem State.modDie_strapBoot (s : State) (d : Nat) (f : Die → Die) : (s.modDie d f).strapBoot = s.strapBoot := rfl
@[simp] theorem State.modDie_strapSmb (s : State) (d : Nat) (f : Die → Die) : (s.modDie d f).strapSmb = s.strapSmb := rfl
@[simp] theorem State.modDie_polled (s : State) (d : Nat) (f : Die → Die) : (s.modDie d f).polled = s.polled := rfl
@[simp] theorem State.modDie_pmbCmd (s : State) (d : Nat) (f : Die → Die) : (s.modDie d f).pmbCmd = s.pmbCmd := rfl
@[simp] theorem State.modDie_encPins (s : State) (d : Nat) (f : Die → Die) : (s.modDie d f).encPins = s.encPins := rfl
@[simp] theorem State.modDie_ticks (s : State) (d : Nat) (f : Die → Die) : (s.modDie d f).ticks = s.ticks := rfl
@[simp] theorem State.modDie_savedBags (s : State) (d : Nat) (f : Die → Die) : (s.modDie d f).savedBags = s.savedBags := rfl
@[simp] theorem State.modDie_ddrRows (s : State) (d : Nat) (f : Die → Die) : (s.modDie d f).ddrRows = s.ddrRows := rfl
@[simp] theorem State.modDie_ddrBad (s : State) (d : Nat) (f : Die → Die) : (s.modDie d f).ddrBad = s.ddrBad := rfl
@[simp] theorem State.modDie_scrubAt (s : State) (d : Nat) (f : Die → Die) : (s.modDie d f).scrubAt = s.scrubAt := rfl
@[simp] theorem State.modDie_holes (s : State) (d : Nat) (f : Die → Die) : (s.modDie d f).holes = s.holes := rfl
@[simp] theorem State.modDie_pcie (s : State) (d : Nat) (f : Die → Die) : (s.modDie d f).pcie = s.pcie := rfl
@[simp] theorem State.modDie_hostQ (s : State) (d : Nat) (f : Die → Die) : (s.modDie d f).hostQ = s.hostQ := rfl
@[simp] theorem State.modDie_hostOut (s : State) (d : Nat) (f : Die → Die) : (s.modDie d f).hostOut = s.hostOut := rfl
@[simp] theorem State.modDie_hostCpl (s : State) (d : Nat) (f : Die → Die) : (s.modDie d f).hostCpl = s.hostCpl := rfl
@[simp] theorem State.modDie_envelope (s : State) (d : Nat) (f : Die → Die) : (s.modDie d f).envelope = s.envelope := rfl
@[simp] theorem State.modDie_otpArb (s : State) (d : Nat) (f : Die → Die) : (s.modDie d f).otpArb = s.otpArb := rfl
@[simp] theorem State.modDie_hostLoad (s : State) (d : Nat) (f : Die → Die) : (s.modDie d f).hostLoad = s.hostLoad := rfl
@[simp] theorem State.modDie_hostBoot (s : State) (d : Nat) (f : Die → Die) : (s.modDie d f).hostBoot = s.hostBoot := rfl
@[simp] theorem State.modDie_fromFlash (s : State) (d : Nat) (f : Die → Die) : (s.modDie d f).fromFlash = s.fromFlash := rfl
@[simp] theorem State.modDie_repair (s : State) (d : Nat) (f : Die → Die) : (s.modDie d f).repair = s.repair := rfl
@[simp] theorem State.modDie_moves (s : State) (d : Nat) (f : Die → Die) : (s.modDie d f).moves = s.moves := rfl
@[simp] theorem State.modDie_digest (s : State) (d : Nat) (f : Die → Die) : (s.modDie d f).digest = s.digest := rfl
@[simp] theorem State.modDie_digestMs (s : State) (d : Nat) (f : Die → Die) : (s.modDie d f).digestMs = s.digestMs := rfl
@[simp] theorem State.modDie_smbReply (s : State) (d : Nat) (f : Die → Die) : (s.modDie d f).smbReply = s.smbReply := rfl
@[simp] theorem State.modDie_pads (s : State) (d : Nat) (f : Die → Die) : (s.modDie d f).pads = s.pads := rfl
@[simp] theorem State.modDie_heldFire (s : State) (d : Nat) (f : Die → Die) : (s.modDie d f).heldFire = s.heldFire := rfl
@[simp] theorem State.modDie_heldGpio (s : State) (d : Nat) (f : Die → Die) : (s.modDie d f).heldGpio = s.heldGpio := rfl
@[simp] theorem State.modDie_heldZl (s : State) (d : Nat) (f : Die → Die) : (s.modDie d f).heldZl = s.heldZl := rfl
@[simp] theorem State.modDie_tap (s : State) (d : Nat) (f : Die → Die) : (s.modDie d f).tap = s.tap := rfl

/-! ## State.modLink -/

@[simp] theorem State.modLink_pending (s : State) (l : Nat) (f : Link → Link) : (s.modLink l f).pending = s.pending := rfl
@[simp] theorem State.modLink_now (s : State) (l : Nat) (f : Link → Link) : (s.modLink l f).now = s.now := rfl
@[simp] theorem State.modLink_regs (s : State) (l : Nat) (f : Link → Link) : (s.modLink l f).regs = s.regs := rfl
@[simp] theorem State.modLink_snaps (s : State) (l : Nat) (f : Link → Link) : (s.modLink l f).snaps = s.snaps := rfl
@[simp] theorem State.modLink_stage (s : State) (l : Nat) (f : Link → Link) : (s.modLink l f).stage = s.stage := rfl
@[simp] theorem State.modLink_sels (s : State) (l : Nat) (f : Link → Link) : (s.modLink l f).sels = s.sels := rfl
@[simp] theorem State.modLink_mem (s : State) (l : Nat) (f : Link → Link) : (s.modLink l f).mem = s.mem := rfl
@[simp] theorem State.modLink_msgs (s : State) (l : Nat) (f : Link → Link) : (s.modLink l f).msgs = s.msgs := rfl
@[simp] theorem State.modLink_clerks (s : State) (l : Nat) (f : Link → Link) : (s.modLink l f).clerks = s.clerks := rfl
@[simp] theorem State.modLink_lineCaches (s : State) (l : Nat) (f : Link → Link) : (s.modLink l f).lineCaches = s.lineCaches := rfl
@[simp] theorem State.modLink_axes (s : State) (l : Nat) (f : Link → Link) : (s.modLink l f).axes = s.axes := rfl
@[simp] theorem State.modLink_replicas (s : State) (l : Nat) (f : Link → Link) : (s.modLink l f).replicas = s.replicas := rfl
@[simp] theorem State.modLink_epochs (s : State) (l : Nat) (f : Link → Link) : (s.modLink l f).epochs = s.epochs := rfl
@[simp] theorem State.modLink_bags (s : State) (l : Nat) (f : Link → Link) : (s.modLink l f).bags = s.bags := rfl
@[simp] theorem State.modLink_arrivals (s : State) (l : Nat) (f : Link → Link) : (s.modLink l f).arrivals = s.arrivals := rfl
@[simp] theorem State.modLink_icu (s : State) (l : Nat) (f : Link → Link) : (s.modLink l f).icu = s.icu := rfl
@[simp] theorem State.modLink_free (s : State) (l : Nat) (f : Link → Link) : (s.modLink l f).free = s.free := rfl
@[simp] theorem State.modLink_modeAt (s : State) (l : Nat) (f : Link → Link) : (s.modLink l f).modeAt = s.modeAt := rfl
@[simp] theorem State.modLink_fbPend (s : State) (l : Nat) (f : Link → Link) : (s.modLink l f).fbPend = s.fbPend := rfl
@[simp] theorem State.modLink_bcLast (s : State) (l : Nat) (f : Link → Link) : (s.modLink l f).bcLast = s.bcLast := rfl
@[simp] theorem State.modLink_bePause (s : State) (l : Nat) (f : Link → Link) : (s.modLink l f).bePause = s.bePause := rfl
@[simp] theorem State.modLink_cams (s : State) (l : Nat) (f : Link → Link) : (s.modLink l f).cams = s.cams := rfl
@[simp] theorem State.modLink_cxSignal (s : State) (l : Nat) (f : Link → Link) : (s.modLink l f).cxSignal = s.cxSignal := rfl
@[simp] theorem State.modLink_ccChans (s : State) (l : Nat) (f : Link → Link) : (s.modLink l f).ccChans = s.ccChans := rfl
@[simp] theorem State.modLink_rgGap (s : State) (l : Nat) (f : Link → Link) : (s.modLink l f).rgGap = s.rgGap := rfl
@[simp] theorem State.modLink_routers (s : State) (l : Nat) (f : Link → Link) : (s.modLink l f).routers = s.routers := rfl
@[simp] theorem State.modLink_dies (s : State) (l : Nat) (f : Link → Link) : (s.modLink l f).dies = s.dies := rfl
@[simp] theorem State.modLink_crossings (s : State) (l : Nat) (f : Link → Link) : (s.modLink l f).crossings = s.crossings := rfl
@[simp] theorem State.modLink_routes (s : State) (l : Nat) (f : Link → Link) : (s.modLink l f).routes = s.routes := rfl
@[simp] theorem State.modLink_faultWins (s : State) (l : Nat) (f : Link → Link) : (s.modLink l f).faultWins = s.faultWins := rfl
@[simp] theorem State.modLink_deadCaps (s : State) (l : Nat) (f : Link → Link) : (s.modLink l f).deadCaps = s.deadCaps := rfl
@[simp] theorem State.modLink_faultLog (s : State) (l : Nat) (f : Link → Link) : (s.modLink l f).faultLog = s.faultLog := rfl
@[simp] theorem State.modLink_logCount (s : State) (l : Nat) (f : Link → Link) : (s.modLink l f).logCount = s.logCount := rfl
@[simp] theorem State.modLink_aonTime (s : State) (l : Nat) (f : Link → Link) : (s.modLink l f).aonTime = s.aonTime := rfl
@[simp] theorem State.modLink_meters (s : State) (l : Nat) (f : Link → Link) : (s.modLink l f).meters = s.meters := rfl
@[simp] theorem State.modLink_served (s : State) (l : Nat) (f : Link → Link) : (s.modLink l f).served = s.served := rfl
@[simp] theorem State.modLink_globalEvs (s : State) (l : Nat) (f : Link → Link) : (s.modLink l f).globalEvs = s.globalEvs := rfl
@[simp] theorem State.modLink_chans (s : State) (l : Nat) (f : Link → Link) : (s.modLink l f).chans = s.chans := rfl
@[simp] theorem State.modLink_outbox (s : State) (l : Nat) (f : Link → Link) : (s.modLink l f).outbox = s.outbox := rfl
@[simp] theorem State.modLink_fe (s : State) (l : Nat) (f : Link → Link) : (s.modLink l f).fe = s.fe := rfl
@[simp] theorem State.modLink_zports (s : State) (l : Nat) (f : Link → Link) : (s.modLink l f).zports = s.zports := rfl
@[simp] theorem State.modLink_znodes (s : State) (l : Nat) (f : Link → Link) : (s.modLink l f).znodes = s.znodes := rfl
@[simp] theorem State.modLink_padHold (s : State) (l : Nat) (f : Link → Link) : (s.modLink l f).padHold = s.padHold := rfl
@[simp] theorem State.modLink_phase (s : State) (l : Nat) (f : Link → Link) : (s.modLink l f).phase = s.phase := rfl
@[simp] theorem State.modLink_vaon (s : State) (l : Nat) (f : Link → Link) : (s.modLink l f).vaon = s.vaon := rfl
@[simp] theorem State.modLink_plRuns (s : State) (l : Nat) (f : Link → Link) : (s.modLink l f).plRuns = s.plRuns := rfl
@[simp] theorem State.modLink_holdOff (s : State) (l : Nat) (f : Link → Link) : (s.modLink l f).holdOff = s.holdOff := rfl
@[simp] theorem State.modLink_sleep (s : State) (l : Nat) (f : Link → Link) : (s.modLink l f).sleep = s.sleep := rfl
@[simp] theorem State.modLink_wake (s : State) (l : Nat) (f : Link → Link) : (s.modLink l f).wake = s.wake := rfl
@[simp] theorem State.modLink_savedAxes (s : State) (l : Nat) (f : Link → Link) : (s.modLink l f).savedAxes = s.savedAxes := rfl
@[simp] theorem State.modLink_savedAon (s : State) (l : Nat) (f : Link → Link) : (s.modLink l f).savedAon = s.savedAon := rfl
@[simp] theorem State.modLink_savedLevels (s : State) (l : Nat) (f : Link → Link) : (s.modLink l f).savedLevels = s.savedLevels := rfl
@[simp] theorem State.modLink_bankSigs (s : State) (l : Nat) (f : Link → Link) : (s.modLink l f).bankSigs = s.bankSigs := rfl
@[simp] theorem State.modLink_encWake (s : State) (l : Nat) (f : Link → Link) : (s.modLink l f).encWake = s.encWake := rfl
@[simp] theorem State.modLink_gpioWake (s : State) (l : Nat) (f : Link → Link) : (s.modLink l f).gpioWake = s.gpioWake := rfl
@[simp] theorem State.modLink_strapBoot (s : State) (l : Nat) (f : Link → Link) : (s.modLink l f).strapBoot = s.strapBoot := rfl
@[simp] theorem State.modLink_strapSmb (s : State) (l : Nat) (f : Link → Link) : (s.modLink l f).strapSmb = s.strapSmb := rfl
@[simp] theorem State.modLink_polled (s : State) (l : Nat) (f : Link → Link) : (s.modLink l f).polled = s.polled := rfl
@[simp] theorem State.modLink_pmbCmd (s : State) (l : Nat) (f : Link → Link) : (s.modLink l f).pmbCmd = s.pmbCmd := rfl
@[simp] theorem State.modLink_encPins (s : State) (l : Nat) (f : Link → Link) : (s.modLink l f).encPins = s.encPins := rfl
@[simp] theorem State.modLink_ticks (s : State) (l : Nat) (f : Link → Link) : (s.modLink l f).ticks = s.ticks := rfl
@[simp] theorem State.modLink_savedBags (s : State) (l : Nat) (f : Link → Link) : (s.modLink l f).savedBags = s.savedBags := rfl
@[simp] theorem State.modLink_ddrRows (s : State) (l : Nat) (f : Link → Link) : (s.modLink l f).ddrRows = s.ddrRows := rfl
@[simp] theorem State.modLink_ddrBad (s : State) (l : Nat) (f : Link → Link) : (s.modLink l f).ddrBad = s.ddrBad := rfl
@[simp] theorem State.modLink_scrubAt (s : State) (l : Nat) (f : Link → Link) : (s.modLink l f).scrubAt = s.scrubAt := rfl
@[simp] theorem State.modLink_holes (s : State) (l : Nat) (f : Link → Link) : (s.modLink l f).holes = s.holes := rfl
@[simp] theorem State.modLink_pcie (s : State) (l : Nat) (f : Link → Link) : (s.modLink l f).pcie = s.pcie := rfl
@[simp] theorem State.modLink_hostQ (s : State) (l : Nat) (f : Link → Link) : (s.modLink l f).hostQ = s.hostQ := rfl
@[simp] theorem State.modLink_hostOut (s : State) (l : Nat) (f : Link → Link) : (s.modLink l f).hostOut = s.hostOut := rfl
@[simp] theorem State.modLink_hostCpl (s : State) (l : Nat) (f : Link → Link) : (s.modLink l f).hostCpl = s.hostCpl := rfl
@[simp] theorem State.modLink_envelope (s : State) (l : Nat) (f : Link → Link) : (s.modLink l f).envelope = s.envelope := rfl
@[simp] theorem State.modLink_otpArb (s : State) (l : Nat) (f : Link → Link) : (s.modLink l f).otpArb = s.otpArb := rfl
@[simp] theorem State.modLink_hostLoad (s : State) (l : Nat) (f : Link → Link) : (s.modLink l f).hostLoad = s.hostLoad := rfl
@[simp] theorem State.modLink_hostBoot (s : State) (l : Nat) (f : Link → Link) : (s.modLink l f).hostBoot = s.hostBoot := rfl
@[simp] theorem State.modLink_fromFlash (s : State) (l : Nat) (f : Link → Link) : (s.modLink l f).fromFlash = s.fromFlash := rfl
@[simp] theorem State.modLink_repair (s : State) (l : Nat) (f : Link → Link) : (s.modLink l f).repair = s.repair := rfl
@[simp] theorem State.modLink_moves (s : State) (l : Nat) (f : Link → Link) : (s.modLink l f).moves = s.moves := rfl
@[simp] theorem State.modLink_digest (s : State) (l : Nat) (f : Link → Link) : (s.modLink l f).digest = s.digest := rfl
@[simp] theorem State.modLink_digestMs (s : State) (l : Nat) (f : Link → Link) : (s.modLink l f).digestMs = s.digestMs := rfl
@[simp] theorem State.modLink_smbReply (s : State) (l : Nat) (f : Link → Link) : (s.modLink l f).smbReply = s.smbReply := rfl
@[simp] theorem State.modLink_pads (s : State) (l : Nat) (f : Link → Link) : (s.modLink l f).pads = s.pads := rfl
@[simp] theorem State.modLink_heldFire (s : State) (l : Nat) (f : Link → Link) : (s.modLink l f).heldFire = s.heldFire := rfl
@[simp] theorem State.modLink_heldGpio (s : State) (l : Nat) (f : Link → Link) : (s.modLink l f).heldGpio = s.heldGpio := rfl
@[simp] theorem State.modLink_heldZl (s : State) (l : Nat) (f : Link → Link) : (s.modLink l f).heldZl = s.heldZl := rfl
@[simp] theorem State.modLink_tap (s : State) (l : Nat) (f : Link → Link) : (s.modLink l f).tap = s.tap := rfl

/-! ## State.setMeter -/

@[simp] theorem State.setMeter_pending (s : State) (d r c : Nat) (m : Meter) : (s.setMeter d r c m).pending = s.pending := rfl
@[simp] theorem State.setMeter_now (s : State) (d r c : Nat) (m : Meter) : (s.setMeter d r c m).now = s.now := rfl
@[simp] theorem State.setMeter_regs (s : State) (d r c : Nat) (m : Meter) : (s.setMeter d r c m).regs = s.regs := rfl
@[simp] theorem State.setMeter_snaps (s : State) (d r c : Nat) (m : Meter) : (s.setMeter d r c m).snaps = s.snaps := rfl
@[simp] theorem State.setMeter_stage (s : State) (d r c : Nat) (m : Meter) : (s.setMeter d r c m).stage = s.stage := rfl
@[simp] theorem State.setMeter_sels (s : State) (d r c : Nat) (m : Meter) : (s.setMeter d r c m).sels = s.sels := rfl
@[simp] theorem State.setMeter_mem (s : State) (d r c : Nat) (m : Meter) : (s.setMeter d r c m).mem = s.mem := rfl
@[simp] theorem State.setMeter_msgs (s : State) (d r c : Nat) (m : Meter) : (s.setMeter d r c m).msgs = s.msgs := rfl
@[simp] theorem State.setMeter_clerks (s : State) (d r c : Nat) (m : Meter) : (s.setMeter d r c m).clerks = s.clerks := rfl
@[simp] theorem State.setMeter_lineCaches (s : State) (d r c : Nat) (m : Meter) : (s.setMeter d r c m).lineCaches = s.lineCaches := rfl
@[simp] theorem State.setMeter_axes (s : State) (d r c : Nat) (m : Meter) : (s.setMeter d r c m).axes = s.axes := rfl
@[simp] theorem State.setMeter_replicas (s : State) (d r c : Nat) (m : Meter) : (s.setMeter d r c m).replicas = s.replicas := rfl
@[simp] theorem State.setMeter_epochs (s : State) (d r c : Nat) (m : Meter) : (s.setMeter d r c m).epochs = s.epochs := rfl
@[simp] theorem State.setMeter_bags (s : State) (d r c : Nat) (m : Meter) : (s.setMeter d r c m).bags = s.bags := rfl
@[simp] theorem State.setMeter_arrivals (s : State) (d r c : Nat) (m : Meter) : (s.setMeter d r c m).arrivals = s.arrivals := rfl
@[simp] theorem State.setMeter_icu (s : State) (d r c : Nat) (m : Meter) : (s.setMeter d r c m).icu = s.icu := rfl
@[simp] theorem State.setMeter_free (s : State) (d r c : Nat) (m : Meter) : (s.setMeter d r c m).free = s.free := rfl
@[simp] theorem State.setMeter_modeAt (s : State) (d r c : Nat) (m : Meter) : (s.setMeter d r c m).modeAt = s.modeAt := rfl
@[simp] theorem State.setMeter_fbPend (s : State) (d r c : Nat) (m : Meter) : (s.setMeter d r c m).fbPend = s.fbPend := rfl
@[simp] theorem State.setMeter_bcLast (s : State) (d r c : Nat) (m : Meter) : (s.setMeter d r c m).bcLast = s.bcLast := rfl
@[simp] theorem State.setMeter_bePause (s : State) (d r c : Nat) (m : Meter) : (s.setMeter d r c m).bePause = s.bePause := rfl
@[simp] theorem State.setMeter_cams (s : State) (d r c : Nat) (m : Meter) : (s.setMeter d r c m).cams = s.cams := rfl
@[simp] theorem State.setMeter_cxSignal (s : State) (d r c : Nat) (m : Meter) : (s.setMeter d r c m).cxSignal = s.cxSignal := rfl
@[simp] theorem State.setMeter_ccChans (s : State) (d r c : Nat) (m : Meter) : (s.setMeter d r c m).ccChans = s.ccChans := rfl
@[simp] theorem State.setMeter_rgGap (s : State) (d r c : Nat) (m : Meter) : (s.setMeter d r c m).rgGap = s.rgGap := rfl
@[simp] theorem State.setMeter_links (s : State) (d r c : Nat) (m : Meter) : (s.setMeter d r c m).links = s.links := rfl
@[simp] theorem State.setMeter_routers (s : State) (d r c : Nat) (m : Meter) : (s.setMeter d r c m).routers = s.routers := rfl
@[simp] theorem State.setMeter_dies (s : State) (d r c : Nat) (m : Meter) : (s.setMeter d r c m).dies = s.dies := rfl
@[simp] theorem State.setMeter_crossings (s : State) (d r c : Nat) (m : Meter) : (s.setMeter d r c m).crossings = s.crossings := rfl
@[simp] theorem State.setMeter_routes (s : State) (d r c : Nat) (m : Meter) : (s.setMeter d r c m).routes = s.routes := rfl
@[simp] theorem State.setMeter_faultWins (s : State) (d r c : Nat) (m : Meter) : (s.setMeter d r c m).faultWins = s.faultWins := rfl
@[simp] theorem State.setMeter_deadCaps (s : State) (d r c : Nat) (m : Meter) : (s.setMeter d r c m).deadCaps = s.deadCaps := rfl
@[simp] theorem State.setMeter_faultLog (s : State) (d r c : Nat) (m : Meter) : (s.setMeter d r c m).faultLog = s.faultLog := rfl
@[simp] theorem State.setMeter_logCount (s : State) (d r c : Nat) (m : Meter) : (s.setMeter d r c m).logCount = s.logCount := rfl
@[simp] theorem State.setMeter_aonTime (s : State) (d r c : Nat) (m : Meter) : (s.setMeter d r c m).aonTime = s.aonTime := rfl
@[simp] theorem State.setMeter_served (s : State) (d r c : Nat) (m : Meter) : (s.setMeter d r c m).served = s.served := rfl
@[simp] theorem State.setMeter_globalEvs (s : State) (d r c : Nat) (m : Meter) : (s.setMeter d r c m).globalEvs = s.globalEvs := rfl
@[simp] theorem State.setMeter_chans (s : State) (d r c : Nat) (m : Meter) : (s.setMeter d r c m).chans = s.chans := rfl
@[simp] theorem State.setMeter_outbox (s : State) (d r c : Nat) (m : Meter) : (s.setMeter d r c m).outbox = s.outbox := rfl
@[simp] theorem State.setMeter_fe (s : State) (d r c : Nat) (m : Meter) : (s.setMeter d r c m).fe = s.fe := rfl
@[simp] theorem State.setMeter_zports (s : State) (d r c : Nat) (m : Meter) : (s.setMeter d r c m).zports = s.zports := rfl
@[simp] theorem State.setMeter_znodes (s : State) (d r c : Nat) (m : Meter) : (s.setMeter d r c m).znodes = s.znodes := rfl
@[simp] theorem State.setMeter_padHold (s : State) (d r c : Nat) (m : Meter) : (s.setMeter d r c m).padHold = s.padHold := rfl
@[simp] theorem State.setMeter_phase (s : State) (d r c : Nat) (m : Meter) : (s.setMeter d r c m).phase = s.phase := rfl
@[simp] theorem State.setMeter_vaon (s : State) (d r c : Nat) (m : Meter) : (s.setMeter d r c m).vaon = s.vaon := rfl
@[simp] theorem State.setMeter_plRuns (s : State) (d r c : Nat) (m : Meter) : (s.setMeter d r c m).plRuns = s.plRuns := rfl
@[simp] theorem State.setMeter_holdOff (s : State) (d r c : Nat) (m : Meter) : (s.setMeter d r c m).holdOff = s.holdOff := rfl
@[simp] theorem State.setMeter_sleep (s : State) (d r c : Nat) (m : Meter) : (s.setMeter d r c m).sleep = s.sleep := rfl
@[simp] theorem State.setMeter_wake (s : State) (d r c : Nat) (m : Meter) : (s.setMeter d r c m).wake = s.wake := rfl
@[simp] theorem State.setMeter_savedAxes (s : State) (d r c : Nat) (m : Meter) : (s.setMeter d r c m).savedAxes = s.savedAxes := rfl
@[simp] theorem State.setMeter_savedAon (s : State) (d r c : Nat) (m : Meter) : (s.setMeter d r c m).savedAon = s.savedAon := rfl
@[simp] theorem State.setMeter_savedLevels (s : State) (d r c : Nat) (m : Meter) : (s.setMeter d r c m).savedLevels = s.savedLevels := rfl
@[simp] theorem State.setMeter_bankSigs (s : State) (d r c : Nat) (m : Meter) : (s.setMeter d r c m).bankSigs = s.bankSigs := rfl
@[simp] theorem State.setMeter_encWake (s : State) (d r c : Nat) (m : Meter) : (s.setMeter d r c m).encWake = s.encWake := rfl
@[simp] theorem State.setMeter_gpioWake (s : State) (d r c : Nat) (m : Meter) : (s.setMeter d r c m).gpioWake = s.gpioWake := rfl
@[simp] theorem State.setMeter_strapBoot (s : State) (d r c : Nat) (m : Meter) : (s.setMeter d r c m).strapBoot = s.strapBoot := rfl
@[simp] theorem State.setMeter_strapSmb (s : State) (d r c : Nat) (m : Meter) : (s.setMeter d r c m).strapSmb = s.strapSmb := rfl
@[simp] theorem State.setMeter_polled (s : State) (d r c : Nat) (m : Meter) : (s.setMeter d r c m).polled = s.polled := rfl
@[simp] theorem State.setMeter_pmbCmd (s : State) (d r c : Nat) (m : Meter) : (s.setMeter d r c m).pmbCmd = s.pmbCmd := rfl
@[simp] theorem State.setMeter_encPins (s : State) (d r c : Nat) (m : Meter) : (s.setMeter d r c m).encPins = s.encPins := rfl
@[simp] theorem State.setMeter_ticks (s : State) (d r c : Nat) (m : Meter) : (s.setMeter d r c m).ticks = s.ticks := rfl
@[simp] theorem State.setMeter_savedBags (s : State) (d r c : Nat) (m : Meter) : (s.setMeter d r c m).savedBags = s.savedBags := rfl
@[simp] theorem State.setMeter_ddrRows (s : State) (d r c : Nat) (m : Meter) : (s.setMeter d r c m).ddrRows = s.ddrRows := rfl
@[simp] theorem State.setMeter_ddrBad (s : State) (d r c : Nat) (m : Meter) : (s.setMeter d r c m).ddrBad = s.ddrBad := rfl
@[simp] theorem State.setMeter_scrubAt (s : State) (d r c : Nat) (m : Meter) : (s.setMeter d r c m).scrubAt = s.scrubAt := rfl
@[simp] theorem State.setMeter_holes (s : State) (d r c : Nat) (m : Meter) : (s.setMeter d r c m).holes = s.holes := rfl
@[simp] theorem State.setMeter_pcie (s : State) (d r c : Nat) (m : Meter) : (s.setMeter d r c m).pcie = s.pcie := rfl
@[simp] theorem State.setMeter_hostQ (s : State) (d r c : Nat) (m : Meter) : (s.setMeter d r c m).hostQ = s.hostQ := rfl
@[simp] theorem State.setMeter_hostOut (s : State) (d r c : Nat) (m : Meter) : (s.setMeter d r c m).hostOut = s.hostOut := rfl
@[simp] theorem State.setMeter_hostCpl (s : State) (d r c : Nat) (m : Meter) : (s.setMeter d r c m).hostCpl = s.hostCpl := rfl
@[simp] theorem State.setMeter_envelope (s : State) (d r c : Nat) (m : Meter) : (s.setMeter d r c m).envelope = s.envelope := rfl
@[simp] theorem State.setMeter_otpArb (s : State) (d r c : Nat) (m : Meter) : (s.setMeter d r c m).otpArb = s.otpArb := rfl
@[simp] theorem State.setMeter_hostLoad (s : State) (d r c : Nat) (m : Meter) : (s.setMeter d r c m).hostLoad = s.hostLoad := rfl
@[simp] theorem State.setMeter_hostBoot (s : State) (d r c : Nat) (m : Meter) : (s.setMeter d r c m).hostBoot = s.hostBoot := rfl
@[simp] theorem State.setMeter_fromFlash (s : State) (d r c : Nat) (m : Meter) : (s.setMeter d r c m).fromFlash = s.fromFlash := rfl
@[simp] theorem State.setMeter_repair (s : State) (d r c : Nat) (m : Meter) : (s.setMeter d r c m).repair = s.repair := rfl
@[simp] theorem State.setMeter_moves (s : State) (d r c : Nat) (m : Meter) : (s.setMeter d r c m).moves = s.moves := rfl
@[simp] theorem State.setMeter_digest (s : State) (d r c : Nat) (m : Meter) : (s.setMeter d r c m).digest = s.digest := rfl
@[simp] theorem State.setMeter_digestMs (s : State) (d r c : Nat) (m : Meter) : (s.setMeter d r c m).digestMs = s.digestMs := rfl
@[simp] theorem State.setMeter_smbReply (s : State) (d r c : Nat) (m : Meter) : (s.setMeter d r c m).smbReply = s.smbReply := rfl
@[simp] theorem State.setMeter_pads (s : State) (d r c : Nat) (m : Meter) : (s.setMeter d r c m).pads = s.pads := rfl
@[simp] theorem State.setMeter_heldFire (s : State) (d r c : Nat) (m : Meter) : (s.setMeter d r c m).heldFire = s.heldFire := rfl
@[simp] theorem State.setMeter_heldGpio (s : State) (d r c : Nat) (m : Meter) : (s.setMeter d r c m).heldGpio = s.heldGpio := rfl
@[simp] theorem State.setMeter_heldZl (s : State) (d r c : Nat) (m : Meter) : (s.setMeter d r c m).heldZl = s.heldZl := rfl
@[simp] theorem State.setMeter_tap (s : State) (d r c : Nat) (m : Meter) : (s.setMeter d r c m).tap = s.tap := rfl

/-! ## Accessors -/

@[simp] theorem State.setReg_peek (s : State) (k : Nat) (v : Word) (i : Nat) : (s.setReg k v).peek i = s.peek i := rfl
@[simp] theorem State.setReg_clerk (s : State) (k : Nat) (v : Word) (i : Nat) : (s.setReg k v).clerk i = s.clerk i := rfl
@[simp] theorem State.setReg_die (s : State) (k : Nat) (v : Word) (i : Nat) : (s.setReg k v).die i = s.die i := rfl
@[simp] theorem State.setReg_link (s : State) (k : Nat) (v : Word) (i : Nat) : (s.setReg k v).link i = s.link i := rfl
@[simp] theorem State.setReg_meter (s : State) (k : Nat) (v : Word) (i j r : Nat) : (s.setReg k v).meter i j r = s.meter i j r := rfl
@[simp] theorem State.setReg_live (s : State) (k : Nat) (v : Word) : (s.setReg k v).live = s.live := rfl
@[simp] theorem State.setReg_refUs (s : State) (k : Nat) (v : Word) : (s.setReg k v).refUs = s.refUs := rfl
@[simp] theorem State.setReg_ax15 (s : State) (k : Nat) (v : Word) : (s.setReg k v).ax15 = s.ax15 := rfl
@[simp] theorem State.setReg_linkUp (s : State) (k : Nat) (v : Word) (i : Nat) : (s.setReg k v).linkUp i = s.linkUp i := rfl
@[simp] theorem State.setReg_staged (s : State) (k : Nat) (v : Word) (i j : Nat) (e : Word) : (s.setReg k v).staged i j e = s.staged i j e := rfl
@[simp] theorem State.setReg_routeLinks (s : State) (k : Nat) (v : Word) (i j : Nat) : (s.setReg k v).routeLinks i j = s.routeLinks i j := rfl
@[simp] theorem State.poke_reg (s : State) (k : Nat) (v : Word) (i : Nat) : (s.poke k v).reg i = s.reg i := rfl
@[simp] theorem State.poke_reg2 (s : State) (k : Nat) (v : Word) (i j : Nat) : (s.poke k v).reg2 i j = s.reg2 i j := rfl
@[simp] theorem State.poke_clerk (s : State) (k : Nat) (v : Word) (i : Nat) : (s.poke k v).clerk i = s.clerk i := rfl
@[simp] theorem State.poke_die (s : State) (k : Nat) (v : Word) (i : Nat) : (s.poke k v).die i = s.die i := rfl
@[simp] theorem State.poke_link (s : State) (k : Nat) (v : Word) (i : Nat) : (s.poke k v).link i = s.link i := rfl
@[simp] theorem State.poke_meter (s : State) (k : Nat) (v : Word) (i j r : Nat) : (s.poke k v).meter i j r = s.meter i j r := rfl
@[simp] theorem State.poke_live (s : State) (k : Nat) (v : Word) : (s.poke k v).live = s.live := rfl
@[simp] theorem State.poke_mode (s : State) (k : Nat) (v : Word) : (s.poke k v).mode = s.mode := rfl
@[simp] theorem State.poke_inService (s : State) (k : Nat) (v : Word) (i : Nat) : (s.poke k v).inService i = s.inService i := rfl
@[simp] theorem State.poke_refUs (s : State) (k : Nat) (v : Word) : (s.poke k v).refUs = s.refUs := rfl
@[simp] theorem State.poke_ax15 (s : State) (k : Nat) (v : Word) : (s.poke k v).ax15 = s.ax15 := rfl
@[simp] theorem State.poke_linkUp (s : State) (k : Nat) (v : Word) (i : Nat) : (s.poke k v).linkUp i = s.linkUp i := rfl
@[simp] theorem State.poke_staged (s : State) (k : Nat) (v : Word) (i j : Nat) (e : Word) : (s.poke k v).staged i j e = s.staged i j e := rfl
@[simp] theorem State.poke_routeLinks (s : State) (k : Nat) (v : Word) (i j : Nat) : (s.poke k v).routeLinks i j = s.routeLinks i j := rfl
@[simp] theorem State.setClerk_reg (s : State) (c : Nat) (k : Clerk) (i : Nat) : (s.setClerk c k).reg i = s.reg i := rfl
@[simp] theorem State.setClerk_reg2 (s : State) (c : Nat) (k : Clerk) (i j : Nat) : (s.setClerk c k).reg2 i j = s.reg2 i j := rfl
@[simp] theorem State.setClerk_peek (s : State) (c : Nat) (k : Clerk) (i : Nat) : (s.setClerk c k).peek i = s.peek i := rfl
@[simp] theorem State.setClerk_die (s : State) (c : Nat) (k : Clerk) (i : Nat) : (s.setClerk c k).die i = s.die i := rfl
@[simp] theorem State.setClerk_link (s : State) (c : Nat) (k : Clerk) (i : Nat) : (s.setClerk c k).link i = s.link i := rfl
@[simp] theorem State.setClerk_meter (s : State) (c : Nat) (k : Clerk) (i j r : Nat) : (s.setClerk c k).meter i j r = s.meter i j r := rfl
@[simp] theorem State.setClerk_live (s : State) (c : Nat) (k : Clerk) : (s.setClerk c k).live = s.live := rfl
@[simp] theorem State.setClerk_mode (s : State) (c : Nat) (k : Clerk) : (s.setClerk c k).mode = s.mode := rfl
@[simp] theorem State.setClerk_inService (s : State) (c : Nat) (k : Clerk) (i : Nat) : (s.setClerk c k).inService i = s.inService i := rfl
@[simp] theorem State.setClerk_refUs (s : State) (c : Nat) (k : Clerk) : (s.setClerk c k).refUs = s.refUs := rfl
@[simp] theorem State.setClerk_ax15 (s : State) (c : Nat) (k : Clerk) : (s.setClerk c k).ax15 = s.ax15 := rfl
@[simp] theorem State.setClerk_linkUp (s : State) (c : Nat) (k : Clerk) (i : Nat) : (s.setClerk c k).linkUp i = s.linkUp i := rfl
@[simp] theorem State.setClerk_staged (s : State) (c : Nat) (k : Clerk) (i j : Nat) (e : Word) : (s.setClerk c k).staged i j e = s.staged i j e := rfl
@[simp] theorem State.setClerk_routeLinks (s : State) (c : Nat) (k : Clerk) (i j : Nat) : (s.setClerk c k).routeLinks i j = s.routeLinks i j := rfl
@[simp] theorem State.send_reg (s : State) (m : Msg) (i : Nat) : (s.send m).reg i = s.reg i := rfl
@[simp] theorem State.send_reg2 (s : State) (m : Msg) (i j : Nat) : (s.send m).reg2 i j = s.reg2 i j := rfl
@[simp] theorem State.send_peek (s : State) (m : Msg) (i : Nat) : (s.send m).peek i = s.peek i := rfl
@[simp] theorem State.send_clerk (s : State) (m : Msg) (i : Nat) : (s.send m).clerk i = s.clerk i := rfl
@[simp] theorem State.send_die (s : State) (m : Msg) (i : Nat) : (s.send m).die i = s.die i := rfl
@[simp] theorem State.send_link (s : State) (m : Msg) (i : Nat) : (s.send m).link i = s.link i := rfl
@[simp] theorem State.send_meter (s : State) (m : Msg) (i j r : Nat) : (s.send m).meter i j r = s.meter i j r := rfl
@[simp] theorem State.send_live (s : State) (m : Msg) : (s.send m).live = s.live := rfl
@[simp] theorem State.send_mode (s : State) (m : Msg) : (s.send m).mode = s.mode := rfl
@[simp] theorem State.send_inService (s : State) (m : Msg) (i : Nat) : (s.send m).inService i = s.inService i := rfl
@[simp] theorem State.send_refUs (s : State) (m : Msg) : (s.send m).refUs = s.refUs := rfl
@[simp] theorem State.send_ax15 (s : State) (m : Msg) : (s.send m).ax15 = s.ax15 := rfl
@[simp] theorem State.send_linkUp (s : State) (m : Msg) (i : Nat) : (s.send m).linkUp i = s.linkUp i := rfl
@[simp] theorem State.send_staged (s : State) (m : Msg) (i j : Nat) (e : Word) : (s.send m).staged i j e = s.staged i j e := rfl
@[simp] theorem State.send_routeLinks (s : State) (m : Msg) (i j : Nat) : (s.send m).routeLinks i j = s.routeLinks i j := rfl
@[simp] theorem State.putStage_reg (s : State) (w k : Nat) (v : Word) (i : Nat) : (s.putStage w k v).reg i = s.reg i := rfl
@[simp] theorem State.putStage_reg2 (s : State) (w k : Nat) (v : Word) (i j : Nat) : (s.putStage w k v).reg2 i j = s.reg2 i j := rfl
@[simp] theorem State.putStage_peek (s : State) (w k : Nat) (v : Word) (i : Nat) : (s.putStage w k v).peek i = s.peek i := rfl
@[simp] theorem State.putStage_clerk (s : State) (w k : Nat) (v : Word) (i : Nat) : (s.putStage w k v).clerk i = s.clerk i := rfl
@[simp] theorem State.putStage_die (s : State) (w k : Nat) (v : Word) (i : Nat) : (s.putStage w k v).die i = s.die i := rfl
@[simp] theorem State.putStage_link (s : State) (w k : Nat) (v : Word) (i : Nat) : (s.putStage w k v).link i = s.link i := rfl
@[simp] theorem State.putStage_meter (s : State) (w k : Nat) (v : Word) (i j r : Nat) : (s.putStage w k v).meter i j r = s.meter i j r := rfl
@[simp] theorem State.putStage_live (s : State) (w k : Nat) (v : Word) : (s.putStage w k v).live = s.live := rfl
@[simp] theorem State.putStage_mode (s : State) (w k : Nat) (v : Word) : (s.putStage w k v).mode = s.mode := rfl
@[simp] theorem State.putStage_inService (s : State) (w k : Nat) (v : Word) (i : Nat) : (s.putStage w k v).inService i = s.inService i := rfl
@[simp] theorem State.putStage_refUs (s : State) (w k : Nat) (v : Word) : (s.putStage w k v).refUs = s.refUs := rfl
@[simp] theorem State.putStage_ax15 (s : State) (w k : Nat) (v : Word) : (s.putStage w k v).ax15 = s.ax15 := rfl
@[simp] theorem State.putStage_linkUp (s : State) (w k : Nat) (v : Word) (i : Nat) : (s.putStage w k v).linkUp i = s.linkUp i := rfl
@[simp] theorem State.putStage_routeLinks (s : State) (w k : Nat) (v : Word) (i j : Nat) : (s.putStage w k v).routeLinks i j = s.routeLinks i j := rfl
@[simp] theorem State.clearStage_reg (s : State) (w k n : Nat) (i : Nat) : (s.clearStage w k n).reg i = s.reg i := rfl
@[simp] theorem State.clearStage_reg2 (s : State) (w k n : Nat) (i j : Nat) : (s.clearStage w k n).reg2 i j = s.reg2 i j := rfl
@[simp] theorem State.clearStage_peek (s : State) (w k n : Nat) (i : Nat) : (s.clearStage w k n).peek i = s.peek i := rfl
@[simp] theorem State.clearStage_clerk (s : State) (w k n : Nat) (i : Nat) : (s.clearStage w k n).clerk i = s.clerk i := rfl
@[simp] theorem State.clearStage_die (s : State) (w k n : Nat) (i : Nat) : (s.clearStage w k n).die i = s.die i := rfl
@[simp] theorem State.clearStage_link (s : State) (w k n : Nat) (i : Nat) : (s.clearStage w k n).link i = s.link i := rfl
@[simp] theorem State.clearStage_meter (s : State) (w k n : Nat) (i j r : Nat) : (s.clearStage w k n).meter i j r = s.meter i j r := rfl
@[simp] theorem State.clearStage_live (s : State) (w k n : Nat) : (s.clearStage w k n).live = s.live := rfl
@[simp] theorem State.clearStage_mode (s : State) (w k n : Nat) : (s.clearStage w k n).mode = s.mode := rfl
@[simp] theorem State.clearStage_inService (s : State) (w k n : Nat) (i : Nat) : (s.clearStage w k n).inService i = s.inService i := rfl
@[simp] theorem State.clearStage_refUs (s : State) (w k n : Nat) : (s.clearStage w k n).refUs = s.refUs := rfl
@[simp] theorem State.clearStage_ax15 (s : State) (w k n : Nat) : (s.clearStage w k n).ax15 = s.ax15 := rfl
@[simp] theorem State.clearStage_linkUp (s : State) (w k n : Nat) (i : Nat) : (s.clearStage w k n).linkUp i = s.linkUp i := rfl
@[simp] theorem State.clearStage_routeLinks (s : State) (w k n : Nat) (i j : Nat) : (s.clearStage w k n).routeLinks i j = s.routeLinks i j := rfl
@[simp] theorem State.modDie_reg (s : State) (d : Nat) (f : Die → Die) (i : Nat) : (s.modDie d f).reg i = s.reg i := rfl
@[simp] theorem State.modDie_reg2 (s : State) (d : Nat) (f : Die → Die) (i j : Nat) : (s.modDie d f).reg2 i j = s.reg2 i j := rfl
@[simp] theorem State.modDie_peek (s : State) (d : Nat) (f : Die → Die) (i : Nat) : (s.modDie d f).peek i = s.peek i := rfl
@[simp] theorem State.modDie_clerk (s : State) (d : Nat) (f : Die → Die) (i : Nat) : (s.modDie d f).clerk i = s.clerk i := rfl
@[simp] theorem State.modDie_link (s : State) (d : Nat) (f : Die → Die) (i : Nat) : (s.modDie d f).link i = s.link i := rfl
@[simp] theorem State.modDie_meter (s : State) (d : Nat) (f : Die → Die) (i j r : Nat) : (s.modDie d f).meter i j r = s.meter i j r := rfl
@[simp] theorem State.modDie_live (s : State) (d : Nat) (f : Die → Die) : (s.modDie d f).live = s.live := rfl
@[simp] theorem State.modDie_mode (s : State) (d : Nat) (f : Die → Die) : (s.modDie d f).mode = s.mode := rfl
@[simp] theorem State.modDie_inService (s : State) (d : Nat) (f : Die → Die) (i : Nat) : (s.modDie d f).inService i = s.inService i := rfl
@[simp] theorem State.modDie_refUs (s : State) (d : Nat) (f : Die → Die) : (s.modDie d f).refUs = s.refUs := rfl
@[simp] theorem State.modDie_ax15 (s : State) (d : Nat) (f : Die → Die) : (s.modDie d f).ax15 = s.ax15 := rfl
@[simp] theorem State.modDie_linkUp (s : State) (d : Nat) (f : Die → Die) (i : Nat) : (s.modDie d f).linkUp i = s.linkUp i := rfl
@[simp] theorem State.modDie_staged (s : State) (d : Nat) (f : Die → Die) (i j : Nat) (e : Word) : (s.modDie d f).staged i j e = s.staged i j e := rfl
@[simp] theorem State.modDie_routeLinks (s : State) (d : Nat) (f : Die → Die) (i j : Nat) : (s.modDie d f).routeLinks i j = s.routeLinks i j := rfl
@[simp] theorem State.modLink_reg (s : State) (l : Nat) (f : Link → Link) (i : Nat) : (s.modLink l f).reg i = s.reg i := rfl
@[simp] theorem State.modLink_reg2 (s : State) (l : Nat) (f : Link → Link) (i j : Nat) : (s.modLink l f).reg2 i j = s.reg2 i j := rfl
@[simp] theorem State.modLink_peek (s : State) (l : Nat) (f : Link → Link) (i : Nat) : (s.modLink l f).peek i = s.peek i := rfl
@[simp] theorem State.modLink_clerk (s : State) (l : Nat) (f : Link → Link) (i : Nat) : (s.modLink l f).clerk i = s.clerk i := rfl
@[simp] theorem State.modLink_die (s : State) (l : Nat) (f : Link → Link) (i : Nat) : (s.modLink l f).die i = s.die i := rfl
@[simp] theorem State.modLink_meter (s : State) (l : Nat) (f : Link → Link) (i j r : Nat) : (s.modLink l f).meter i j r = s.meter i j r := rfl
@[simp] theorem State.modLink_live (s : State) (l : Nat) (f : Link → Link) : (s.modLink l f).live = s.live := rfl
@[simp] theorem State.modLink_mode (s : State) (l : Nat) (f : Link → Link) : (s.modLink l f).mode = s.mode := rfl
@[simp] theorem State.modLink_inService (s : State) (l : Nat) (f : Link → Link) (i : Nat) : (s.modLink l f).inService i = s.inService i := rfl
@[simp] theorem State.modLink_refUs (s : State) (l : Nat) (f : Link → Link) : (s.modLink l f).refUs = s.refUs := rfl
@[simp] theorem State.modLink_ax15 (s : State) (l : Nat) (f : Link → Link) : (s.modLink l f).ax15 = s.ax15 := rfl
@[simp] theorem State.modLink_staged (s : State) (l : Nat) (f : Link → Link) (i j : Nat) (e : Word) : (s.modLink l f).staged i j e = s.staged i j e := rfl
@[simp] theorem State.modLink_routeLinks (s : State) (l : Nat) (f : Link → Link) (i j : Nat) : (s.modLink l f).routeLinks i j = s.routeLinks i j := rfl
@[simp] theorem State.setMeter_reg (s : State) (d r c : Nat) (m : Meter) (i : Nat) : (s.setMeter d r c m).reg i = s.reg i := rfl
@[simp] theorem State.setMeter_reg2 (s : State) (d r c : Nat) (m : Meter) (i j : Nat) : (s.setMeter d r c m).reg2 i j = s.reg2 i j := rfl
@[simp] theorem State.setMeter_peek (s : State) (d r c : Nat) (m : Meter) (i : Nat) : (s.setMeter d r c m).peek i = s.peek i := rfl
@[simp] theorem State.setMeter_clerk (s : State) (d r c : Nat) (m : Meter) (i : Nat) : (s.setMeter d r c m).clerk i = s.clerk i := rfl
@[simp] theorem State.setMeter_die (s : State) (d r c : Nat) (m : Meter) (i : Nat) : (s.setMeter d r c m).die i = s.die i := rfl
@[simp] theorem State.setMeter_link (s : State) (d r c : Nat) (m : Meter) (i : Nat) : (s.setMeter d r c m).link i = s.link i := rfl
@[simp] theorem State.setMeter_live (s : State) (d r c : Nat) (m : Meter) : (s.setMeter d r c m).live = s.live := rfl
@[simp] theorem State.setMeter_mode (s : State) (d r c : Nat) (m : Meter) : (s.setMeter d r c m).mode = s.mode := rfl
@[simp] theorem State.setMeter_inService (s : State) (d r c : Nat) (m : Meter) (i : Nat) : (s.setMeter d r c m).inService i = s.inService i := rfl
@[simp] theorem State.setMeter_refUs (s : State) (d r c : Nat) (m : Meter) : (s.setMeter d r c m).refUs = s.refUs := rfl
@[simp] theorem State.setMeter_ax15 (s : State) (d r c : Nat) (m : Meter) : (s.setMeter d r c m).ax15 = s.ax15 := rfl
@[simp] theorem State.setMeter_linkUp (s : State) (d r c : Nat) (m : Meter) (i : Nat) : (s.setMeter d r c m).linkUp i = s.linkUp i := rfl
@[simp] theorem State.setMeter_staged (s : State) (d r c : Nat) (m : Meter) (i j : Nat) (e : Word) : (s.setMeter d r c m).staged i j e = s.staged i j e := rfl
@[simp] theorem State.setMeter_routeLinks (s : State) (d r c : Nat) (m : Meter) (i j : Nat) : (s.setMeter d r c m).routeLinks i j = s.routeLinks i j := rfl

/-- A register reads as it was last set; a set leaves every other register alone. -/
theorem State.reg_setReg (s : State) (k k' : Nat) (v : Word) :
    (s.setReg k v).reg k' = if k' = k then v else s.reg k' := Tbl.getD_set _ _ _ _ _
@[simp] theorem State.reg_setReg_self (s : State) (k : Nat) (v : Word) : (s.setReg k v).reg k = v := by
  rw [State.reg_setReg, if_pos rfl]
theorem State.reg_setReg_ne (s : State) {k k' : Nat} (v : Word) (h : k' ≠ k) : (s.setReg k v).reg k' = s.reg k' := by
  rw [State.reg_setReg, if_neg h]
/-- A clerk is what it was last set to; a set leaves every other clerk alone. -/
theorem State.clerk_setClerk (s : State) (c c' : Nat) (k : Clerk) :
    (s.setClerk c k).clerk c' = if c' = c then k else s.clerk c' := Tbl.getD_set _ _ _ _ _
@[simp] theorem State.clerk_setClerk_self (s : State) (c : Nat) (k : Clerk) : (s.setClerk c k).clerk c = k := by
  rw [State.clerk_setClerk, if_pos rfl]
theorem State.clerk_setClerk_ne (s : State) {c c' : Nat} (k : Clerk) (h : c' ≠ c) : (s.setClerk c k).clerk c' = s.clerk c' := by
  rw [State.clerk_setClerk, if_neg h]
/-- A memory word reads as it was last written; a write leaves every other word alone. -/
theorem State.peek_poke (s : State) (k k' : Nat) (v : Word) :
    (s.poke k v).peek k' = if k' = k then v else s.peek k' := Mem.read_write _ _ _ _
/-- A write of a word keeps memory canonical. -/
theorem State.poke_wf (s : State) (k : Nat) (v : Word) (h : s.mem.wf = true) : (s.poke k v).mem.wf = true := Mem.write_wf _ _ h

/-- Writes from a key on leave every cell below it alone. -/
theorem State.pokes_peek_lt (ws : List Word) : ∀ (s : State) (k j : Nat), j < k → (s.pokes k ws).peek j = s.peek j := by
  induction ws with
  | nil => intro s k j _; rfl
  | cons v t ih =>
    intro s k j h
    show ((s.poke k v).pokes (k + 1) t).peek j = s.peek j
    rw [ih (s.poke k v) (k + 1) j (by omega), State.peek_poke, if_neg (by omega)]
/-- Words written in a row read as they were written. -/
theorem State.peeks_pokes (s : State) (ws : List Word) (k : Nat) : (s.pokes k ws).peeks k ws.length = ws := by
  induction ws generalizing s k with
  | nil => rfl
  | cons v t ih =>
    show ((s.poke k v).pokes (k + 1) t).peek k :: ((s.poke k v).pokes (k + 1) t).peeks (k + 1) t.length = v :: t
    rw [State.pokes_peek_lt t (s.poke k v) (k + 1) k (by omega), State.peek_poke, if_pos rfl, ih]
/-- Writing words in a row keeps memory canonical. -/
theorem State.pokes_wf (ws : List Word) : ∀ (s : State) (k : Nat), s.mem.wf = true → (s.pokes k ws).mem.wf = true := by
  induction ws with
  | nil => intro s k h; exact h
  | cons v t ih => intro s k h; exact ih _ _ (State.poke_wf s k v h)

/-- Changes to registers, clerks and memory, as sets. -/
theorem State.modClerk_eq (s : State) (c : Nat) (f : Clerk → Clerk) : s.modClerk c f = s.setClerk c (f (s.clerk c)) := rfl
theorem State.modReg_eq (s : State) (k : Nat) (f : Word → Word) : s.modReg k f = s.setReg k (f (s.reg k)) := rfl
theorem State.bump_eq (s : State) (k : Nat) : s.bump k = s.setReg k (satAdd (s.reg k) 1) := rfl
theorem State.setReg2_eq (s : State) (l h n : Nat) : s.setReg2 l h n = (s.setReg l (wordOf n 0)).setReg h (wordOf n 1) := rfl

/-- After registers of a list are zeroed, each reads 0000h and the others as before. -/
theorem State.zeroRegs_reg (s : State) (ks : List Nat) (k : Nat) :
    (s.zeroRegs ks).reg k = if k ∈ ks then 0 else s.reg k := by
  unfold State.zeroRegs
  induction ks generalizing s with
  | nil => simp
  | cons a t ih =>
    simp only [List.foldl_cons, ih, State.reg_setReg, List.mem_cons]
    by_cases h1 : k = a <;> by_cases h2 : k ∈ t <;> simp [h1, h2]
/-- Zeroing registers changes nothing but registers. -/
theorem State.zeroRegs_only (s : State) (ks : List Nat) : ∃ r, s.zeroRegs ks = { s with regs := r } := by
  unfold State.zeroRegs
  induction ks generalizing s with
  | nil => exact ⟨s.regs, rfl⟩
  | cons a t ih => exact ih (s.setReg a 0)

end Sys2Proof.Machine
end

