-- ==== Sys2Proof/Laws/Clerk.lean ====
section
/-!
SUPPORT. What executing one instruction comes to: counters change only counter registers, an instruction that is ready runs its
body at once, and one that is complete retires.
-/
namespace Sys2Proof.Machine

/-! ## Nothing but one clerk -/

theorem OnlyClerk.refl (s : State) (c : Nat) : OnlyClerk s s c :=
  ⟨⟨s.regs, [], s.clerks, s.lineCaches, by simp, by simp⟩, fun _ _ => rfl, fun _ _ => rfl⟩

theorem OnlyClerk.trans {s t u : State} {c : Nat} (h : OnlyClerk s t c) (h' : OnlyClerk t u c) : OnlyClerk s u c := by
  obtain ⟨⟨r, ms, cl, lc, ht, hm⟩, hr, hc⟩ := h
  obtain ⟨⟨r', ms', cl', lc', hu, hm'⟩, hr', hc'⟩ := h'
  refine ⟨⟨r', ms ++ ms', cl', lc', ?_, ?_⟩, fun k hk => (hr' k hk).trans (hr k hk), fun x hx => (hc' x hx).trans (hc x hx)⟩
  · subst hu ht; simp
  · intro m h
    rcases List.mem_append.1 h with h | h
    · exact hm m h
    · exact hm' m h

theorem OnlyClerk.setClerk (s : State) (c : Nat) (k : Clerk) : OnlyClerk s (s.setClerk c k) c :=
  ⟨⟨s.regs, [], s.clerks.set c k, s.lineCaches, by simp [State.setClerk], by simp⟩, fun _ _ => rfl,
    fun _ h => State.clerk_setClerk_ne _ _ h⟩

theorem OnlyClerk.modClerk (s : State) (c : Nat) (f : Clerk → Clerk) : OnlyClerk s (s.modClerk c f) c :=
  OnlyClerk.setClerk _ _ _

@[simp] theorem State.clerk_modClerk_self (s : State) (c : Nat) (f : Clerk → Clerk) :
    (s.modClerk c f).clerk c = f (s.clerk c) := State.clerk_setClerk_self _ _ _

theorem OnlyClerk.setReg (s : State) (c k : Nat) (v : Word) (h : counterKey c k = true) : OnlyClerk s (s.setReg k v) c := by
  refine ⟨⟨s.regs.set k v, [], s.clerks, s.lineCaches, by simp [State.setReg], by simp⟩, fun j hj => ?_, fun _ _ => rfl⟩
  exact State.reg_setReg_ne _ _ (fun e => by subst e; simp_all)

/-! ## Counters (R86) -/

theorem counterKey_L (c k : Nat) (h : k < 8) : counterKey c (Reg.PCNT_L c k) = true := by
  simp [counterKey, Reg.PCNT_L, Reg.PCNT_OVF, Reg.PCNT_RETH, clerkKey]; omega
theorem counterKey_H (c k : Nat) (h : k < 8) : counterKey c (Reg.PCNT_H c k) = true := by
  simp [counterKey, Reg.PCNT_L, Reg.PCNT_H, Reg.PCNT_OVF, Reg.PCNT_RETH, clerkKey]; omega
theorem counterKey_OVF (c : Nat) : counterKey c (Reg.PCNT_OVF c) = true := by simp [counterKey]
theorem counterKey_RET (c k : Nat) (h : k = Reg.PCNT_RETL c ∨ k = Reg.PCNT_RETM c ∨ k = Reg.PCNT_RETH c) :
    counterKey c k = true := by
  rcases h with rfl | rfl | rfl <;>
    simp [counterKey, Reg.PCNT_L, Reg.PCNT_OVF, Reg.PCNT_RETL, Reg.PCNT_RETM, Reg.PCNT_RETH, clerkKey]

/-- An event counts in the clerk's counters and nowhere else. -/
theorem State.pcntOne_only (s : State) (c ev n k : Nat) (hk : k < 8) : OnlyClerk s (s.pcntOne c ev n k) c ∧
    (s.pcntOne c ev n k).clerk c = s.clerk c := by
  unfold State.pcntOne
  simp only
  split
  · exact ⟨.refl _ _, rfl⟩
  · have h1 : OnlyClerk s (s.setReg2 (Reg.PCNT_L c k) (Reg.PCNT_H c k)
        ((s.reg2 (Reg.PCNT_L c k) (Reg.PCNT_H c k) + n) % 2 ^ 32)) c :=
      (OnlyClerk.setReg _ _ _ _ (counterKey_L c k hk)).trans (OnlyClerk.setReg _ _ _ _ (counterKey_H c k hk))
    split
    · exact ⟨h1, rfl⟩
    · have h2 := h1.trans (OnlyClerk.setReg _ c (Reg.PCNT_OVF c)
        (((s.setReg2 (Reg.PCNT_L c k) (Reg.PCNT_H c k)
          ((s.reg2 (Reg.PCNT_L c k) (Reg.PCNT_H c k) + n) % 2 ^ 32)).reg (Reg.PCNT_OVF c)) ||| word (2 ^ k)) (counterKey_OVF c))
      split
      · refine ⟨h2.trans ?_, rfl⟩
        exact ⟨⟨_, [.localEv (clerkDie c) (0x40 + clerkLocal c) 1], _, _, rfl, by simp⟩, fun _ _ => rfl, fun _ _ => rfl⟩
      · exact ⟨h2, rfl⟩

theorem State.pcnt_only (s : State) (c ev n : Nat) : OnlyClerk s (s.pcnt c ev n) c ∧ (s.pcnt c ev n).clerk c = s.clerk c := by
  unfold State.pcnt
  split
  · exact ⟨.refl _ _, rfl⟩
  · suffices h : ∀ (l : List Nat) (u : State), (∀ k ∈ l, k < 8) →
        OnlyClerk u (l.foldl (fun t k => t.pcntOne c ev n k) u) c ∧
          (l.foldl (fun t k => t.pcntOne c ev n k) u).clerk c = u.clerk c from
      h _ s (by simp)
    intro l
    induction l with
    | nil => intro u _; exact ⟨.refl _ _, rfl⟩
    | cons a l ih =>
      intro u h
      obtain ⟨h1, h2⟩ := State.pcntOne_only u c ev n a (h a (by simp))
      obtain ⟨h3, h4⟩ := ih (u.pcntOne c ev n a) (fun k hk => h k (by simp [hk]))
      exact ⟨h1.trans h3, h4.trans h2⟩

/-! ## Fetch (R63, R64) -/

theorem OnlyClerk.modCache (s : State) (c g : Nat) (f : LineCache → LineCache) : OnlyClerk s (s.modCache g f) c :=
  ⟨⟨s.regs, [], s.clerks, _, by simp [State.modCache]; rfl, by simp⟩, fun _ _ => rfl, fun _ _ => rfl⟩

/-- Fetching the lines of an instruction changes the group's line cache and the clerk's counters. -/
theorem State.fetchLine_only (s : State) (c l : Nat) :
    OnlyClerk s (s.fetchLine c l) c ∧ (s.fetchLine c l).clerk c = s.clerk c := by
  unfold State.fetchLine
  simp only
  split
  · split
    · exact ⟨.refl _ _, rfl⟩
    · unfold State.demandLine State.prefetchNext
      split
      · exact ⟨(OnlyClerk.modCache ..).trans (.modCache ..), rfl⟩
      · obtain ⟨h1, h2⟩ := State.pcnt_only (s.modCache (groupKey c) fun x => x.demand l ‹List Word›) c 0x09 1
        exact ⟨(((OnlyClerk.modCache ..).trans h1).trans (.modCache ..)).trans (.modCache ..), h2⟩
  · exact ⟨.refl _ _, rfl⟩

theorem State.fetchLines_only (s : State) (c len : Nat) :
    OnlyClerk s (s.fetchLines c len) c ∧ (s.fetchLines c len).clerk c = s.clerk c := by
  unfold State.fetchLines
  generalize ((List.range len).map fun i => s.codeLine c ((s.clerk c).next i)).eraseDups = l
  suffices h : ∀ (l : List Nat) (u : State), OnlyClerk u (l.foldl (fun t k => t.fetchLine c k) u) c ∧
      (l.foldl (fun t k => t.fetchLine c k) u).clerk c = u.clerk c from h l s
  intro l
  induction l with
  | nil => intro u; exact ⟨.refl _ _, rfl⟩
  | cons a l ih =>
    intro u
    obtain ⟨h1, h2⟩ := State.fetchLine_only u c a
    obtain ⟨h3, h4⟩ := ih (u.fetchLine c a)
    exact ⟨h1.trans h3, h4.trans h2⟩

/-! ## Issue -/

/-- With no mode change pending there is nothing to settle. -/
theorem State.shadowEnd_none {s : State} {c : Nat} (h : (s.clerk c).shadow = []) : s.shadowEnd c = s := by
  simp [State.shadowEnd, h]

/-- The window test looks at the clerk's PC and at CLK_IWIN only. -/
theorem State.fetchable_congr {s u : State} {c len : Nat} (hp : (u.clerk c).pc = (s.clerk c).pc)
    (hw : u.reg (Reg.CLK_IWIN c) = s.reg (Reg.CLK_IWIN c)) : u.fetchable c len = s.fetchable c len := by
  simp [State.fetchable, State.winWords, Clerk.next, hp, hw]

theorem counterKey_IWIN (c : Nat) : counterKey c (Reg.CLK_IWIN c) = false := by
  simp [counterKey, Reg.PCNT_L, Reg.PCNT_OVF, Reg.PCNT_RETH, Reg.CLK_IWIN, clerkKey]

/-- A clerk that is ready runs its instruction's body at once, on a state where only its own issue shows. -/
theorem State.clerkInsn_ready {s : State} {c : Nat} {i : Instr} (h : Ready s c (insnLen i)) :
    ∃ u, OnlyClerk s u c ∧ u.clerk c = (s.clerk c).issued ∧ s.clerkInsn c i = State.finish c i false (insnBody i none u) := by
  obtain ⟨h1, h2, _, h3, h4, h5, h6, h7, h8⟩ := h
  -- the clerk with its accepted entry forgotten
  let a := s.modClerk c fun k => { k with entry := none }
  have ha : OnlyClerk s a c := .modClerk ..
  have hac : a.clerk c = { s.clerk c with entry := none } := State.clerk_modClerk_self ..
  have e1 : s.clerkInsn c i = a.issue c i := by
    simp [State.clerkInsn, h1, h2, State.shadowEnd_none h4, h4, a]
  -- event 0Ah, then one token less and event 01h
  let b := if (insnReads i).any (a.clerk c).lastLoad.contains then a.pcnt c 0x0A 1 else a
  have hb : OnlyClerk s b c ∧ b.clerk c = a.clerk c := by
    simp only [b]; split
    · exact ⟨ha.trans (State.pcnt_only ..).1, (State.pcnt_only ..).2⟩
    · exact ⟨ha, rfl⟩
  let d := b.modClerk c fun x => { x.modRep (fun r => { r with issued := true }) with tokens := x.tokens - 5 }
  have hd : OnlyClerk s d c := hb.1.trans (.modClerk ..)
  have hdc : d.clerk c = { s.clerk c with entry := none, tokens := (s.clerk c).tokens - 5 } := by
    simp [d, hb.2, hac, Clerk.modRep, h3]
  let e := d.pcnt c 0x01 1
  have he : OnlyClerk s e c := hd.trans (State.pcnt_only ..).1
  have hec : e.clerk c = d.clerk c := (State.pcnt_only ..).2
  have e2 : a.issue c i = e.runInsn c i none false := by
    have : ¬ ((s.clerk c).tokens < 5) := by omega
    simp [State.issue, Clerk.issueCovered, hac, h3, this, e, d, b]
  let v := e.modClerk c fun k => { k with waiting := none, grant := none, loadBuf := [], lastLoad := [] }
  have hv : OnlyClerk s v c := he.trans (.modClerk ..)
  have hvc : v.clerk c = (s.clerk c).issued := by
    simp [v, hec, hdc, Clerk.issued, h2]
  let u := v.fetchLines c (insnLen i)
  have hu : OnlyClerk s u c := hv.trans (State.fetchLines_only ..).1
  have huc : u.clerk c = (s.clerk c).issued := (State.fetchLines_only ..).2.trans hvc
  have hf : u.fetchable c (insnLen i) = true := by
    rw [← h6]
    exact State.fetchable_congr (by simp [huc, Clerk.issued]) (hu.2.1 _ (counterKey_IWIN c))
  have hr : (u.clerk c).rep = none := by simp [huc, Clerk.issued, h3]
  refine ⟨u, hu, huc, ?_⟩
  rw [e1, e2]
  show (if !(u.fetchable c (insnLen i)) then _ else _) = _
  simp only [hf, Bool.not_true, Bool.false_eq_true, ↓reduceIte]
  show (match (u.clerk c).rep with
    | none => State.finish c i false (insnBody i none u)
    | some r => u.runRepeated c i r none false) = _
  rw [hr]

/-! ## Retire -/

/-- Retiring changes the clerk's PC and products, its counters, and the shadows of its mode changes. -/
theorem State.retireAt_only (s : State) (c : Nat) (t : CodeAddr) :
    OnlyClerk s (s.retireAt c t) c ∧
      (s.retireAt c t).clerk c = { ({ s.clerk c with pc := t }.tickProducts) with
        shadow := ({ s.clerk c with pc := t }.tickProducts).shadow.map fun (m : Shadow) => { m with left := m.left - 1 } } := by
  let a := (s.modClerk c fun k => { k with pc := t }).retireUnit c
  have ha : OnlyClerk s a c := (OnlyClerk.modClerk ..).trans (.modClerk ..)
  have hac : a.clerk c = { s.clerk c with pc := t }.tickProducts := by
    simp only [a, State.retireUnit, State.clerk_modClerk_self]
  show OnlyClerk s (a.retireInsn c) c ∧ (a.retireInsn c).clerk c = _
  rw [← hac]
  unfold State.retireInsn
  simp only
  generalize ((a.reg2 (Reg.PCNT_RETL c) (Reg.PCNT_RETM c) + 2 ^ 32 * (a.reg (Reg.PCNT_RETH c)).toNat + 1) % 2 ^ 48) = n
  generalize h1 : ((a.setReg2 (Reg.PCNT_RETL c) (Reg.PCNT_RETM c) (n % 2 ^ 32)).setReg (Reg.PCNT_RETH c) (wordOf n 2)) = s1
  have k1 : OnlyClerk s s1 c := by
    subst h1
    exact ((ha.trans (.setReg _ _ _ _ (counterKey_RET _ _ (.inl rfl)))).trans
      (.setReg _ _ _ _ (counterKey_RET _ _ (.inr (.inl rfl))))).trans (.setReg _ _ _ _ (counterKey_RET _ _ (.inr (.inr rfl))))
  have c1 : s1.clerk c = a.clerk c := by subst h1; rfl
  have k2 := k1.trans (State.pcnt_only s1 c 0x02 1).1
  have c2 := (State.pcnt_only s1 c 0x02 1).2.trans c1
  split
  · have k3 := k2.trans (State.pcnt_only _ c 0x10 1).1
    have c3 := (State.pcnt_only (s1.pcnt c 0x02 1) c 0x10 1).2.trans c2
    exact ⟨k3.trans (.modClerk ..), by simp [c3]⟩
  · exact ⟨k2.trans (.modClerk ..), by simp [c2]⟩

/-- A complete instruction retires, where debug asks for no stop. -/
theorem State.retire_plain {s : State} {c : Nat} (t : CodeAddr) (h1 : (s.clerk c).shadow = [])
    (h2 : (s.clerk c).stepping = false) (h3 : (s.clerk c).haltReq = false) :
    OnlyClerk s ((s.retireAt c t).afterUnit c) c ∧
      ((s.retireAt c t).afterUnit c).clerk c = { s.clerk c with pc := t }.tickProducts := by
  obtain ⟨ho, hc⟩ := State.retireAt_only s c t
  have tick : ∀ k : Clerk, k.tickProducts.shadow = k.shadow ∧ k.tickProducts.stepping = k.stepping ∧
      k.tickProducts.haltReq = k.haltReq := by
    intro k
    unfold Clerk.tickProducts
    simp only
    repeat' split
    all_goals simp_all
  obtain ⟨t1, t2, t3⟩ := tick { s.clerk c with pc := t }
  have hc' : (s.retireAt c t).clerk c = { s.clerk c with pc := t }.tickProducts := by
    rw [hc]
    generalize hk : Clerk.tickProducts { s.clerk c with pc := t } = k at *
    have hz : k.shadow = [] := t1.trans h1
    cases k
    simp_all
  have e : (s.retireAt c t).afterUnit c = s.retireAt c t := by
    have z2 : ((s.retireAt c t).clerk c).stepping = false := by rw [hc']; exact t2.trans h2
    have z3 : ((s.retireAt c t).clerk c).haltReq = false := by rw [hc']; exact t3.trans h3
    simp [State.afterUnit, z2, z3]
  rw [e]
  exact ⟨ho, hc'⟩

/-- A body that is done retires at the next instruction. -/
theorem State.finish_done {v : State} {c : Nat} {i : Instr} {again : Bool} (h1 : (v.clerk c).shadow = [])
    (h2 : (v.clerk c).stepping = false) (h3 : (v.clerk c).haltReq = false) :
    OnlyClerk v (State.finish c i again (.done v)) c ∧
      (State.finish c i again (.done v)).clerk c = { v.clerk c with pc := (v.clerk c).next (insnLen i) }.tickProducts :=
  State.retire_plain _ h1 h2 h3

/-- A body that jumps retires at its target. -/
theorem State.finish_jump {v : State} {c : Nat} {i : Instr} {again : Bool} {a : CodeAddr} (h1 : (v.clerk c).shadow = [])
    (h2 : (v.clerk c).stepping = false) (h3 : (v.clerk c).haltReq = false) :
    OnlyClerk v (State.finish c i again (.jump v a)) c ∧
      (State.finish c i again (.jump v a)).clerk c = { v.clerk c with pc := a }.tickProducts :=
  State.retire_plain _ h1 h2 h3

/-- A ready clerk whose instruction completes with a change `f` of the clerk alone. -/
theorem State.clerkInsn_regOp {s : State} {c : Nat} {i : Instr} {f : Clerk → Clerk} (h : Ready s c (insnLen i))
    (hb : ∀ u, OnlyClerk s u c → u.clerk c = (s.clerk c).issued → insnBody i none u = regOp c f u)
    (hs : ∀ k, (f k).shadow = k.shadow ∧ (f k).stepping = k.stepping ∧ (f k).haltReq = k.haltReq ∧ (f k).pc = k.pc) :
    OnlyClerk s (s.clerkInsn c i) c ∧ (s.clerkInsn c i).clerk c =
      (s.clerk c).retires ((s.clerk c).next (insnLen i)) f := by
  obtain ⟨u, ho, hc, e⟩ := State.clerkInsn_ready h
  rw [e, hb u ho hc, regOp]
  have hm : (u.modClerk c f).clerk c = f (s.clerk c).issued := by rw [State.clerk_modClerk_self, hc]
  obtain ⟨a1, a2, a3, a4⟩ := hs (s.clerk c).issued
  obtain ⟨p1, p2⟩ := State.finish_done (v := u.modClerk c f) (c := c) (i := i) (again := false)
    (by rw [hm, a1]; exact h.noShadow) (by rw [hm, a2]; exact h.noStep) (by rw [hm, a3]; exact h.noHalt)
  refine ⟨(ho.trans (.modClerk ..)).trans p1, ?_⟩
  rw [p2, hm]
  have : (f (s.clerk c).issued).next (insnLen i) = (s.clerk c).next (insnLen i) := by
    show (f _).pc + _ = _
    rw [a4]; rfl
  rw [this]; rfl

end Sys2Proof.Machine
end

