-- ==== Sys2Proof/Laws/Fabric.lean ====
section
/-!
SUPPORT. What sending a parcel, carrying it over links and handing it to its unit can change: messages on their way, routers, links, and
the registers of the fabric block (R252 to R263, R274). Provers cite these lemmas in place of the fabric's definitions.
-/
namespace Sys2Proof.Machine

/-- From `s` to `t` only parcels have moved: nothing else differs, of registers only those of the fabric block (R274). -/
def Carries (s t : State) : Prop :=
  (∃ rg ms rt lk, t = { s with regs := rg, msgs := ms, routers := rt, links := lk }) ∧
    ∀ k, k < 0x7400 ∨ 0x7800 ≤ k → t.reg k = s.reg k

theorem Carries.refl (s : State) : Carries s s := ⟨⟨s.regs, s.msgs, s.routers, s.links, rfl⟩, fun _ _ => rfl⟩

theorem Carries.trans {s t u : State} (h : Carries s t) (h' : Carries t u) : Carries s u := by
  obtain ⟨⟨_, _, _, _, rfl⟩, hr⟩ := h
  obtain ⟨⟨rg, ms, rt, lk, rfl⟩, hr'⟩ := h'
  exact ⟨⟨rg, ms, rt, lk, rfl⟩, fun k hk => (hr' k hk).trans (hr k hk)⟩

/-! ## The single updates -/

theorem Carries.send (s : State) (m : Msg) : Carries s (s.send m) := ⟨⟨_, _, _, _, rfl⟩, fun _ _ => rfl⟩
theorem Carries.msgs (s : State) (l : List Msg) : Carries s { s with msgs := l } := ⟨⟨_, _, _, _, rfl⟩, fun _ _ => rfl⟩
theorem Carries.modLink (s : State) (l : Nat) (f : Link → Link) : Carries s (s.modLink l f) := ⟨⟨_, _, _, _, rfl⟩, fun _ _ => rfl⟩
theorem Carries.modOut (s : State) (l x : Nat) (f : LinkDir → LinkDir) : Carries s (s.modOut l x f) := Carries.modLink _ _ _
theorem Carries.setRouter (s : State) (x : Nat) (l : List Transit) : Carries s (s.setRouter x l) := ⟨⟨_, _, _, _, rfl⟩, fun _ _ => rfl⟩
theorem Carries.joinRouter (s : State) (x : Nat) (t : Transit) : Carries s (s.joinRouter x t) := Carries.setRouter _ _ _
theorem Carries.leaveRouter (s : State) (x : Nat) (t : Transit) : Carries s (s.leaveRouter x t) := Carries.setRouter _ _ _

theorem Carries.setReg (s : State) (k : Nat) (v : Word) (h : 0x7400 ≤ k ∧ k < 0x7800) : Carries s (s.setReg k v) :=
  ⟨⟨_, _, _, _, rfl⟩, fun j hj => State.reg_setReg_ne _ _ (by rintro rfl; omega)⟩
theorem Carries.bump2 (s : State) (lo hi n : Nat) (h : 0x7400 ≤ lo ∧ lo < 0x7800) (h' : 0x7400 ≤ hi ∧ hi < 0x7800) :
    Carries s (s.bump2 lo hi n) := (Carries.setReg _ _ _ h).trans (Carries.setReg _ _ _ h')
theorem Carries.bump (s : State) (k : Nat) (h : 0x7400 ≤ k ∧ k < 0x7800) : Carries s (s.bump k) := Carries.setReg _ _ _ h

/-! ## Loss (R262) -/

/-- A router's drop counts at its die and sends the dead letter. -/
theorem Carries.routerDrop (s : State) (cause x : Nat) (w : List Word) (h : x < 8) : Carries s (s.routerDrop cause x w) := by
  refine (Carries.bump s _ ?_).trans (Carries.send _ _)
  have : fdDlIdx cause ≤ 3 := by unfold fdDlIdx; split_ifs <;> omega
  unfold Reg.FD_DL; omega
/-- A parcel lost in the fabric. -/
theorem Carries.loseTransit (s : State) (cause x : Nat) (t : Transit) (h : x < 8) : Carries s (s.loseTransit cause x t) := by
  unfold State.loseTransit
  split <;> exact (Carries.routerDrop _ _ _ _ h).trans (Carries.msgs _ _)

/-! ## Links (R252 to R258) -/

/-- The ends of a link are dies. -/
theorem linkEnds_lt : ∀ l, ((linkEnds.getD l (0, 0)).1 < 8 ∧ (linkEnds.getD l (0, 0)).2 < 8) := by
  intro l
  by_cases h : l < 19
  · have : ∀ l : Fin 19, ((linkEnds.getD l.val (0, 0)).1 < 8 ∧ (linkEnds.getD l.val (0, 0)).2 < 8) := by decide
    exact this ⟨l, h⟩
  · have : linkEnds.getD l (0, 0) = (0, 0) := by
      rw [List.getD_eq_getElem?_getD, List.getElem?_eq_none (by simp [linkEnds]; omega)]; rfl
    rw [this]; decide
theorem farEnd_lt (l x : Nat) : farEnd l x < 8 := by
  have := linkEnds_lt l
  unfold farEnd; dsimp only; split <;> omega
theorem lt_of_linkUp {s : State} {l : Nat} (h : s.linkUp l = true) : l < 19 := by
  simp only [State.linkUp, Bool.and_eq_true, decide_eq_true_eq] at h
  exact h.1

theorem Carries.noteHold (s : State) (l : Nat) : Carries s (s.noteHold l) := by
  unfold State.noteHold
  split
  · exact .refl s
  · have : 0x7400 ≤ Reg.FL_HOLD l ∧ Reg.FL_HOLD l < 0x7800 := by unfold Reg.FL_HOLD; omega
    split
    · exact .modLink _ _ _
    · exact (Carries.setReg _ _ _ this).trans (Carries.modLink _ _ _)
    · exact .refl s
theorem Carries.countSent (s : State) (l x : Nat) (h : l < 19) : Carries s (s.countSent l x) := by
  unfold State.countSent
  split <;> refine Carries.bump2 _ _ _ _ ?_ ?_ <;>
    simp only [Reg.FL_PARAL, Reg.FL_PARAH, Reg.FL_PARBL, Reg.FL_PARBH] <;> omega

/-- A sender's grants change no more. -/
theorem Carries.pumpFuel : ∀ (n l x : Nat) (s : State), Carries s (Machine.pumpFuel n l x s)
  | 0, _, _, s => .refl s
  | n + 1, l, x, s => by
    unfold Machine.pumpFuel
    dsimp only
    split
    · exact .noteHold _ _
    · next v hv =>
      split
      · exact .refl s
      · next t ht =>
        have hl : l < 19 := by
          split at hv
          · next h => simp only [Bool.and_eq_true] at h; exact lt_of_linkUp h.1
          · cases hv
        refine Carries.trans ?_ (Carries.pumpFuel n _ _ _)
        have sent : ∀ f, Carries s (((s.leaveRouter x t).modOut l x f).countSent l x) := fun f =>
          (Carries.leaveRouter s x t).trans ((Carries.modOut _ l x f).trans (Carries.countSent _ l x hl))
        split
        · exact (sent _).trans (Carries.pumpFuel n _ _ _)
        · exact sent _
theorem Carries.pump (s : State) (l x : Nat) : Carries s (s.pump l x) := Carries.pumpFuel _ _ _ _
/-- A parcel that comes to a router. -/
theorem Carries.enter (s : State) (x : Nat) (t : Transit) (h : x < 8) : Carries s (s.enter x t) := by
  unfold State.enter
  split
  · exact .refl s
  · split
    · split
      · exact .loseTransit _ _ _ _ h
      · split
        · exact .loseTransit _ _ _ _ h
        · exact (Carries.joinRouter _ _ _).trans (Carries.pump _ _ _)
    · split
      · exact .joinRouter _ _ _
      · exact .refl s
/-- A receiver that accepts a frame. -/
theorem Carries.acceptFrame (s : State) (l x : Nat) : Carries s (s.acceptFrame l x) := by
  unfold State.acceptFrame
  split
  · exact .refl s
  · exact ((Carries.modOut _ _ _ _).trans (Carries.enter _ _ _ (farEnd_lt _ _))).trans (Carries.pump _ _ _)

/-! ## From sender to unit -/

theorem Carries.carryFuel : ∀ (n : Nat) (m : Msg) (s t : State), Machine.carryFuel n m s = some t → Carries s t
  | 0, _, _, _, h => by cases h
  | n + 1, m, s, t, h => by
    unfold Machine.carryFuel at h
    split at h
    · cases h; exact .refl s
    · split at h
      · cases h; exact .refl s
      · split at h
        · exact (Carries.acceptFrame _ _ _).trans (Carries.carryFuel n m _ t h)
        · cases h
    · split at h
      · exact (Carries.acceptFrame _ _ _).trans (Carries.carryFuel n m _ t h)
      · cases h
/-- What an arrival command finds has come with nothing but parcels moved. -/
theorem Carries.nextIn {s u : State} {p : Msg → Bool} {o : Option Msg} (h : s.nextIn p = (o, u)) : Carries s u := by
  unfold State.nextIn at h
  split at h
  · cases h; exact .refl s
  · split at h
    · next t ht => cases h; exact Carries.carryFuel _ _ _ _ ht
    · cases h; exact .refl s
theorem Carries.takeOut (s : State) (m : Msg) : Carries s (s.takeOut m) := by
  unfold State.takeOut
  dsimp only
  split
  · split
    · exact ((Carries.msgs s _).trans (Carries.leaveRouter _ _ _)).trans (Carries.pump _ _ _)
    · exact (Carries.msgs s _).trans (Carries.leaveRouter _ _ _)
  · exact .msgs s _
/-- `take` either moves parcels alone, or hands the message that has come to `f` in a state that differs so. -/
theorem State.take_cases (s : State) (p : Msg → Bool) (f : Msg → State → State) :
    (∃ u, s.nextIn p = (none, u) ∧ s.take p f = u ∧ Carries s u) ∨
      ∃ m u, s.nextIn p = (some m, u) ∧ s.take p f = f m (u.takeOut m) ∧ Carries s (u.takeOut m) := by
  unfold State.take
  rcases h : s.nextIn p with ⟨_ | m, u⟩
  · exact .inl ⟨u, rfl, rfl, Carries.nextIn h⟩
  · exact .inr ⟨m, u, rfl, rfl, (Carries.nextIn h).trans (Carries.takeOut u m)⟩

/-! ## Parcels that cross at once, and parcels sent (R262, R263) -/

theorem Carries.foldl {α : Type} (f : State → α → State) (h : ∀ s a, Carries s (f s a)) :
    ∀ (as : List α) (s : State), Carries s (as.foldl f s)
  | [], s => .refl s
  | a :: as, s => (h s a).trans (Carries.foldl f h as (f s a))
theorem Carries.crossLink (s : State) (l x : Nat) (h : l < 19) : Carries s (s.crossLink l x) :=
  (Carries.foldl _ (fun _ _ => Carries.acceptFrame _ _ _) _ _).trans ((Carries.modOut _ _ _ _).trans (Carries.countSent _ _ _ h))
/-- Over a way of links a parcel moves parcels alone, and comes to a die. -/
theorem Carries.crossLinks : ∀ (ls : List Nat) (x : Nat) (s : State), x < 8 →
    Carries s (s.crossLinks ls x).1 ∧ (s.crossLinks ls x).2 < 8
  | [], _, s, h => ⟨.refl s, h⟩
  | l :: r, x, s, h => by
    unfold State.crossLinks
    split
    · next up =>
      have := Carries.crossLinks r (Machine.farEnd l x) (s.crossLink l x) (farEnd_lt l x)
      exact ⟨(Carries.crossLink s l x (lt_of_linkUp up)).trans this.1, this.2⟩
    · exact ⟨.refl s, h⟩
theorem Carries.passRoute (s : State) (a b : Nat) (h : a < 8) : Carries s (s.passRoute a b) := (Carries.crossLinks _ _ _ h).1

/-- A way consists of links of R10. -/
theorem lt_of_mem_hopsFrom (s : State) (b : Nat) : ∀ (n a : Nat) (ls : List Nat), s.hopsFrom b n a = some ls → ∀ l ∈ ls, l < 19
  | 0, a, ls, h, l, m => by
    unfold State.hopsFrom at h
    split at h <;> cases h
    cases m
  | n + 1, a, ls, h, l, m => by
    unfold State.hopsFrom at h
    split at h
    · cases h; cases m
    · obtain ⟨l', hl', h⟩ := Option.bind_eq_some_iff.1 h
      obtain ⟨r, hr, rfl⟩ := Option.map_eq_some_iff.1 h
      rcases List.mem_cons.1 m with rfl | m
      · unfold State.nextHop at hl'
        exact of_decide_eq_true (Option.filter_eq_some_iff.1 hl').2
      · exact lt_of_mem_hopsFrom s b n _ r hr l m
theorem lt_of_mem_routeLinks (s : State) (a b l : Nat) (h : l ∈ (s.routeLinks a b).getD []) : l < 19 := by
  rcases e : s.routeLinks a b with _ | ls
  · rw [e] at h; cases h
  · rw [e] at h; exact lt_of_mem_hopsFrom s b 3 a ls e l h

theorem refuser_lt {s : State} {a b l : Nat} (h : s.refuser a b = some l) : l < 19 := by
  unfold State.refuser at h
  dsimp only at h
  split at h
  · next l' hl' => cases h; exact lt_of_mem_routeLinks s a b _ (List.mem_of_find?_eq_some hl')
  · split at h
    · exact lt_of_mem_routeLinks s a b _ (List.mem_of_head? h)
    · cases h
/-- A dropped parcel moves parcels alone and sends its dead letter. -/
theorem Carries.dropParcel (s : State) (cause a b : Nat) (w : List Word) (h : a < 8) : Carries s (s.dropParcel cause a b w) := by
  unfold State.dropParcel
  dsimp only
  have first : ∀ o : Option Nat, (∀ l, o = some l → l < 19) →
      Carries s (match o with | some l => s.bump (Reg.FL_REFUSED l) | none => s) := by
    intro o ho
    cases o with
    | none => exact .refl s
    | some l =>
      refine .bump _ _ ?_
      have := ho l rfl
      unfold Reg.FL_REFUSED; omega
  have f := first (if cause = 5 then none else s.refuser a b) (fun l hl => by
    split at hl
    · cases hl
    · exact refuser_lt hl)
  split
  · have := Carries.crossLinks ((s.routeLinks a b).getD []) a (match if cause = 5 then none else s.refuser a b with
      | some l => s.bump (Reg.FL_REFUSED l)
      | none => s) h
    exact (f.trans this.1).trans (Carries.routerDrop _ _ _ _ this.2)
  · exact f.trans (Carries.routerDrop _ _ _ _ h)
/-- Sending a message moves parcels alone. -/
theorem Carries.launchAs (s : State) (res : Bool) (m : Msg) (h : ∀ a b, m.route = some (a, b) → a < 8) : Carries s (s.launchAs res m) := by
  unfold State.launchAs
  split
  · exact .send s m
  · next a b hr =>
    split
    · exact .send s m
    · split
      · exact ((Carries.send s m).trans (Carries.joinRouter _ _ _)).trans (Carries.pump _ _ _)
      · next cause _ =>
        have d := Carries.dropParcel s cause a b m.words (h a b hr)
        dsimp only
        split
        · exact d.trans (Carries.send _ _)
        · exact d
theorem Carries.launch (s : State) (m : Msg) (h : ∀ a b, m.route = some (a, b) → a < 8) : Carries s (s.launch m) :=
  Carries.launchAs s _ m h
theorem Carries.launches (s : State) : ∀ (ms : List Msg), (∀ m ∈ ms, ∀ a b, m.route = some (a, b) → a < 8) → Carries s (s.launches ms) := by
  intro ms
  induction ms generalizing s with
  | nil => intro _; exact .refl s
  | cons m ms ih =>
    intro h
    exact (Carries.launch s m (h m (.head ms))).trans (ih _ fun x hx => h x (.tail m hx))

end Sys2Proof.Machine
end

