-- ==== Sys2Proof/Laws/Memory.lean ====
section
/-!
SUPPORT. Copies of words from one memory to another keep the canonical form (R458, R468).
-/
namespace Sys2Proof.Machine

/-- A run of writes keeps the canonical form. -/
theorem Mem.foldl_write_wf {α : Type} (f : α → Nat × Word) (es : List α) :
    ∀ m : Mem, m.wf = true → Mem.wf (es.foldl (fun m e => Mem.write m (f e).1 (f e).2) m) = true := by
  induction es with
  | nil => intro m h; exact h
  | cons e t ih => intro m h; exact ih _ (Mem.write_wf _ _ h)
/-- A copy changes memory alone, and keeps its canonical form. -/
theorem State.copyWords_only (s : State) (src dst n : Nat) : ∃ m, s.copyWords src dst n = { s with mem := m } := ⟨_, rfl⟩
theorem State.copyWords_wf (s : State) (src dst n : Nat) (h : s.mem.wf = true) : (s.copyWords src dst n).mem.wf = true :=
  Mem.foldl_write_wf (fun e : Nat × Word => (e.1 - src + dst, e.2)) _ _ (Mem.drop_wf _ h)

end Sys2Proof.Machine
end

