-- ==== Sys2Proof/WellFormed.lean ====
section
/-!
DEFINITION. Well-formed commands. Operand types bound most operands exactly; what they leave open is checked here: numbers that
name nothing on the part, lists longer than what carries them, and operand values that a command's form does not have.
-/
namespace Sys2Proof

/-- Words that a BAR2 request may carry: at least one, all of them in BAR2 (R409, R418). -/
def bar2Fits (w n : Nat) : Bool := decide (0 < n) && decide (w + n ≤ 131072)
/-- DWORDs of a BAR0 request lie in BAR0 (R409, R411). -/
def bar0Fits (dw : Nat) : Bar0Op → Bool
  | .write _ dws => decide (0 < dws.length) && decide (dw + dws.length ≤ 65536)
  | .read n => decide (0 < n) && decide (dw + n ≤ 65536)
/-- Bytes of a BAR4 request lie in BAR4 and in one 4 KiB page, as a TLP's do (R409, R413). -/
def bar4Fits (byte : Nat) : Bar4Op → Bool
  | .write bs => decide (0 < bs.length) && decide (byte % 4096 + bs.length ≤ 4096)
  | .read n => decide (0 < n) && decide (byte % 4096 + n ≤ 4096)

/-- Is the command well-formed? -/
def Instr.wf : Instr → Bool
  | .codeStoreLineRead _ line _ => decide (line < 262144)
  | .licDoorbell c _ => decide (c.val < 128)
  | .licAlmhWrite c _ => decide (c.val < 128)
  | .alarmFire c => decide (c.val < 128)
  | .bar0Tlp dw op => bar0Fits dw.val op
  | .bar4Tlp byte op => bar4Fits byte.val op
  | .bar2Write w ws => bar2Fits w.val ws.length
  | .eventPacket _ _ _ _ data => decide (data.length ≤ 65535)
  | .frameReturn _ _ _ answers _ => answers.all fun a => decide (1 ≤ a.1) && decide (a.1 ≤ 62)
  | .nodeCtlRelease _ _ a | .nodeCtlUnfault _ _ a | .nodeCtlClrcnt _ _ a => decide (1 ≤ a.val)
  | .icuCtlClrcnt _ d | .icuCtlClrpend _ d | .icuRaise _ d _ | .icuPendClear _ d _ _ =>
    d.val == 0 || (decide (3 ≤ d.val) && decide (d.val ≤ 6))
  | .localEvent d _ => decide (3 ≤ d.val) && decide (d.val ≤ 6)
  | .globalEventParcel d _ => d.val == 0 || (decide (3 ≤ d.val) && decide (d.val ≤ 6))
  | _ => true

end Sys2Proof
end

