-- ==== Sys2Proof/Tests/Slice0.lean ====
section
/-!
SUPPORT. Tests. The theorems test_… check an expected result that the spec gives, worked out by hand from its rules and examples. The
theorems met_<Statement> show, for a statement's hypotheses, concrete states and operands that meet them together, clause by clause.
-/
open Sys2Proof Sys2Proof.Machine
namespace Sys2Proof.Tests
set_option Elab.async false

/-! ## States -/

/-- A die in service. -/
def upDie : Die := { Die.reset with state := .inService, phase := 5, running := true }
/-- A link that is up. -/
def upLink : Link := { Link.reset with state := .up }
/-- The device in READY, every die in service and every link up. -/
def base : State :=
  { State.reset with phase := .awake, now := 1000000, dies := (List.range 8).map (fun d => (d, upDie)),
                     links := (List.range 19).map (fun l => (l, upLink)), regs := [(Reg.DEVICE_MODE, 3), (Reg.DEVICE_DIES, 0xFF)] }
/-- A state with registers set. -/
def withRegs (s : State) (rs : List (Nat × Word)) : State := rs.foldl (fun u e => u.setReg e.1 e.2) s
/-- The same in another mode. -/
def inMode (m : Word) : State := base.setReg Reg.DEVICE_MODE m
/-- The instruction window of a clerk is open over 10 × 65,536 words (R94). -/
def clerkAt (c : Nat) (k : Clerk) : State := (base.setReg (Reg.CLK_IWIN c) 0x0A00).setClerk c k
/-- A clerk as a die reset leaves it (R90), in SUPERVISOR. -/
def sup : Clerk := Clerk.reset
/-- A clerk in TASK. -/
def task : Clerk := { Clerk.reset with status := 0x200F }
/-- The clerk with an epoch open in its first slot. -/
def inEpoch (k : Clerk) : Clerk := { k with status := k.status ||| 0x1000, slots := k.slots.set! 0 { EpSlot.reset with state := .isOpen, gen := 5, seq := 1 } }
/-- What exec answers; the reset state where it answers none. -/
def out (o : Host.Outcome State Fault Refusal) : State := match o with | .next t => t | _ => State.reset

/-- Calm, from what a state lists. -/
theorem calm_of (s : State) (h : (s.fbPend.isEmpty && s.clerks.all fun e => e.2.waiting.isNone) = true) : Calm s := by
  have key : ∀ (t : Tbl Clerk) (c : Nat), (t.all fun e => e.2.waiting.isNone) = true →
      (Tbl.getD t c Clerk.reset).waiting = none := by
    intro t c ht
    induction t with
    | nil => rfl
    | cons e t ih =>
      simp only [List.all_cons, Bool.and_eq_true] at ht
      unfold Tbl.getD Tbl.find?
      split
      · simpa using ht.1
      · exact ih ht.2
  simp only [Bool.and_eq_true, List.isEmpty_iff] at h
  exact ⟨h.1, fun c => key s.clerks c h.2⟩
/-- The state once the next message that `p` names, here `m`, is taken. -/
def got (s : State) (p : Msg → Bool) (m : Msg) : State := (s.nextIn p).2.takeOut m
/-- A message has come, from what the fabric hands over next. -/
theorem arrives_of (s : State) (p : Msg → Bool) (m : Msg) (h : (s.nextIn p).1 = some m) :
    Claims.Arrives s p m (got s p m) := ⟨(s.nextIn p).2, Prod.ext h rfl, rfl⟩

/-! ## The package's form -/

theorem test_wf_line : Instr.wf (.codeStoreLineRead 0 262144 .good) = false ∧ Instr.wf (.codeStoreLineRead 0 262143 .refetch) = true := by
  decide
theorem test_wf_sorting_clerk :
    Instr.wf (.licDoorbell 128 0) = false ∧ Instr.wf (.licAlmhWrite 128 0) = false ∧ Instr.wf (.alarmFire 129) = false ∧
      Instr.wf (.licDoorbell 127 0) = true := by decide
theorem test_wf_bar0 :
    Instr.wf (.bar0Tlp 65535 (.read 2)) = false ∧ Instr.wf (.bar0Tlp 0 (.write false [])) = false ∧
      Instr.wf (.bar0Tlp 65535 (.read 1)) = true := by decide
theorem test_wf_bar4 :
    Instr.wf (.bar4Tlp 4095 (.read 2)) = false ∧ Instr.wf (.bar4Tlp 0 (.write [])) = false ∧ Instr.wf (.bar4Tlp 4095 (.read 1)) = true := by
  decide
theorem test_wf_bar2 : Instr.wf (.bar2Write 131071 [0, 0]) = false ∧ Instr.wf (.bar2Write 131071 [0]) = true := by decide
theorem test_wf_event_packet : Instr.wf (.eventPacket 0 0 true 0 (List.replicate 100 0)) = true := by decide
theorem test_wf_event_packet_long : Instr.wf (.eventPacket 0 0 true 0 (List.replicate 65536 0)) = false := by
  show decide ((List.replicate 65536 (0 : BitVec 8)).length ≤ 65535) = false
  rw [List.length_replicate]; decide
theorem test_wf_nodes :
    Instr.wf (.frameReturn 0 [] 0 [(63, ⟨0, 0, 0, 0, 0⟩)] none) = false ∧
      Instr.wf (.frameReturn 0 [] 0 [(62, ⟨0, 0, 0, 0, 0⟩)] none) = true ∧ Instr.wf (.nodeCtlRelease 130 0 0) = false ∧
      Instr.wf (.nodeCtlUnfault 130 0 0) = false ∧ Instr.wf (.nodeCtlClrcnt 130 0 0) = false ∧
      Instr.wf (.nodeCtlClrcnt 130 0 62) = true := by decide
theorem test_wf_icu_dies :
    Instr.wf (.icuCtlClrcnt 130 1) = false ∧ Instr.wf (.icuCtlClrpend 130 7) = false ∧ Instr.wf (.icuRaise 130 2 0) = false ∧
      Instr.wf (.icuPendClear 130 7 0 0) = false ∧ Instr.wf (.icuCtlClrcnt 130 0) = true ∧ Instr.wf (.localEvent 0 0) = false ∧
      Instr.wf (.localEvent 6 0) = true ∧ Instr.wf (.globalEventParcel 7 0) = false ∧ Instr.wf (.globalEventParcel 0 0) = true := by
  decide
/-- The table gives its rows no bits, so no word spells a command. -/
theorem test_no_bits : decodeTableWord 16 0x0063 = none := by decide

/-! ## The machine and the clerk's registers -/

theorem met_StepIdlesOnEmptyQueue : base.pending = [] := by decide
/-- A clerk ready to execute, at both ends of the clerk numbers and at both lengths; the token limit of R59 itself. -/
theorem met_Ready :
    Ready (clerkAt 0 { sup with tokens := 5 }) 0 1 ∧ Ready (clerkAt 127 sup) 127 2 ∧ Ready (clerkAt 129 { sup with pc := 1 }) 129 2 := by
  refine ⟨?_, ?_, ?_⟩ <;> constructor <;> decide +kernel
theorem met_tables :
    (Claims.scalar (.add 0 1 2)).isSome ∧ (Claims.compares (.sel 0 1 2 3 0)).isSome ∧ (Claims.sheet (.sperm 0 1 2 3)).isSome ∧
      (Claims.laneMode (.sabd 0 1 2)).isSome ∧ (Claims.accum (.aout 0 1 3 15)).isSome ∧ (Claims.multiply (.smul 0 1 2)).isSome ∧
      (Claims.branches (.ret 0)).isSome ∧ (Claims.system (.mfs 0 1 10)).isSome := by decide
/-- A clerk with two words in W1 and W2. -/
def withWords (x y : Word) : Clerk := (sup.ww 1 x).ww 2 y
/-- W1 after an instruction of clerk 0 with x in W1 and y in W2. -/
def w1After (i : Instr) (x y : Word) : Word := ((out (exec i (clerkAt 0 (withWords x y)))).clerk 0).rw 1
theorem test_add_wraps : w1After (.add 0 1 2) 0xFFFF 2 = 1 := by decide +kernel
theorem test_sub_borrows : w1After (.sub 0 1 2) 0 1 = 0xFFFF := by decide +kernel
theorem test_sar_keeps_sign : w1After (.sar 0 1 2) 0x8000 31 = 0xFFFF := by decide +kernel
theorem test_shl_past_width : w1After (.shl 0 1 2) 0xFFFF 16 = 0 := by decide +kernel
theorem test_shift_count_is_five_bits : w1After (.shr 0 1 2) 0x8000 32 = 0x8000 := by decide +kernel
theorem test_rol : w1After (.rol 0 1 2) 0x8001 17 = 0x0003 := by decide +kernel
theorem test_w0_discards : ((out (exec (.movi 0 0 0x1234) (clerkAt 0 sup))).clerk 0).rw 0 = 0 := by decide +kernel
theorem test_clt_signed : w1After (.clt 0 1 1 2) 0x8000 1 = 1 ∧ w1After (.cltu 0 1 1 2) 0x8000 1 = 0 := by decide +kernel
theorem test_cova : w1After (.cova 0 1 1 2) 0x7FFF 1 = 1 ∧ w1After (.cova 0 1 1 2) 0x8000 0x7FFF = 0 := by decide +kernel
theorem test_cadc : w1After (.cadc 0 1 1 2) 0xFFFF 1 = 1 ∧ w1After (.cadc 0 1 1 2) 0xFFFE 1 = 0 := by decide +kernel
theorem test_ssum_clamps :
    ((out (exec (.ssum 0 1 2) (clerkAt 0 (sup.ws 2 (Sheet.gen fun _ => 0x7FFF))))).clerk 0).rw 1 = 0x7FFF := by decide +kernel
theorem test_srot_by_lane :
    (((out (exec (.srot 0 2 1) (clerkAt 0 (sup.ws 2 ⟨0, 1, 2, 3, 4, 5, 6, 7⟩)))).clerk 0).rs 2) = ⟨1, 2, 3, 4, 5, 6, 7, 0⟩ := by
  decide +kernel
/-- Lane mode LM of a clerk. -/
def inLm (n : Word) : Clerk := { sup with status := 0x600F ||| (n <<< 10) }
theorem met_LaneModeResults :
    Ready (clerkAt 0 (inLm 3)) 0 1 ∧ (inLm 0).lm = 0 ∧ (inLm 1).lm = 1 ∧ (inLm 2).lm = 2 ∧ (inLm 3).lm = 3 := by
  refine ⟨?_, ?_⟩
  · constructor <;> decide +kernel
  · decide
/-- Lane 0 and lane 1 of S1 after SADD S1, S2 under a lane mode, from FFFFh, 0001h and 0001h, 7FFFh. -/
def saddLanes (m : Word) : Word × Word :=
  let x := ((out (exec (.sadd 0 1 2) (clerkAt 0 (((inLm m).ws 1 ⟨0xFFFF, 1, 0, 0, 0, 0, 0, 0⟩).ws 2 ⟨1, 0x7FFF, 0, 0, 0, 0, 0, 0⟩)))).clerk 0).rs 1
  (x.l0, x.l1)
theorem test_sadd_modes : saddLanes 0 = (0, 0x8000) ∧ saddLanes 1 = (0, 0x7FFF) ∧ saddLanes 2 = (0, 0x8001) := by decide +kernel
theorem test_mul_after_two :
    (((out (exec (.nop 0) (out (exec (.mul 0 1 2) (clerkAt 0 (withWords 0xFFFF 2)))))).clerk 0).pl,
      ((out (exec (.mul 0 1 2) (clerkAt 0 (withWords 0xFFFF 2)))).clerk 0).pl) = (0xFFFE, 0) := by decide +kernel

theorem met_ProductsArrive :
    Ready (clerkAt 0 { sup with mulPend := [(1, 5, 6)], smulPend := [(2, sup.spl, sup.sph)] }) 0 1 ∧
      Ready (clerkAt 0 { sup with smulPend := [(1, sup.spl, sup.sph)] }) 0 1 := by
  refine ⟨?_, ?_⟩ <;> constructor <;> decide +kernel

/-! ## Branches and the system instructions -/

theorem met_BranchResults : Ready (clerkAt 0 { sup with pc := 0 }) 0 2 ∧
    (∃ j, Claims.branches (.bnz 0 0 0x80) = some j ∧ j.predicted = false) ∧ (∃ j, Claims.branches (.bz 0 1 0) = some j ∧ j.predicted = true) := by
  refine ⟨?_, ⟨_, rfl, rfl⟩, ⟨_, rfl, rfl⟩⟩
  constructor <;> decide +kernel
theorem test_call_links :
    (let k := (out (exec (.call 0 0x12345) (clerkAt 0 { sup with pc := 0x0003E }))).clerk 0
     (k.pc, k.rw 13, k.rw 14)) = (0x12345#20, 0#16, 0x40#16) := by decide +kernel
theorem test_branch_back : ((out (exec (.bz 0 0 (BitVec.ofInt 8 (-1))) (clerkAt 0 { sup with pc := 5 }))).clerk 0).pc = 5 := by decide +kernel
theorem met_SystemResults :
    (task.sup = false ∧ (0 : Nat) < 2 ∧ (6 : Nat) < 7) ∧ Claims.specialPlain 0 0x200F task ∧ Claims.specialPlain 0 0xE000 sup ∧
      Claims.specialPlain 7 0 sup ∧ Claims.specialPlain 8 0xFFFF task ∧ Claims.specialPlain 1 5 sup ∧ sup.lm = 0 ∧ sup.ie = false := by
  refine ⟨by decide, ?_, ?_, ?_, ?_, ?_, by decide, by decide⟩ <;> (simp only [Claims.specialPlain, Claims.sameMode]; decide)
theorem met_ModeChangePends :
    (sup.lm ≠ 2 ∧ sup.ep = false ∧ sup.susp = false) ∧ (field (0x200F : Word) 10 2 ≠ 3 ∧ ¬Claims.sameMode 0x200F sup.status) ∧
      bit (0x200F : Word) 13 = sup.guarded ∧ (clerkAt 0 sup).classLocked 0 = false ∧ (5 : Nat) % 256 ≠ sup.ctx.toNat := by
  simp only [Claims.sameMode]; decide +kernel
theorem met_ModeChangeTakesEffect :
    let s := clerkAt 0 { sup with shadow := [{ left := 0, change := .status 0x200F }] }
    s.clerkRuns 0 = true ∧ (s.clerk 0).shadow = [{ left := 0, change := .status 0x200F }] ∧ (s.clerk 0).waiting = none ∧
      s.winner 0 = none := by decide +kernel
/-- Each kind of cause of `trapped`, with a clerk that meets it. -/
theorem met_TrapsEnter :
    (task.sup = false ∧ task.ie = false) ∧ ({ task with status := 0xA00F } : Clerk).ie = true ∧ (inEpoch sup).ep = true ∧
      RepCount.value sup (.imm 17) = 17 ∧ (sup.portEA (.disp 0 0x4201) 8).addr.toNat % 8 ≠ 0 ∧
      ((sup.ww 1 0x0200).rw 1).toNat / 512 ≠ 0 ∧ (clerkAt 0 sup).dataTarget 0 0x8000 = none ∧ (clerkAt 0 sup).storeTarget 0 0xFFFF = none ∧
      (clerkAt 0 sup).winWords 0 ≤ 0xFFFFF ∧ bit sup.excCause 15 = false := by decide +kernel
theorem met_SecondExceptionHalts :
    Ready (clerkAt 0 { task with excCause := 0x8002 }) 0 1 ∧ bit (0x8002 : Word) 15 = true ∧ (∃ x, Claims.trapped (.reti 0) = some x) := by
  refine ⟨?_, by decide, ⟨_, rfl⟩⟩
  constructor <;> decide +kernel
theorem met_CallsEnter : Ready (clerkAt 127 sup) 127 1 ∧ bit ((clerkAt 127 sup).clerk 127).excCause 15 = false ∧ ((clerkAt 127 sup).clerk 127).armed = false := by
  refine ⟨?_, by decide +kernel, by decide +kernel⟩
  constructor <;> decide +kernel
theorem test_task_mts_traps :
    (let k := (out (exec (.mts 0 1 2) (clerkAt 0 task))).clerk 0; (k.excCause, k.pc, k.status, k.isp)) = (0x8002#16, 0x50#20, 0x600F#16, 0xFFFC#16) := by
  decide +kernel
theorem test_svc_argument : ((out (exec (.svc 0 31) (clerkAt 0 task))).clerk 0).excCause = 0x9F0A := by decide +kernel
theorem met_ArmedBreakHalts : Ready (clerkAt 0 { sup with armed := true }) 0 1 ∧ ({ sup with armed := true } : Clerk).armed = true := by
  refine ⟨?_, rfl⟩
  constructor <;> decide +kernel
theorem met_RetiReturns : sup.sup = true ∧ sup.susp = false ∧ (clerkAt 0 sup).winner 0 = none := by decide +kernel
theorem met_PrefixLatches : RepCount.value sup (.imm 16) ≤ 16 ∧ RepCount.value (sup.ww 1 0xFFFF) (.reg 1) = 65535 := by decide
/-- A clerk behind a prefix at address 0. -/
def behind (x : RepState) : State := clerkAt 0 { sup with pc := 1, rep := some x }
theorem met_CountZeroDoesNothing :
    let x : RepState := ⟨0, false, 0, false, true, false⟩
    (∀ u, exec (.sti 0 1 2 3) u = .next (u.clerkInsn 0 (.sti 0 1 2 3))) ∧ isTrap (.sti 0 1 2 3) = false ∧
      repForbids ((behind x).clerk 0) (.sti 0 1 2 3) = false ∧ Claims.Repeating (behind x) 0 x (insnLen (.sti 0 1 2 3)) := by
  refine ⟨fun _ => rfl, by decide, by decide +kernel, ?_⟩
  unfold Claims.Repeating; decide +kernel
theorem met_PrefixTooLarge :
    let x : RepState := ⟨17, true, 0, false, true, true⟩
    (Claims.scalar (.addi 0 1 1 2)).isSome ∧ Claims.Repeating (behind x) 0 x 2 ∧ bit ((behind x).clerk 0).excCause 15 = false := by
  refine ⟨rfl, ?_, by decide +kernel⟩
  unfold Claims.Repeating; decide +kernel
theorem met_RepeatsAsLatched :
    let x : RepState := ⟨16, true, 0, false, true, false⟩
    (Claims.scalar (.addi 0 1 1 2)).isSome ∧ Claims.Repeating (behind x) 0 x 2 := by
  refine ⟨rfl, ?_⟩
  unfold Claims.Repeating; decide +kernel
/-- R117: a repeated instruction that writes the register of its count runs as often as was latched. -/
theorem test_count_register_written :
    (let s := out (exec (.repu 0 (.reg 1)) (clerkAt 0 { (sup.ww 1 5) with tokens := 320 }))
     ((out (exec (.addi 0 1 1 3) s)).clerk 0).rw 1) = 20 := by decide +kernel
/-- R129: ILLEGAL of a prefixed BREAK comes before PREFIX of a count above 16. -/
theorem test_illegal_before_prefix :
    (let s := out (exec (.repu 0 (.imm 17)) (clerkAt 0 sup))
     (((out (exec (.brk 0 1) s)).clerk 0).excCause, ((out (exec (.add 0 1 1) s)).clerk 0).excCause)) = (0x8001#16, 0x8003#16) := by
  decide +kernel


/-! ## Memory, ports, slots, code space -/

/-- A state of clerk 0 with registers set. -/
def clerkWith (c : Nat) (k : Clerk) (rs : List (Nat × Word)) : State := withRegs (clerkAt c k) rs
/-- The clerk waits with an instruction. -/
def waitingFor (kind : WaitKind) (i : Instr) : Clerk := { sup with waiting := some { kind := kind, insn := i } }
/-- No clerk but `c` waits, from what a state lists. -/
theorem alone_of (s : State) (c : Nat) (h : (s.clerks.all fun e => e.1 == c || e.2.waiting.isNone) = true) :
    ∀ c', c' ≠ c → (s.clerk c').waiting = none := by
  have key : ∀ (t : Tbl Clerk) (d : Nat), (t.all fun e => e.1 == c || e.2.waiting.isNone) = true → d ≠ c →
      (Tbl.getD t d Clerk.reset).waiting = none := by
    intro t d ht hd
    induction t with
    | nil => rfl
    | cons e t ih =>
      simp only [List.all_cons, Bool.and_eq_true, Bool.or_eq_true, beq_iff_eq] at ht
      unfold Tbl.getD Tbl.find?
      split
      · next heq => rcases ht.1 with h1 | h1
                    · exact absurd (heq.symm.trans h1) hd
                    · simpa using h1
      · exact ih ht.2
  exact fun d hd => key s.clerks d h hd

/-- A clerk waits alone, from what a state lists. -/
theorem waits_of (s : State) (c : Nat) (kind : WaitKind) (i : Instr) (len : Nat)
    (h : s.clerkRuns c = true ∧ (s.clerk c).waiting = some { kind := kind, insn := i } ∧ (s.clerk c).rep = none ∧ (s.clerk c).window = [] ∧
      (s.clerk c).shadow = [] ∧ s.fetchable c len = true ∧ (s.clerk c).stepping = false ∧ (s.clerk c).haltReq = false ∧ s.fbPend = [])
    (ha : (s.clerks.all fun e => e.1 == c || e.2.waiting.isNone) = true) : Claims.WaitsWith s c kind i len :=
  ⟨h.1, h.2.1, h.2.2.1, h.2.2.2.1, h.2.2.2.2.1, h.2.2.2.2.2.1, h.2.2.2.2.2.2.1, h.2.2.2.2.2.2.2.1, h.2.2.2.2.2.2.2.2, alone_of s c ha⟩

/-- The last address of the private store, a sheet that just fits, and the same at the store's end. -/
theorem met_PrivateLoads :
    Ready (clerkAt 0 sup) 0 2 ∧ Claims.dataAddr sup (.disp 0 0x7FFF) 1 % 65536 = ((0x7FFF : Nat) : Int) ∧
      Claims.dataAddr sup (.disp 0 0x7FF8) 8 % 65536 = ((0x7FF8 : Nat) : Int) ∧ 0x7FF8 + 7 < 0x8000 := by
  refine ⟨?_, by decide, by decide, by decide⟩
  constructor <;> decide +kernel
theorem met_PrivateStores :
    (∃ f, Claims.storing (clerkAt 0 sup) (.sti 0 0 0x7FFF 5) = some (0, 3, 0x7FFF, [5], f)) ∧ Ready (clerkAt 0 sup) 0 3 ∧ sup.ep = false ∧
      0x7FFF + [(5 : Word)].length ≤ 0x8000 := by
  refine ⟨⟨_, rfl⟩, ?_, by decide, by decide⟩
  constructor <;> decide +kernel
theorem test_predec_store :
    (let t := out (exec (.st 0 2 (.preDec 1)) (clerkAt 0 (withWords 0x0010 7))); (t.peek (privKey 0 0x000F), (t.clerk 0).rw 1)) = (7#16, 0xF#16) := by
  decide +kernel
theorem test_load_wins_over_base :
    ((out (exec (.ld 0 1 (.postInc 1)) ((clerkAt 0 (withWords 0x0010 7)).poke (privKey 0 0x10) 0x1234))).clerk 0).rw 1 = 0x1234 := by
  decide +kernel
theorem met_StoresJournal :
    Ready (clerkAt 0 (inEpoch sup)) 0 1 ∧ (inEpoch sup).ep = true ∧ (inEpoch sup).journal.length < 256 ∧
      Claims.dataAddr (inEpoch sup) (.ind 0) 1 % 65536 = ((0 : Nat) : Int) := by
  refine ⟨?_, by decide, by decide, by decide⟩
  constructor <;> decide +kernel
/-- Window 0 of clerk 0 is SHARED, writable, at shared-store base 12 (R97). -/
def sharedWin (k : Clerk) : State := clerkWith 0 k [(Reg.CLK_WIN_CFG 0 0, 0x6000), (Reg.CLK_WIN_BASEL 0 0, 12)]
/-- R97's example: window 0 at base 12, D:8FFCh reaches shared-store word 0000_CFFCh. -/
theorem test_shared_window : (sharedWin sup).dataTarget 0 0x8FFC = some (.shared 3 0xCFFC) := by decide +kernel
/-- Window 1 of clerk 0 is DDR, and one stack of memory answers. -/
def ddrWin (k : Clerk) : State :=
  clerkWith 0 k [(Reg.CLK_WIN_CFG 0 1, 0x8000), (Reg.DDR_CAPL, 4), (Reg.DDR_CAPH, 0)]
theorem met_WindowLoads_issue :
    let s := sharedWin sup
    Claims.dataAddr sup (.disp 0 0x8FFC) 1 % 65536 = ((0x8FFC : Nat) : Int) ∧ (Target.shared 3 0xCFFC).isWindow = true ∧ Ready s 0 2 ∧
      s.dataTarget 0 0x8FFC = some (.shared 3 0xCFFC) ∧ Claims.loadMay s 0 (.shared 3 0xCFFC) := by
  refine ⟨by decide, by decide, ?_, by decide +kernel, by decide +kernel, fun h => absurd h (by decide)⟩
  constructor <;> decide +kernel
theorem met_WindowLoads_reply :
    let s := sharedWin { waitingFor .window (.ld 0 1 (.disp 0 0x8FFC)) with loadBuf := [(.shared 3 0xCFFC, 1)] }
    (s.clerk 0).loadBuf = [(.shared 3 0xCFFC, 1)] ∧ Claims.WaitsWith s 0 .window (.ld 0 1 (.disp 0 0x8FFC)) 2 ∧ Claims.windowWord s (.shared 3 0xCFFC) = some 0 := by
  refine ⟨by decide +kernel, waits_of _ _ _ _ _ (by decide +kernel) (by decide +kernel), by decide +kernel⟩
theorem met_BadLoads :
    let s := ddrWin { waitingFor .window (.ld 0 1 (.disp 0 0x9000)) with loadBuf := [(.ddr 0, 1)] }
    (s.clerk 0).loadBuf = [(.ddr 0, 1)] ∧ bit (s.clerk 0).excCause 15 = false ∧
      Claims.WaitsWith s 0 .window (.ld 0 1 (.disp 0 0x9000)) 2 := by
  refine ⟨by decide +kernel, by decide +kernel, waits_of _ _ _ _ _ (by decide +kernel) (by decide +kernel)⟩
theorem met_SharedStores :
    let s := sharedWin sup
    (∃ f, Claims.storing s (.st 0 2 (.disp 0 0x8FFF)) = some (0, 2, 0x8FFF, [0], f)) ∧
      s.storeTarget 0 ((0x8FFF : Int) % 65536).toNat = some (.shared 3 0xCFFF) ∧ s.poisoned 3 (0xCFFF / 65536) = false := by
  refine ⟨⟨_, rfl⟩, by decide +kernel, by decide +kernel⟩
theorem met_PortReads :
    Claims.plainPort 0x520 = some 0x1F3F ∧ Claims.plainPort 0x51C = some 0xE01F ∧ Calm (clerkAt 0 sup) ∧ (128 : Nat) ≤ (128 : ClerkId).val ∧
      (clerkAt 128 sup).hasStamp 0 ((clerkAt 128 sup).clerkRoute 128) 0 = true := by
  refine ⟨by decide, by decide, calm_of _ (by decide +kernel), by decide, by decide +kernel⟩
/-- A clerk waits for the reply of PST_SEL, which has come. -/
def replied : State :=
  { clerkAt 129 (waitingFor .portReply (.inPort 129 1 (.disp 0 (word Reg.PST_SEL)))) with msgs := [.portReply 129 0 [7] false] }
theorem met_PortReads_reply : ∃ u, Claims.Arrives replied (Claims.replyTo 129) (.portReply 129 0 [7] false) u ∧
    Claims.WaitsWith u 129 .portReply (.inPort 129 1 (.disp 0 (word Reg.PST_SEL))) 2 ∧ (u.clerk 129).ep = false :=
  ⟨_, arrives_of _ _ _ (by decide +kernel), waits_of _ _ _ _ _ (by decide +kernel) (by decide +kernel), by decide +kernel⟩
theorem met_PortWrites :
    (∃ f, Claims.writing (clerkAt 0 sup) (.outi 0 0 0xC2 5) = some (0, 3, 0xC2, 5, f)) ∧ Claims.pcntSelPort 0xC2 ∧ Claims.pcntSelPort 0xC5 ∧
      Ready (clerkAt 0 task) 0 3 ∧ Calm (clerkAt 0 (inEpoch sup)) ∧ sup.ep = false ∧ task.sup = false ∧
      (inEpoch sup).ep = true ∧ (inEpoch sup).sup = true ∧ (inEpoch sup).held.length < 16 := by
  refine ⟨⟨_, rfl⟩, by unfold Claims.pcntSelPort; decide, by unfold Claims.pcntSelPort; decide, ?_, calm_of _ (by decide +kernel), by decide, by decide,
    by decide, by decide, by decide⟩
  constructor <;> decide +kernel
/-- The route of clerk 128 has an enabled meter whose postage per round is 0. -/
def noStamps (k : Clerk) : State := clerkWith 128 k [(routeKey 0 3, 0x8000)]
theorem met_GlobalPortWrites :
    (clerkAt 128 sup).hasStamp 0 ((clerkAt 128 sup).clerkRoute 128) 0 = true ∧ Calm (noStamps sup) ∧
      (noStamps sup).hasStamp 0 ((noStamps sup).clerkRoute 128) 0 = false ∧ Ready (noStamps sup) 128 3 := by
  refine ⟨by decide +kernel, calm_of _ (by decide +kernel), by decide +kernel, ?_⟩
  constructor <;> decide +kernel
/-- Slot `i` of clerk 0 is bound to mailbag `n` in a direction, and the mailbag is enabled (R206). -/
def bound (k : Clerk) (i dir n : Nat) : State :=
  clerkWith 0 k [(Reg.SL_CFG 0 i, word (16384 * dir + 128 * (n / 128) + n % 128)), (Reg.MB_CFG n, 0x8000)]
/-- A mailbag that holds an item. -/
def bagOf (x : BagItem) : Bag := { Bag.reset with head := [x] }
theorem met_SlotPops :
    let s := (bound sup 63 1 0x180).setBag 0x180 (bagOf (ordinary ⟨1, 2, 3, 4, 5, 6, 7, 8⟩))
    (∃ f, Claims.popping s (.ins 0 2 (.disp 0 0x4F0)) = some (0, 2, 63, 2, f)) ∧ field (s.reg (Reg.SL_CFG 0 63)) 14 2 = 1 ∧
      128 * field (s.reg (Reg.SL_CFG 0 63)) 7 3 + field (s.reg (Reg.SL_CFG 0 63)) 0 7 = 0x180 ∧ bit (s.reg (Reg.MB_CFG 0x180)) 15 = true ∧
      (s.bag 0x180).head = [ordinary ⟨1, 2, 3, 4, 5, 6, 7, 8⟩] ∧ (ordinary ⟨1, 2, 3, 4, 5, 6, 7, 8⟩).tag = 0 ∧
      (ordinary ⟨1, 2, 3, 4, 5, 6, 7, 8⟩).flips = 0 ∧ Ready s 0 2 ∧ Calm s := by
  refine ⟨⟨_, rfl⟩, by decide +kernel, by decide +kernel, by decide +kernel, by decide +kernel, by decide, by decide, ?_, calm_of _ (by decide +kernel)⟩
  constructor <;> decide +kernel
theorem met_SlotPushes :
    let s := bound sup 0 2 0x180
    Claims.portAddr sup (.disp 0 0x100) = 0x100 + 16 * 0 ∧ field (s.reg (Reg.SL_CFG 0 0)) 14 2 = 2 ∧ 0x180 / 128 = clerkDie 0 ∧
      (s.bag 0x180).held < s.bagCap 0x180 ∧ (s.bag 0x180).tail.length < 8 ∧ s.savedBags.find? 0x180 = none ∧
      (∀ e ∈ s.arrivalsOf 3, e.1 ≠ 0x180) ∧ bit (s.reg (Reg.MB_CFG 0x180)) 15 = true ∧ s.fbPend = [] := by decide +kernel
/-- A draft of another clerk. -/
def draft (depth : Nat) : BagItem := { data := ⟨1, 2, 3, 4, 5, 6, 7, 8⟩, tag := 0x0205, depth := depth, flips := 0 }
theorem met_DraftPopOpens :
    let s := (bound sup 0 1 0x180).setBag 0x180 (bagOf (draft 3))
    sup.susp = false ∧ sup.slots = Vector.replicate 4 EpSlot.reset ∧ (s.bag 0x180).head = [draft 3] ∧ (draft 3).tag ≠ 0 ∧ (draft 3).depth < 4 ∧
      s.retainedCount (0x180 / 128) < 256 ∧ s.undeliverable (clerkDie 0) 7 = none ∧ Ready s 0 1 ∧ Calm s := by
  refine ⟨by decide, by decide +kernel, by decide, by decide +kernel, by decide, by decide, by decide +kernel, ?_, calm_of _ (by decide +kernel)⟩
  constructor <;> decide +kernel
theorem met_CodeReads :
    let q : Clerk := { sup with codeQueue := [{ line := 0, words := [(3, 0xABCD)] }] }
    (∃ d, Claims.getting (clerkAt 0 sup) (.getia 0 1 0x3FF) = some (0, d, 0x3FF)) ∧ Ready (clerkAt 0 sup) 0 2 ∧ (clerkAt 0 sup).winWords 0 = 10 * 65536 ∧
      q.queued 3 = some 0xABCD ∧ sup.queued 3 = none ∧ ((clerkAt 0 sup).lineCache (groupKey 0)).lookup 0 = none ∧
      ((LineCache.reset.demand 0 [1, 2]).lookup 0) = some [1, 2] := by
  refine ⟨⟨_, rfl⟩, ?_, by decide +kernel, by decide +kernel, by decide, by decide +kernel, by decide⟩
  constructor <;> decide +kernel
theorem met_CodeWrites :
    let s := clerkWith 0 sup [(Reg.CLK_IWR_BASE 0, 2), (Reg.CLK_IWR_LEN 0, 1)]
    (0x2F : Nat) < s.winWords 0 ∧ (s.reg (Reg.CLK_IWR_BASE 0)).toNat ≤ 0x2F / 16 ∧
      0x2F / 16 < (s.reg (Reg.CLK_IWR_BASE 0)).toNat + (s.reg (Reg.CLK_IWR_LEN 0)).toNat ∧ sup.codeQueue.length < 8 := by decide +kernel
theorem met_CodeQueueWrites :
    let s := clerkAt 0 { sup with codeQueue := [{ line := 7, words := [(3, 0xABCD), (15, 1)] }] }
    s.live = true ∧ (s.die (clerkDie 0)).running = true ∧ (s.clerk 0).waiting = none ∧
      (([(3, 0xABCD), (15, 1)] : Tbl Word).map Prod.fst).Nodup := by decide +kernel
theorem met_LineReadFills :
    (clerkAt 0 sup).clerkRuns 0 = true ∧ (262143 : Nat) < 262144 ∧ ((clerkAt 0 sup).clerk 0).waiting = none ∧
      ((clerkAt 0 sup).lineFill 0 262143).undefinedAtPc 0 = false ∧ (((clerkAt 0 sup).poke (codeKey 3 0) 0x0063).lineFill 0 0).undefinedAtPc 0 = true ∧
      sup.window = [] ∧ sup.shadow = [] ∧ sup.rep = none ∧ bit sup.excCause 15 = false := by decide +kernel
theorem met_BadLineRaisesFetch : (clerkAt 0 sup).codeLine 0 ((clerkAt 0 sup).clerk 0).pc = 0 ∧ ((clerkAt 0 sup).clerk 0).window = [] := by
  decide +kernel
/-- R133, R159: word 0063h is undefined; word 0001h is not. -/
theorem test_undefined_words :
    ((out (exec (.codeStoreLineRead 0 0 .good) ((clerkAt 0 sup).poke (codeKey 3 0) 0x0063))).clerk 0).excCause = 0x8001 ∧
      ((out (exec (.codeStoreLineRead 0 0 .good) ((clerkAt 0 sup).poke (codeKey 3 0) 0x0001))).clerk 0).excCause = 0 := by decide +kernel


/-! ## Blocks, epochs, interrupts -/

/-- A clerk with W7 to W12. -/
def blockClerk (a b n e f : Word) : Clerk := ((((sup.ww 8 a).ww 9 b).ww 10 n).ww 11 e).ww 12 f
/-- Two words from 0000h on, to the last two addresses of the private store. -/
def gathering : Clerk := blockClerk 0 0x7FFE 2 1 0
theorem met_BlockResults_ready : Ready (clerkAt 0 gathering) 0 1 := by constructor <;> decide +kernel
theorem met_BlockResults :
    (clerkAt 0 gathering).winner 0 = none ∧ gathering.ep = false ∧ (gathering.rw 10).toNat = 2 ∧
      (∀ j, j < 2 → Claims.inPriv (Claims.steps gathering 8 (gathering.rw 11) j)) ∧
      ∀ j, j < 2 → Claims.inPriv (Claims.steps gathering 9 1 j) := by
  unfold Claims.inPriv; decide +kernel
theorem test_bsum_end_around_carry :
    ((out (exec (.bsum 0) (((clerkAt 0 ((blockClerk 0 0 2 0 0).ww 7 1)).poke (privKey 0 0) 0xFFFF).poke (privKey 0 1) 0x0005))).clerk 0).rw 7 =
      6 := by decide +kernel
/-- A block of two words, 7 and 0, against a mask of FFFFh and a key of 0. -/
def matching : State := (clerkAt 0 (blockClerk 0 0 2 0 0xFFFF)).poke (privKey 0 0) 7
theorem met_MatchResults :
    Claims.matchesAt matching 0 (matching.clerk 0) 1 ∧ ¬Claims.matchesAt matching 0 (matching.clerk 0) 0 ∧
      Claims.inPriv (Claims.steps (matching.clerk 0) 8 1 1) ∧ ∀ j, j < (0 : Nat) → ¬Claims.matchesAt matching 0 (matching.clerk 0) j := by
  refine ⟨?_, ?_, ?_, fun j h => absurd h (Nat.not_lt_zero j)⟩
  · unfold Claims.matchesAt; decide +kernel
  · unfold Claims.matchesAt; decide +kernel
  · unfold Claims.inPriv; decide +kernel
def portsIn : Clerk := blockClerk 0x520 0x7FFD 3 0 0
def portsOut : Clerk := blockClerk 0x7FFC 0xC2 4 0 0
theorem met_BlockPorts_calm : Calm (clerkAt 0 portsIn) ∧ Calm (clerkAt 0 portsOut) := ⟨calm_of _ (by decide +kernel), calm_of _ (by decide +kernel)⟩
theorem met_BlockPorts_get :
    portsIn.ep = false ∧ (portsIn.rw 10).toNat = 3 ∧ (portsIn.rw 8).toNat + 3 ≤ 0x523 ∧ 0x520 ≤ (portsIn.rw 8).toNat ∧
      ∀ j, j < 3 → Claims.inPriv (Claims.steps portsIn 9 1 j) := by unfold Claims.inPriv; decide +kernel
theorem met_BlockPorts_put :
    portsOut.sup = true ∧ (portsOut.rw 10).toNat = 4 ∧ 0xC2 ≤ (portsOut.rw 9).toNat ∧ (portsOut.rw 9).toNat + 4 ≤ 0xC6 ∧
      ∀ j, j < 4 → Claims.inPriv (Claims.steps portsOut 8 1 j) := by unfold Claims.inPriv; decide +kernel
/-- Clerk 0 with a settle mark in S1 on axis 2; die 3's replica of it in TRACK at 100 counts, with a horizon of 16 counts. -/
def opener (k : Clerk) (count : Word) : State :=
  ((clerkWith 0 (k.ws 1 ⟨0x2000, 0, count, 0, 0, 0, 0, 0⟩) [(Reg.EPOCH_HORIZON 2, 1), (Reg.AX_BCAST_MASK, 4)]).setReplica 3 2
    { Replica.reset with pos := 0x640000#48, state := 2, stale := false })
theorem met_EpochOpens :
    let s := opener sup 116
    Ready s 0 1 ∧ ((s.clerk 0).rs 1).l0.toNat % 4096 = 0 ∧ (s.clerk 0).freeSlot = some 0 ∧ (3 : Reg4) ≠ 0 ∧
      s.refuseReason 0 (markAxis 0x2000) (markPos 0 116 0) = 0 ∧ s.undeliverable (clerkDie 0) 7 = none := by
  refine ⟨?_, by decide +kernel, by decide +kernel, by decide, by decide +kernel, by decide +kernel⟩
  constructor <;> decide +kernel
/-- A mark one count past the horizon, and one at the position itself. -/
theorem met_EpochRefused :
    (opener sup 117).refuseReason 0 (markAxis 0x2000) (markPos 0 117 0) = 6 ∧
      (opener sup 100).refuseReason 0 (markAxis 0x2000) (markPos 0 100 0) = 5 := by decide +kernel
theorem test_eopen_tag : ((out (exec (.eopen 0 3 1) (opener sup 116))).clerk 0).rw 3 = 0x0001 := by decide +kernel
/-- Clerk 1 with an epoch of generation 5 open in slot 0: its tag is 0205h (R163). -/
def owner : Clerk := inEpoch sup
theorem met_PostSends :
    let k := owner.ws 1 ⟨0, 0, 0, 0, 0, 0, 0, 0x0205⟩
    let s := clerkAt 1 k
    k.slotTag 1 0 = (k.rs 1).l7 ∧ (k.rs 2).l7 = 0 ∧ sup.ep = false ∧ k.ep = true ∧ s.hasStamp (clerkDie 1) (s.clerkRoute 1) 0 = true ∧
      s.undeliverable (clerkDie 1) 7 = none ∧ bit k.excCause 15 = false ∧ Ready s 1 1 := by
  refine ⟨by decide, by decide, by decide, by decide, by decide +kernel, by decide +kernel, by decide, ?_⟩
  constructor <;> decide +kernel
theorem met_RecallRequests :
    let k := (owner.ww 1 0x0205).ww 2 0x0206
    (k.rw 1).toNat / 512 = 1 ∧ (k.rw 2).toNat / 512 = 1 ∧ k.slotTag 1 0 = k.rw 1 ∧ (∀ i, i < 4 → k.slotTag 1 i ≠ k.rw 2) ∧
      (clerkAt 1 k).undeliverable (clerkDie 1) 7 = none := by decide +kernel
/-- Source 10h of die 3 is enabled for clerk 0 with priority 1 and is pending. -/
def offered (k : Clerk) : State :=
  (clerkWith 0 k [(icuKey 3 0x10 3, 0x8100)]).setIcuSrc 3 0x10 { IcuSrc.reset with pend := true }
theorem met_InterruptEnters :
    let k : Clerk := { sup with status := 0xE00F }
    let s := offered k
    s.clerkRuns 0 = true ∧ s.winner 0 = some (1, 0x10) ∧ k.entry = none ∧ k.shadow = [] ∧ k.rep = none ∧ k.waiting = none ∧
      k.stepping = false ∧ k.ie = true ∧ 1 < k.lvl := by decide +kernel
theorem met_WaitRetires : ((offered sup).releaseFor 0).pendingFor 0 ≠ [] ∧ Ready (offered sup) 0 1 := by
  refine ⟨by decide +kernel, ?_⟩
  constructor <;> decide +kernel
theorem met_DsyncRetires : Ready (clerkAt 0 sup) 0 1 ∧ sup.held = [] ∧ ∀ m ∈ (clerkAt 0 sup).msgs, ∀ b x, m ≠ .push 8 b x := by
  refine ⟨?_, by decide, fun m h => absurd h List.not_mem_nil⟩
  constructor <;> decide +kernel
theorem met_SynciInvalidates : (let k : Clerk := { sup with codeDirty := [7] }; k.ep = false ∧ k.codeQueue = [] ∧ 7 ∈ k.codeDirty) := by decide
theorem met_TokensArrive :
    let s := clerkAt 0 { sup with tokens := 319 }
    s.live = true ∧ (s.die (clerkDie 0)).running = true ∧ Calm s ∧ (s.die (clerkDie 129)).running = true := by
  refine ⟨by decide +kernel, by decide +kernel, calm_of _ (by decide +kernel), by decide +kernel⟩
theorem test_token_cap : ((out (exec (.tokenArrival 0) (clerkAt 0 { sup with tokens := 300 }))).clerk 0).tokens = 320 := by decide +kernel
theorem met_MispredictionSquashes :
    ((clerkAt 0 { sup with pred := { Predictor.reset with mispred := some true } }).clerk 0).pred.mispred = some true := by decide +kernel
theorem met_PopWaitEnds :
    let i : Instr := .ins 0 2 (.ind 1)
    let k := { (waitingFor .pop i) with w := (sup.ww 1 0x100).w }
    let s := (bound k 0 1 0x180).setBag 0x180 (bagOf (ordinary ⟨1, 2, 3, 4, 5, 6, 7, 8⟩))
    Claims.WaitsWith s 0 .pop i 1 ∧ k.ep = false ∧ (k.rw 1).toNat = 0x100 + 16 * 0 ∧ (s.bag 0x180).head = [ordinary ⟨1, 2, 3, 4, 5, 6, 7, 8⟩] := by
  exact ⟨waits_of _ _ _ _ _ (by decide +kernel) (by decide +kernel), by decide, by decide, by decide +kernel⟩
theorem met_JournalWaitEnds :
    let i : Instr := .st 0 2 (.ind 1)
    let k := { inEpoch (waitingFor .journal i) with w := (sup.ww 1 0x7FFF).w }
    let s := clerkAt 0 k
    Claims.WaitsWith s 0 .journal i 1 ∧ k.ep = true ∧ k.journal.length < 256 ∧ Claims.inPriv (k.rw 1) := by
  exact ⟨waits_of _ _ _ _ _ (by decide +kernel) (by decide +kernel), by decide, by decide, by unfold Claims.inPriv; decide⟩
theorem met_HeldWritePerforms :
    let k : Clerk := { task with held := [{ tag := 0, sup := true, port := 0xC5, vals := [7] }] }
    (clerkAt 0 k).live = true ∧ ((clerkAt 0 k).die 3).running = true ∧ Calm (clerkAt 0 k) ∧ Claims.pcntSelPort 0xC5 := by
  refine ⟨by decide +kernel, by decide +kernel, calm_of _ (by decide +kernel), by unfold Claims.pcntSelPort; decide⟩
/-- Clerk 1 with a second epoch open in slot 1. -/
def owner2 : Clerk := { owner with slots := owner.slots.set! 1 { EpSlot.reset with state := .isOpen, gen := 6, seq := 2 } }
/-- The settle of clerk 1's epoch is on its way. -/
def settling (k : Clerk) : State := { clerkAt 1 k with msgs := [.settleClerk 0x0205] }
theorem met_ClerkSettles :
    (∃ u, Claims.Arrives (settling owner) (Claims.settleFor 1) (.settleClerk 0x0205) u ∧ Calm u ∧ (u.clerk 1).slotTag 1 0 = 0x0205 ∧
      (∀ j, j < 4 → j ≠ 0 → ((u.clerk 1).slot j).state = .free)) ∧
    (∃ u, Claims.Arrives (settling owner2) (Claims.settleFor 1) (.settleClerk 0x0205) u ∧ Calm u ∧
      ((u.clerk 1).slot 1).state ≠ .free ∧ ((settling owner2).clerk 1).parked = false) := by
  refine ⟨⟨_, arrives_of _ _ _ (by decide +kernel), calm_of _ (by decide +kernel), by decide +kernel, by decide +kernel⟩,
    ⟨_, arrives_of _ _ _ (by decide +kernel), calm_of _ (by decide +kernel), by decide +kernel, by decide +kernel⟩⟩
/-- What EOPEN saved. -/
def saved : Checkpoint := { w := sup.w, s := sup.s, a := sup.a, status := 0x600F, rpt := 0, isp := 0, excCause := 0, pc := 0x100 }
/-- Clerk 1 with one epoch, one journalled word and its recall on the way. -/
def recalled : State :=
  { clerkAt 1 { owner with slots := owner.slots.set! 0 { owner.slot 0 with chk := some saved, dReg := 3 },
                           journal := [{ tag := 0x0205, cells := [(0x7FFF, 9)] }] } with msgs := [.recallClerk 1 0x0205 15] }
theorem met_ClerkRecalls :
    ∃ u, Claims.Arrives recalled (Claims.recallFor recalled 1) (.recallClerk 1 0x0205 15) u ∧
      (recalled.clerk 1).parked = false ∧ recalled.inWait 1 = false ∧
      (let k := u.clerk 1
       k.halted = false ∧ k.dbgHalt = false ∧ k.susp = false ∧ k.slotTag 1 0 = 0x0205 ∧
        (∀ j, j < 4 → j ≠ 0 → (k.slot j).state = .free) ∧ (k.slot 0).chk = some saved ∧ (k.slot 0).lineage = false ∧ (k.slot 0).dReg ≠ 0 ∧
        (k.journal.map fun e => e.cells.map Prod.fst).Nodup ∧ (∀ e ∈ k.journal, e.tag = 0x0205 ∧ e.cells = [(0x7FFF, 9)])) :=
  ⟨_, arrives_of _ _ _ (by decide +kernel), by decide +kernel, by decide +kernel, by decide +kernel⟩
theorem test_recall_word :
    (let t := out (exec (.clerkRecall 1) recalled); ((t.clerk 1).rw 3, t.peek (privKey 1 0x7FFF), (t.clerk 1).pc)) = (0x0F00#16, 9#16, 0x100#20) := by
  decide +kernel

/-! ## Clears -/

theorem met_CountersClear :
    Reaches base 130 Reg.ERR_CTL ∧ Reaches base 128 (Reg.FL_CTL 18) ∧ Calm base ∧ (Claims.clears base (.flCtlClrcnt 130 18)).isSome ∧
      base.live = true ∧ sup.sup = true := by
  refine ⟨?_, ?_, calm_of _ (by decide), by decide, by decide, by decide⟩ <;> constructor <;> decide +kernel
theorem met_FlagsClear :
    Reaches base 129 (Reg.ICU_CTL 6) ∧ Reaches base 130 (Reg.ICU_PEND 0 7) ∧ Reaches base 130 Reg.DEVICE_DIES ∧ hasIcu 6 = true ∧ hasIcu 0 = true ∧
      16 * 7 < icuCount 0 ∧ ((clerkAt 127 sup).clerk 127).sup = true ∧ ((base.setReg (Reg.SS_POISON 6 1) 0x8000).poisoned 6 31) = true := by
  refine ⟨?_, ?_, ?_, by decide, by decide, by decide, by decide +kernel, by decide +kernel⟩ <;> constructor <;> decide +kernel

/-! ## Axes -/

/-- Axis `n` with its configuration, and pads in use. -/
def axisAt (n : Nat) (cfg : Word) (x : Axis) (pads : List Nat) : State :=
  { (base.setReg (Reg.AX_CFG n) cfg).setAxis n x with pads := pads.map fun i => (i, 0x8000) }
/-- Encoder 11 on axis 14, in TRACK, forward, one interval of 20,000 ticks measured. -/
def tracking : Axis := { Axis.reset with state := .track, int := 100, tpred := 20000, lastEdge := 990000, t0 := 990000, edges := [990000, 970000] }
def encoded (cfg : Word) (x : Axis) : State := axisAt 14 cfg x [0x161, 0x162, 0x163]
theorem met_EdgesCount_encoder :
    let s := encoded 0x1B03 tracking
    s.live = true ∧ s.padEn (0x140 + 3 * 11) = true ∧ s.padEn (0x141 + 3 * 11) = true ∧ s.axSrc 14 = 1 ∧ s.axSel 14 = 11 ∧
      Claims.filterTicks (s.reg (Reg.AX_CFG 14)) = 16 := by decide +kernel
theorem met_EdgesCount_cases :
    Claims.stepUp false false true false ∧ Claims.stepDown false false false true ∧ ¬Claims.stepUp false false true true ∧
      (false : Bool) = tracking.back := by simp only [Claims.stepDown, Claims.stepUp]; decide
theorem met_EdgesCount_mains :
    let s := axisAt 0 0x2540 { tracking with state := .acquire, lastEdge := 0 } [0x169]
    let t := { s with now := 2857200 }
    s.padEn (0x164 + 5) = true ∧ s.axSrc 0 = 2 ∧ s.axSel 0 = 5 ∧ bit (s.reg (Reg.AX_CFG 0)) 6 = true ∧ (s.axis 0).edges ≠ [] ∧
      t.now - (t.axis 0).lastEdge = 2857200 := by decide +kernel
/-- R27: A leading B counts forward, +1 at each transition; the first transition the other way counts −1 and raises REVERSE. -/
theorem test_forward : ((out (exec (.encoderTransition 11 true false 20) (encoded 0x1B00 tracking))).axis 14).int = 101 := by decide +kernel
theorem test_reverse :
    (let t := out (exec (.encoderTransition 11 false true 20) (encoded 0x1B00 tracking)); ((t.axis 14).int, t.reg (Reg.AX_DEVCAUSE 14))) =
      (99#32, 4#16) := by decide +kernel
theorem met_AxisTimeouts :
    let s := encoded 0x1B00 { tracking with live := 0x2020, edges := [960000, 940000] }
    let t := axisAt 0 0x2000 { tracking with lastEdge := 900000 } [0x164]
    (s.axSrc 14 = 1 ∧ (s.axis 14).lateDone = false ∧ field (s.axis 14).live 8 8 ≠ 0 ∧ 1 ≤ (s.axis 14).m ∧
        (s.axis 14).refEdge * 256 + (s.axis 14).m * (s.axis 14).tpred * (256 + 0x20) ≤ s.now * 256) ∧
      (let u := encoded 0x1B00 { tracking with lastEdge := 960000 }
       min (max (field (u.axis 14).live 4 4) 2 * (u.axis 14).tpred) 268000000 = u.now - (u.axis 14).lastEdge) ∧
      (t.axSrc 0 = 2 ∧ 3 * (t.axis 0).tpred ≤ 2 * (t.now - (t.axis 0).lastEdge) ∧ (t.axis 0).devSince = false) := by decide +kernel
theorem met_AxisCommands :
    Reaches base 130 (Reg.AX_CTRL 15) ∧ Reaches (encoded 0x1B00 tracking) 128 (Reg.AX_SETH 14) ∧ Reaches base 129 (Reg.AX_CFG 0) ∧
      Reaches base 130 Reg.AX_BCAST_MASK ∧ Reaches base 130 Reg.AX_BCAST_CFG := by
  refine ⟨?_, ?_, ?_, ?_, ?_⟩ <;> constructor <;> decide +kernel
theorem met_AxisCommands_cases :
    base.axState 0 = .off ∧ (encoded 0x1B00 tracking).axState 14 = .track ∧ (encoded 0x1B00 tracking).axSrc 14 ≠ 3 ∧
      0 < ((encoded 0x1B00 tracking).axis 14).tpred ∧ Claims.cfgAccepted (encoded 0x1B00 tracking) 14 0x1B00 ∧
      Claims.cfgAccepted base 0 0x3F00 ∧ ¬Claims.cfgAccepted base 15 0 ∧ ¬Claims.cfgAccepted base 0 0x1000 := by
  simp only [Claims.cfgAccepted]; decide +kernel
/-- An index on axis 14 with ZPOS 0 and a modulus of 50 counts: at 100 counts it is on it, at 110 it is 10 off. -/
def indexed (z : Word) (i : BitVec 32) : State :=
  (((encoded 0x1B00 { tracking with state := .acquire, int := i, pos := BitVec.ofNat 48 (65536 * i.toNat) }).setReg (Reg.AX_ZCFG 14) z).setReg (Reg.AX_MODL 14) 50)
theorem met_IndexEdges :
    let s := indexed 0xC009 110
    s.live = true ∧ s.padEn (0x142 + 3 * 11) = true ∧ s.axSrc 14 = 1 ∧ s.axSel 14 = 11 ∧ Claims.filterTicks (s.reg (Reg.AX_CFG 14)) ≤ 0 ∧
      0 < 65536 * s.reg2 (Reg.AX_MODL 14) (Reg.AX_MODH 14) ∧ (s.axis 14).state ≠ .track ∧ 65536 * 50 ≤ (s.axPos 14).toNat ∧
      field (s.reg (Reg.AX_ZCFG 14)) 14 2 = 3 ∧ field ((indexed 0x8009 110).reg (Reg.AX_ZCFG 14)) 14 2 = 2 := by decide +kernel
theorem test_correct_index :
    (let t := out (exec (.indexEdge 11 0) (indexed 0xC009 110)); ((t.axPos 14).toNat % (50 * 65536), t.reg (Reg.AX_DEVCAUSE 14))) = (0, 6#16) := by
  decide +kernel
theorem test_check_within_tolerance :
    ((out (exec (.indexEdge 11 0) (indexed 0x800A 110))).reg (Reg.AX_DEVSEQ 14)) = 0 := by decide +kernel
/-- A broadcast of axis 2 for die 3, with BSEQ `n` in lane 7. -/
def bcast3 (n : Word) : Msg := .bcast 3 2 ⟨0, 100, 0, 2, 0, 0, 0, n⟩
/-- That broadcast on its way to the die's replica `r`. -/
def broadcast (n : Word) (r : Replica) : State := { base.setReplica 3 2 r with msgs := [bcast3 n] }
def toDie3 (m : Msg) : Bool := match m with | .bcast e a _ => e == (3 : DieId).val && a == (2 : AxisId).val | _ => false
/-- The replica has BSEQ FFFFh and 0 comes; 0 and 8000h comes, half the numbers on; it is STALE and the second in a row comes. -/
theorem met_Broadcasts :
    let s := base.setReg Reg.AX_BCAST_CFG 0x8000
    let newer := broadcast 0 { Replica.reset with fresh := false, stale := false, seq := 0xFFFF }
    let older := broadcast 0x8000 { Replica.reset with fresh := false, seq := 0 }
    let again := broadcast 8 { Replica.reset with fresh := false, seq := 7, run := 1 }
    (s.live = true ∧ bit (s.reg Reg.AX_BCAST_CFG) 15 = true ∧ s.bePause = none ∧ s.inService 7 = true ∧ s.paused = false ∧ s.bcLast = none ∧
        base.undeliverable 7 3 = none) ∧
      (Claims.Arrives newer toDie3 (bcast3 0) (got newer toDie3 (bcast3 0)) ∧ newer.live = true ∧
        (let r := (got newer toDie3 (bcast3 0)).replica 3 2
         (0 : Word) ≠ BitVec.ofNat 16 r.seq ∧ ((0 : Word) - BitVec.ofNat 16 r.seq).toNat < 5 ∧ r.stale = false ∧
           field (2 : Word) 8 8 = ((got newer toDie3 (bcast3 0)).die 3).bepoch)) ∧
      (Claims.Arrives older toDie3 (bcast3 0x8000) (got older toDie3 (bcast3 0x8000)) ∧
        (let r := (got older toDie3 (bcast3 0x8000)).replica 3 2
         r.fresh = false ∧ ¬((0x8000 : Word) - BitVec.ofNat 16 r.seq).toNat < 0x8000)) ∧
      (Claims.Arrives again toDie3 (bcast3 8) (got again toDie3 (bcast3 8)) ∧
        (let r := (got again toDie3 (bcast3 8)).replica 3 2
         r.stale = true ∧ r.fresh = false ∧ r.run = 1 ∧ (8 : Word) = BitVec.ofNat 16 r.seq + 1)) := by
  refine ⟨by decide +kernel, ⟨arrives_of _ _ _ (by decide +kernel), by decide +kernel, by decide +kernel⟩,
    ⟨arrives_of _ _ _ (by decide +kernel), by decide +kernel⟩, ⟨arrives_of _ _ _ (by decide +kernel), by decide +kernel⟩⟩
theorem met_Broadcasts_stale :
    let s := base.setReplica 3 2 { Replica.reset with stale := false, lastUs := 4996 }
    (s.replica 3 2).stale = false ∧ s.refUs - (s.replica 3 2).lastUs = 4 := by decide +kernel
theorem met_Broadcasts_epochs :
    let s := { (base.setReg Reg.AX_BEPOCH 255) with msgs := [.bepoch 6 255], bePause := some 960000 }
    let p : Msg → Bool := fun m => match m with | .bepoch x _ => x == (6 : DieId).val | _ => false
    (Claims.Arrives s p (.bepoch 6 255) (got s p (.bepoch 6 255)) ∧ (255 : Nat) = ((got s p (.bepoch 6 255)).reg Reg.AX_BEPOCH).toNat ∧
      (∀ f, f < 8 → f ≠ 6 → ((got s p (.bepoch 6 255)).die f).bePend = false)) ∧
    960000 + 40000 ≤ s.now ∧ Calm s ∧ (∀ d, d < 8 → (s.die d).bePend = false) ∧ s.fallback 6 true = [] ∧ s.inService 6 = true := by
  refine ⟨⟨arrives_of _ _ _ (by decide +kernel), by decide +kernel, by decide +kernel⟩, by decide, calm_of _ (by decide), by decide +kernel,
    by decide +kernel, by decide +kernel⟩
/-! ## The epoch table and the mailbags -/

/-- Clerk 1 holds the epoch 0205h, whose registration is on its way, planned when DEVSEQ of axis 2 stood at `q`. -/
def registering (q : Word) : State :=
  { (clerkAt 1 owner).setReg (Reg.AX_DEVSEQ 2) 1 with msgs := [.registration 0x0205 0x640000#48 2 q] }
/-- Is it a registration of clerk 1's? -/
def regOf1 (m : Msg) : Bool := match m with | .registration x _ _ _ => decide (x.toNat / 512 = (1 : Fin 128).val) | _ => false
def regMsg (q : Word) : Msg := .registration 0x0205 0x640000#48 2 q
theorem met_Registrations :
    let u := got (registering 0) regOf1 (regMsg 0)
    let v := got (registering 1) regOf1 (regMsg 1)
    Claims.Arrives (registering 0) regOf1 (regMsg 0) u ∧ Claims.Arrives (registering 1) regOf1 (regMsg 1) v ∧ Claims.arrives u 1 0x0205 ∧
      (let a := u.reg (Reg.AX_DEVSEQ 2) - 0; 0 < a.toNat ∧ a.toNat < 0x8000) ∧ v.reg (Reg.AX_DEVSEQ 2) - 1 = 0 ∧ (v.axis 2).devSince = false ∧
      (∀ e, u.epochs.find? e = none) := by
  refine ⟨arrives_of _ _ _ (by decide +kernel), arrives_of _ _ _ (by decide +kernel), by unfold Claims.arrives; decide +kernel, by decide +kernel,
    by decide +kernel, by decide +kernel, fun e => by rw [show (got (registering 0) regOf1 (regMsg 0)).epochs = [] by decide +kernel]; rfl⟩
theorem test_registration_too_old : Msg.recallClerk 1 0x0205 2 ∈ (out (exec (.epochRegistration 1) (registering 0))).msgs := by decide +kernel
/-- A lineage epoch of clerk 1 whose parent, epoch 0105h of clerk 0, has settled, is open, or was recalled. -/
def inheriting (r : EpRow) : State := { (clerkAt 1 owner).setEpRow 0 2 r with msgs := [.lineage 0x0205 0x0105] }
def parentRow (k : Fin 3) : EpRow :=
  match k with
  | 0 => { EpRow.reset with lastGen := 5, lastSettled := true }
  | 1 => { EpRow.reset with state := .isOpen, gen := 5 }
  | 2 => { EpRow.reset with lastGen := 5 }
def lineage1 (s : State) (m : Msg) : Bool :=
  match m with
  | .lineage x p => decide (x.toNat / 512 = (1 : Fin 128).val) && !(s.msgs.any fun o => match o with
      | .registration y _ _ _ => y == p
      | .lineage y _ => y == p
      | _ => false)
  | _ => false
def inherited (k : Fin 3) : State := got (inheriting (parentRow k)) (lineage1 (inheriting (parentRow k))) (.lineage 0x0205 0x0105)
theorem met_Registrations_lineage :
    (∀ k, Claims.Arrives (inheriting (parentRow k)) (lineage1 (inheriting (parentRow k))) (.lineage 0x0205 0x0105) (inherited k)) ∧
      Claims.arrives (inherited 0) 1 0x0205 ∧ Claims.arrives (inherited 1) 1 0x0205 ∧ Claims.arrives (inherited 2) 1 0x0205 ∧
      Claims.committed (inherited 0) 0x0105 ∧ Claims.open_ (inherited 1) 0x0105 ∧ ¬Claims.committed (inherited 2) 0x0105 ∧
      ¬Claims.open_ (inherited 2) 0x0105 := by
  refine ⟨fun k => arrives_of _ _ _ (by revert k; decide +kernel), by unfold Claims.arrives; decide +kernel, by unfold Claims.arrives; decide +kernel,
    by unfold Claims.arrives; decide +kernel, ?_, ?_, ?_, ?_⟩ <;> simp only [Claims.committed, Claims.open_, Claims.undecided] <;> decide +kernel
/-- Rows of clerk 0: an older and a younger epoch, both on axis 2 at position 0. -/
def rows (a b : EpState) (m : Pos) : State :=
  (base.setEpRow 0 0 { EpRow.reset with state := a, gen := 127, seq := 1, axis := 2, mark := m }).setEpRow 0 3
    { EpRow.reset with state := b, gen := 1, seq := 2, axis := 2, mark := m }
theorem met_Decisions :
    let s := rows .isOpen .isOpen 0
    let late := rows .isOpen .isOpen 1
    (s.epRow 0 0).state = .isOpen ∧ (s.axPos 2 - (s.epRow 0 0).mark).toNat < 2 ^ 47 ∧ (s.epRow 0 0).seq < (s.epRow 0 3).seq ∧
      (∀ j, j < 4 → (s.epRow 0 j).state = .isOpen → ¬(s.epRow 0 j).seq < (s.epRow 0 0).seq) ∧ (s.epRow 0 0).gen = 127 ∧
      ¬(late.axPos 2 - (late.epRow 0 0).mark).toNat < 2 ^ 47 ∧ ((rows .free .ending 0).epRow 0 3).state = .ending ∧
      Claims.tagOf 0 0 127 = 0x007F := by decide +kernel
/-- A RECALL of epoch 007Fh of clerk 0 has come to DISPATCH. -/
def recallSent (a : EpState) : State := { rows a .held 0 with msgs := [.recallReq 0x007F] }
def isRecall (m : Msg) : Bool :=
  match m with
  | .recallReq _ => true
  | .recallHalt _ => true
  | .recallDie _ => true
  | .recallDrain _ => true
  | _ => false
theorem met_Decisions_recall :
    Reaches (rows .isOpen .held 0) 130 Reg.EPOCH_RECALL ∧ Calm (rows .isOpen .held 0) ∧
      (let u := got (recallSent .isOpen) isRecall (.recallReq 0x007F)
       Claims.Arrives (recallSent .isOpen) isRecall (.recallReq 0x007F) u ∧ u.clerks = [] ∧ (u.epRow 0 0).gen = 127 ∧
         Claims.tagOf 0 0 (u.epRow 0 0).gen = 0x007F ∧ Claims.undecided (u.epRow 0 0)) ∧
      (let u := got (recallSent .ending) isRecall (.recallReq 0x007F)
       Claims.Arrives (recallSent .ending) isRecall (.recallReq 0x007F) u ∧ u.clerks = [] ∧ (u.epRow 0 0).gen = 127 ∧
         ¬Claims.undecided (u.epRow 0 0)) := by
  refine ⟨?_, calm_of _ (by decide), ⟨arrives_of _ _ _ (by decide +kernel), by decide +kernel, by decide +kernel, by decide +kernel, ?_⟩,
    ⟨arrives_of _ _ _ (by decide +kernel), by decide +kernel, by decide +kernel, ?_⟩⟩
  · constructor <;> decide +kernel
  · unfold Claims.undecided; decide +kernel
  · unfold Claims.undecided; decide +kernel
theorem test_settle_in_order :
    ((out (exec (.epochSettle 0 3) (rows .isOpen .isOpen 0))).epRow 0 3).state = .held ∧
      ((out (exec (.epochSettle 0 0) (rows .isOpen .isOpen 0))).epRow 0 0).state = .ending := by decide +kernel
theorem met_EngineParcels :
    let s := { base.setBag 0x180 { bagOf (draft 0) with retained := [{ item := ordinary Sheet.zero, popper := 0x0205 }] } with
      msgs := [.settleMbe 3 0x0205, .recallMbe 6 [0x0205]] }
    let p : Msg → Bool := fun m => match m with | .settleMbe e _ => e == (3 : DieId).val | _ => false
    let q : Msg → Bool := fun m => match m with | .recallMbe e _ => e == (6 : DieId).val | _ => false
    (Claims.Arrives s p (.settleMbe 3 0x0205) (got s p (.settleMbe 3 0x0205)) ∧ (got s p (.settleMbe 3 0x0205)).clerks = []) ∧
      (Claims.Arrives s q (.recallMbe 6 [0x0205]) (got s q (.recallMbe 6 [0x0205])) ∧ (got s q (.recallMbe 6 [0x0205])).clerks = [] ∧
        (0 : Word) ∉ [(0x0205 : Word)] ∧ ((got s q (.recallMbe 6 [0x0205])).bag 0x180).spill = []) := by
  refine ⟨⟨arrives_of _ _ _ (by decide +kernel), by decide +kernel⟩, arrives_of _ _ _ (by decide +kernel), by decide +kernel, by decide,
    by decide +kernel⟩
theorem test_settle_makes_ordinary :
    let s := { base.setBag 0x180 (bagOf (draft 2)) with msgs := [.settleMbe 3 0x0205] }
    (((out (exec (.settleParcelMbe 3) s)).bag 0x180).head.map fun x => (x.tag, x.depth)) = [(0, 0)] := by decide +kernel

/-! ## Mailbags -/

/-- Mailbag 180h, enabled, with these sheets. -/
def bag180 (b : Bag) : State := (base.setReg (Reg.MB_CFG 0x180) 0x8000).setBag 0x180 b
/-- An ordinary sheet. -/
def page (n : Word) : BagItem := ordinary ⟨n, 0, 0, 0, 0, 0, 0, 0⟩
/-- A push to mailbag 180h on its way. -/
def pushing (s : State) : State := { s with msgs := [.push 0 0x180 (page 5)] }
/-- Pages 0 and on. -/
def pages (n : Nat) : List BagItem := (List.range n).map fun i => page (word i)
def to180 (m : Msg) : Bool := match m with | .push _ b _ => b == (0x180 : Fin 1024).val | _ => false
def pushed180 (s : State) : State := got (pushing s) to180 (.push 0 0x180 (page 5))
/-- A mailbag with room for one more sheet; one that is full, and one that is disabled; one whose tail is full, and one that another
push waits for. -/
theorem met_Arrivals :
    let room := bag180 { Bag.reset with head := pages 8, tail := pages 7 }
    let full := bag180 { Bag.reset with head := pages 8, tail := pages 8 }
    let late := bag180 { Bag.reset with tail := pages 8 }
    let next := { bag180 Bag.reset with arrivals := [(3, [(0x180, page 6)])] }
    (∀ s ∈ [room, full, late, next], Claims.Arrives (pushing s) to180 (.push 0 0x180 (page 5)) (pushed180 s) ∧
      (pushing s).live = true ∧ (pushed180 s).live = true ∧ (page 5).tag = 0 ∧ ((pushing s).arrivalsOf 3).length < 32 ∧
      (pushed180 s).clerks = [] ∧ ((pushed180 s).arrivalsOf 3).length < 32) ∧
    (let u := pushed180 room; (u.bag 0x180).held + 1 = u.bagCap 0x180 ∧ u.arrivalsOf 3 = [] ∧ (u.bag 0x180).tail.length + u.savedTail 0x180 < 8 ∧
      bit (u.reg (Reg.MB_CFG 0x180)) 15 = true) ∧
    (let u := pushed180 full; ¬(u.bag 0x180).held < u.bagCap 0x180) ∧ bit (base.reg (Reg.MB_CFG 0x180)) 15 = false ∧
    (let u := pushed180 late; 8 ≤ (u.bag 0x180).tail.length ∧ (u.bag 0x180).held < u.bagCap 0x180) ∧
    (pushed180 next).arrivalsOf 3 = [(0x180, page 6)] := by
  refine ⟨?_, by decide +kernel, by decide +kernel, by decide +kernel, by decide +kernel, by decide +kernel⟩
  intro s hs
  refine ⟨arrives_of _ _ _ ?_, ?_⟩ <;> revert s <;> decide +kernel
theorem met_Arrivals_drains :
    let d := { bag180 Bag.reset with arrivals := [(3, [(0x180, page 5)])] }
    d.live = true ∧ d.clerks = [] ∧ d.arrivalsOf 3 = [(0x180, page 5)] ∧ (page 5).flips = 0 ∧ (d.bag 0x180).held < d.bagCap 0x180 ∧
      (d.bag 0x180).tail.length + d.savedTail 0x180 < 8 ∧ bit (d.reg (Reg.MB_CFG 0x180)) 15 = true := by decide +kernel
theorem test_full_bag_drops :
    (out (exec (.mailbagPush 0x180 0) (pushing (base.setBag 0x180 Bag.reset)))).reg (Reg.MB_FULLDROP 0x180) = 1 := by decide +kernel
/-- Mailbag 5 of HUB with one sheet. -/
def bag5 : State := (base.setReg (Reg.MB_CFG 5) 0x8000).setBag 5 (bagOf (page 5))
theorem met_BagCommands_pop :
    Reaches bag5 130 (Reg.MB_DATA 5 0) ∧ Calm bag5 ∧ bag5.popSlot 5 = none ∧ (bag5.bag 5).head = [page 5] ∧ (bag5.clerk 130).ep = false ∧
      Reaches bag5 129 (Reg.MB_CTL 5) := by
  refine ⟨?_, calm_of _ (by decide), by decide +kernel, by decide +kernel, by decide +kernel, ?_⟩ <;> constructor <;> decide +kernel
/-- A spill region of two blocks at the first granule of DDR5. -/
def spilling (b : Bag) : State := ((bag180 b).setReg (Reg.MB_SPLENL 0x180) 2)
theorem met_BagCommands_spill :
    let s := spilling { Bag.reset with head := (List.range 8).map fun i => page (word i), tail := [page 1, page 2, page 3] }
    Claims.spills s 0x180 ∧ (s.bag 0x180).spill.length < s.spLen 0x180 ∧ 8 ≤ (s.bag 0x180).head.length ∧ s.clerks = [] := by
  refine ⟨⟨by decide +kernel, by decide +kernel, by decide +kernel⟩, by decide +kernel⟩
theorem met_BagCommands_spill_waits :
    ((spilling Bag.reset).setReg (routeKey 0 3) 0x8000).paused = false ∧
      ((spilling Bag.reset).setReg (routeKey 0 3) 0x8000).hasStamp 0 (field ((spilling Bag.reset).reg (Reg.MB_CFG 0x180)) 0 8) 1 = false := by
  decide +kernel
/-- A block of one sheet in the ring. -/
def oneBlock : State := spilling { Bag.reset with spill := [{ idx := 1, marks := [Claims.markOf (page 5)] }] }
def spilled : State := oneBlock.pokes (ddrKey 32) (blockWords [page 5] 1)
/-- The words of the block lie in DDR5, whatever its check bits are. -/
theorem met_BagCommands_block : spilled.peeks (ddrKey 32) 32 = blockWords [page 5] 1 := by
  have l : (blockWords [page 5] 1).length = 32 := by decide +kernel
  have h := State.peeks_pokes oneBlock (blockWords [page 5] 1) (ddrKey 32)
  rw [l] at h
  exact h
theorem met_BagCommands_return :
    (oneBlock.bag 0x180).head.length ≤ 5 ∧ oneBlock.blockAddr 0x180 1 = 32 ∧ oneBlock.ddrUe 32 32 = false ∧
      (oneBlock.bag 0x180).spill.length = 1 ∧ ([page 5].map Claims.markOf).length < 4 := by decide +kernel

/-! ## DDR5 -/

/-- One channel of memory, operational, in SERVICE or READY. -/
def memory (mode : Word) : State :=
  ((((base.setReg Reg.DEVICE_MODE mode).setReg Reg.DDR_CFG 1).setReg Reg.DDR_CAPL 0x1000).setReg (Reg.DDR_CHSTAT 0) 2)
theorem met_DdrCommands :
    let s := memory 3
    s.live = true ∧ 32 * 0 < s.ddrCap ∧ s.ddrState (s.ddrLocal 0).1 = 2 ∧ 0 ∉ s.ddrBad ∧ (0 : Nat) < s.ddrChans ∧
      s.scrubAt.getD 0 0 + 1 < s.chanWords / 32 ∧ s.ddrCap ≤ 32 * 0x1FFFFFFFF ∧
      (let t := { s with scrubAt := [(0, s.chanWords / 32 - 1)] }; t.scrubAt.getD 0 0 + 1 = t.chanWords / 32) := by decide +kernel
/-- A row of channel 0 whose repair is due. -/
def worn : DdrRow := { sub := 1, rank := 1, bg := 7, bank := 3, row := 0x2FFFF, marks := [] }
def repairDue : State := { memory 3 with msgs := [.ppr 63], ddrRows := [(63, worn)] }
theorem met_DdrCommands_repair :
    let p : Msg → Bool := fun m => match m with | .ppr x => x / 64 == (0 : Fin 4).val | _ => false
    let u := got repairDue p (.ppr 63)
    repairDue.live = true ∧ Claims.Arrives repairDue p (.ppr (64 * 0 + 63)) u ∧ u.ddrRows.find? (64 * 0 + 63) = some worn ∧
      bit (u.reg (Reg.DDR_PPRLOG 0 (2 * 0))) 15 = false ∧
      (let t := (memory 7).setReg (Reg.DDR_PPRLOG 3 14) 0x8000
       t.mode = 7 ∧ bit (t.reg (Reg.DDR_PPRLOG (field (0x801F : Word) 3 2) (2 * field (0x801F : Word) 0 3))) 15 = true) :=
  ⟨by decide +kernel, arrives_of _ _ _ (by decide +kernel), by decide +kernel, by decide +kernel, by decide +kernel⟩
theorem met_DdrCommands_hppr : Reaches (memory 7) 130 Reg.DDR_HPPR ∧ Calm (memory 7) ∧ bit (0x8000 : Word) 15 = true ∧
    bit ((base.setReg (Reg.PWR_ON 3) 0x0010).reg (Reg.PWR_ON 3)) (3 + (1 : Fin 2).val) = true := by
  refine ⟨?_, calm_of _ (by decide), by decide, by decide +kernel⟩
  constructor <;> decide +kernel
theorem test_corrected_read_counts :
    (let t := out (exec (.ddrBurstRead 0 (.corrected 31)) (memory 3)); (t.reg (Reg.DDR_CE 0), field (t.reg (Reg.DDR_ERRA0 0)) 0 5)) = (1#16, 31) := by
  decide +kernel

/-! ## The outbox and the firing engine -/

/-- An entry for channel 63 on AX15, with a mark, a lateness limit of its own, and lane 7. -/
def entryOf (l0 m : Word) (tag : Word) : Sheet := ⟨l0, 0, m, 0, 63, 1, 0, tag⟩
/-- Channel 63 direct and enabled, and clerk 0's route allowed to fire it. -/
def firing (o : Outbox) : State :=
  { ((((base.setReg (Reg.CH_CFG 63) 0x8000).setReg (Reg.PR_CFG 0) 0xC000).setReg (Reg.PR_LAST 0) 63)) with outbox := o }
/-- The entry of clerk 0 has come to the outbox: the state then, and once its credit has returned. -/
def carried (s : State) (e : Sheet) : State := ({ s with msgs := [.entry 0 e] }.nextIn isEntry).2
def taken (s : State) (e : Sheet) : State := (carried s e).takeOut (.entry 0 e)
/-- An epoch of clerk 0 is open. -/
def planned (o : Outbox) : State := (firing o).setEpRow 0 1 { EpRow.reset with state := .isOpen, gen := 127 }
/-- The die is full, the spill on with one block of room. -/
def fullDie (o : Outbox) : State :=
  ((planned { o with lists := [(30, List.replicate 4096 { e := entryOf 0xF000 9 0, tag := 0, late := false })] }).setReg Reg.OB_CFG 0x8000).setReg
    Reg.OB_SPLEN 1
theorem met_OutboxTakes :
    let e := entryOf 0xF000 9 0
    let u := taken (firing Outbox.reset) e
    ({ firing Outbox.reset with msgs := [.entry 0 e] }.nextIn isEntry = (some (.entry 0 e), carried (firing Outbox.reset) e)) ∧
    Claims.takes u ∧ Claims.wellMade u e ∧ u.permitted 0 4 e.l4.toNat = true ∧ Claims.onDie u ∧ u.outbox.count < 4095 ∧ Claims.committed u e.l7 ∧
      field (entryOf 0xF700 9 0).l0 8 3 ≠ 0 ∧
      (taken (base.setReg (Reg.CH_CFG 63) 0x8000) e).permitted 0 4 63 = false := by
  refine ⟨Prod.ext (by decide +kernel) rfl, Or.inl (by unfold Claims.onDie; decide +kernel), by unfold Claims.wellMade; decide +kernel, by decide +kernel,
    by unfold Claims.onDie; decide +kernel, by decide +kernel, .inl rfl, by decide, by decide +kernel⟩
theorem met_OutboxTakes_epochs :
    let u := taken (planned Outbox.reset) (entryOf 0xF000 9 0x00FF)
    let w := taken (planned Outbox.reset) (entryOf 0xF000 9 0x0081)
    Claims.open_ u 0x00FF ∧ ¬Claims.open_ w 0x0081 ∧ ¬Claims.committed w 0x0081 := by
  simp only [Claims.open_, Claims.committed, Claims.undecided]; decide +kernel
theorem met_OutboxTakes_full :
    let u := taken (fullDie Outbox.reset) (entryOf 0xF000 9 0)
    let w := taken (fullDie { Outbox.reset with verdicts := (List.range 1024).map fun i => { tag := word (i + 1), settled := true, count := 1 } }) (entryOf 0xF000 9 0x00FF)
    u.outbox.count = 4096 ∧ bit ((u.setReg Reg.OB_CFG 0).reg Reg.OB_CFG) 15 = false ∧ Claims.spillRoom u ∧ u.outbox.hold = none ∧
      Claims.committed u 0 ∧ u.outbox.wbuf.length < 3 ∧ Claims.spillRoom w ∧ w.outbox.hold = none ∧ Claims.open_ w 0x00FF ∧
      1024 ≤ w.outbox.verdicts.length ∧ w.outbox.spill = [] ∧ w.outbox.wbuf = [] := by
  simp only [Claims.spillRoom, Claims.committed, Claims.open_, Claims.undecided]; decide +kernel
theorem met_OutboxTakes_push :
    Reaches (firing Outbox.reset) 130 (Reg.OB_PUSH 7) ∧ Reaches (firing Outbox.reset) 128 Reg.OB_PURGE ∧ Calm (firing Outbox.reset) ∧
      (firing Outbox.reset).outbox.pushes = [] ∧ (firing Outbox.reset).outbox.hold = none ∧ Claims.takes (firing Outbox.reset) ∧
      Claims.onDie (firing Outbox.reset) ∧
      (let s := (((firing Outbox.reset).putStage 130 (Reg.OB_PUSH 0) 0xF000).putStage 130 (Reg.OB_PUSH 4) 63).putStage 130 (Reg.OB_PUSH 5) 1
       Claims.wellMade s (Claims.pushed s 130 0)) := by
  refine ⟨?_, ?_, calm_of _ (by decide), by decide, by decide, Or.inl (by unfold Claims.onDie; decide +kernel), by unfold Claims.onDie; decide +kernel,
    by unfold Claims.wellMade; decide +kernel⟩ <;> constructor <;> decide +kernel
/-- One entry listed on AX15, forward, and the channel ACTIVE; the tick to come stands at 5,000.33 µs. -/
def listed (l0 m : Word) : State :=
  { firing { Outbox.reset with lists := [(30, [{ e := entryOf l0 m 0, tag := 0, late := false }])] } with
    chans := [(63, { Chan.reset with state := .active })] }
theorem met_OutboxReleases :
    let s := listed 0xF001 4999
    let l := fun (m : Word) => (BitVec.ofNat 48 ((s.now + 1) / 200 * 65536 + (s.now + 1) % 200 * 65536 / 200) - entryMark (entryOf 0xF001 m 0)).toNat
    s.phase = .awake ∧ s.dispatchIsOut = false ∧ s.sleep = none ∧ s.outbox.pushes = [] ∧ markAxis (0xF001 : Word) = 15 ∧ markBack (0xF001 : Word) = false ∧
      l 5000 < 65536 ∧ 65536 * markLate (0xF001 : Word) < l 4999 ∧ 2 ^ 47 ≤ l 5001 ∧ s.chMode 63 = 0 ∧ (s.chan 63).state = .active := by
  decide +kernel
theorem test_outbox_releases : ((out (exec .outboxTick (listed 0xF001 5000))).chan 63).driving = true := by decide +kernel
theorem test_outbox_drops_stale :
    (let t := out (exec .outboxTick (listed 0xF001 4998)); (t.reg Reg.OB_STALE, t.outbox.count)) = (1#16, 0) := by decide +kernel
theorem met_OutboxSpills :
    let x : ObEntry := { e := entryOf 0xF000 9 0, tag := 0, late := false }
    let o := { Outbox.reset with wbuf := [x], wbufAt := 999800 }
    let s := (firing o).setReg Reg.OB_SPLEN 1
    s.hasStamp 0 (field (s.reg Reg.OB_CFG) 0 8) 1 = true ∧ o.wbufAt + 200 ≤ s.now ∧ o.wbuf ≠ [] ∧ o.spill.length < s.obSpLen ∧
      { firing o with now := 999999 }.now < o.wbufAt + 200 := by decide +kernel
theorem met_OutboxSpills_return :
    let x : ObEntry := { e := entryOf 0xF000 9 0, tag := 0, late := false }
    let s := (firing { Outbox.reset with spill := [[{ tag := 0, axis := 15, purged := false }]] }).pokes (ddrKey 0) (obBlockWords [x])
    s.outbox.count + 512 ≤ 4096 ∧ s.peeks (ddrKey (s.obBlockAddr 0)) 32 = obBlockWords [x] ∧ x.e.l4 ≠ 0xFFFF ∧
      s.ddrUe (s.obBlockAddr 0) 32 = false := by decide +kernel
/-- Safe inputs as filtered, watched. -/
def inputs (a b : Bool) : State := { base with fe := { FireEng.reset with aLow := a, bLow := b, watching := true, diffAt := some 0 } }
theorem met_FiringSafety_inputs :
    (inputs false false).fe.watching = true ∧ (inputs false true).fe.bLow = true ∧ (inputs true false).fe.aLow = true ∧
      (let u := (inputs true false).setReg Reg.FE_DISCT 1
       200000 * max (field (u.reg Reg.FE_DISCT) 0 8) 1 < u.now - 0 ∧ u.now - 800000 ≤ 200000 * max (field (u.reg Reg.FE_DISCT) 0 8) 1) := by decide +kernel
theorem met_FiringSafety_rearm :
    Reaches (inputs false false) 130 Reg.FE_CTL ∧ Calm base ∧ bit (base.reg Reg.FE_STAT) 14 = false ∧ base.mode ≠ 7 ∧ base.dispatchIsOut = false ∧
      bit ((base.setReg Reg.FE_STAT 0x4000).reg Reg.FE_STAT) 14 = true := by
  refine ⟨?_, calm_of _ (by decide), by decide +kernel, by decide +kernel, by decide +kernel, by decide +kernel⟩
  constructor <;> decide +kernel
theorem test_safe_input_forces :
    ((out (exec (.safeInputFall (true, 100)) { inputs false false with chans := [(63, { Chan.reset with state := .active })] })).chan 63).state = .safe := by
  decide +kernel
/-- The refresh round of 10 µs on AX15, of which the 500th has begun. -/
def refreshing (done : Nat) : State := { base.setReg Reg.FE_RNDCFG 0xF000 with fe := { FireEng.reset with rndMax := done } }
theorem met_FiringSafety_rounds :
    let s := refreshing 499
    s.axRounds 15 = true ∧ (s.axPos 15).toNat / 65536 / s.refreshLen = 500 ∧ 500 < (2 ^ 32 + s.refreshLen - 1) / s.refreshLen ∧
      3 ≤ (2 ^ 32 + s.refreshLen - 1) / s.refreshLen ∧ s.live = true ∧ (refreshing 500).fe.rndMax = 500 := by decide +kernel
theorem met_FiringSafety_config :
    let s := { base with pads := [(0x13F, 0x8000)] }
    Reaches s 130 (Reg.CH_CFG 63) ∧ field (0x8000 : Word) 12 3 = 0 ∧ field (0x8000 : Word) 9 2 ≠ 3 ∧ bit (s.reg (Reg.CH_CFG 63)) 15 = false ∧
      s.padEn (0x100 + 63) = true ∧ s.padHold.testBit 1 = false ∧ s.fe.aLow = false ∧ s.dispatchIsOut = false ∧ s.mode ≠ 7 ∧ 4 < field (0x5000 : Word) 12 3 ∧
      s.axSrc (field (0x1000 : Word) 4 4) ≠ 2 := by
  refine ⟨?_, by decide, by decide, by decide +kernel, by decide +kernel, by decide +kernel, by decide +kernel, by decide +kernel, by decide +kernel, by decide, by decide +kernel⟩
  constructor <;> decide +kernel
/-- Channel 0 in a mode, ACTIVE, its axis 0 on mains in TRACK at half-cycle 0 plus `b` of 65,536. -/
def modal (cfg p0 p1 act : Word) (c : Chan) (b : BitVec 16) : State :=
  { ((axisAt 0 0x2000 { Axis.reset with state := .track, tpred := 65536, t0 := 1000000 - b.toNat } [0x164]).setReg (Reg.CH_CFG 0) cfg |>.setReg (Reg.CH_P0 0) p0
      |>.setReg (Reg.CH_P1 0) p1 |>.setReg (Reg.CH_ACT0 0) act) with chans := [(0, { c with state := .active })] }
theorem met_FiringModes :
    let pwm := modal 0xB000 2 0 0xFFFF Chan.reset 0
    let later := modal 0xB000 2 0 0 { Chan.reset with pwmNext := some 5001 } 0
    let pulse := modal 0xC000 0 0 0 { Chan.reset with endAt := some 1000000 } 0
    let pwmEnd := modal 0xB000 2 0 0 { Chan.reset with endAt := some 1000000 } 0
    let gate := modal 0xA000 0 0 0 { Chan.reset with endAt := some 1000000 } 0
    (Claims.runs pwm 0 3 ∧ pwm.now / 200 % 2 ^ 32 % 2 = 0 ∧ (pwm.chan 0).pwmNext = none) ∧
      (Claims.runs later 0 3 ∧ (later.chan 0).pwmNext = some 5001 ∧ later.refUs < 5001) ∧
      (Claims.runs pulse 0 4 ∧ (pulse.chan 0).endAt = some pulse.now) ∧ Claims.runs pwmEnd 0 3 ∧ Claims.runs gate 0 2 ∧
      (Claims.runs { pulse with now := 999999 } 0 4 ∧ { pulse with now := 999999 }.now < 1000000) := by
  simp only [Claims.runs]; decide +kernel
/-- BURST: the unit in progress is decided, late; the next one is, LEAD before it; the point has passed already. -/
theorem met_FiringModes_burst :
    let late := modal 0x9000 1 0 0xFFFF { Chan.reset with acc := 1, point := some 9 } 0
    let ahead := modal 0x9000 1 1 0xFFFF { Chan.reset with point := some 0 } 0xFFFF
    let past := modal 0x9000 1 0 0xFFFF { Chan.reset with point := some 0 } 0
    (Claims.runs late 0 1 ∧ late.axState (field (late.reg (Reg.CH_CFG 0)) 4 4) = .track ∧
        Claims.governs (late.chan 0) (((late.axPos 0).toNat + 0) % 2 ^ 48 / 65536) (some (0, 0xFFFF)) = some (0, 0xFFFF) ∧
        (late.chan 0).unit = none ∧ (late.axPos 0).toNat / 65536 = 0 ∧ (late.chan 0).begun = none ∧ 65536 ≤ (late.chan 0).acc + 0xFFFF) ∧
      (((ahead.axPos 0).toNat + 1) % 2 ^ 48 / 65536 = 1 ∧ (ahead.axPos 0).toNat / 65536 = 0 ∧
        Claims.governs (ahead.chan 0) 1 (some (1, 0xFFFF)) = some (1, 0xFFFF)) ∧
      Claims.governs (past.chan 0) 0 (some (0, 0xFFFF)) = none := by
  simp only [Claims.runs]; decide +kernel
/-- PHASE: turned on at the point; before its delay; in a half-cycle that began outside TRACK; ended by the guard. -/
theorem met_FiringModes_phase :
    let on := modal 0xA000 0 0 0 { Chan.reset with begun := some (0, true), point := some 9 } 128
    let wait := modal 0xA000 0 0 300 { Chan.reset with begun := some (0, true), point := some 9 } 200
    let lost := modal 0xA000 0 0 0 { Chan.reset with begun := some (0, false) } 128
    let guard := modal 0xA000 0 0x8000 0 { Chan.reset with driving := true } 0
    (Claims.runs on 0 2 ∧ on.axState 0 = .track ∧ (on.axPos 0).toNat = 128 ∧ (on.chan 0).begun = some (0, true) ∧ (on.chan 0).unit ≠ some 0 ∧
        Claims.governs (on.chan 0) ((128 + (2 ^ 48 - 128)) % 2 ^ 48 / 32768) (some (0, 0)) = some (0, 0)) ∧
      ((wait.axPos 0).toNat = 200 ∧ 200 < max 300 128 ∧
        Claims.governs (wait.chan 0) ((200 + (2 ^ 48 - 128)) % 2 ^ 48 / 32768) (some (0, 300)) = some (0, 300)) ∧
      (Claims.runs lost 0 2 ∧ (lost.chan 0).begun = some ((lost.axPos 0).toNat / 32768, false) ∧ (lost.chan 0).point = none ∧
        128 ≤ (lost.axPos 0).toNat % 32768) ∧
      (Claims.runs guard 0 2 ∧ (guard.chan 0).driving = true ∧ (guard.chan 0).endAt = none ∧ 32768 ≤ (guard.axPos 0).toNat % 32768 + 0x8000) := by
  simp only [Claims.runs]; decide +kernel

/-! ## Cameras -/

/-- Camera 15 of INT1 on connections 18 and 19, which carry signal; CX_STAT.STATE of connection 19 is `cx`. -/
def filming (cx : Word) (rs : List (Nat × Word)) (c : Cam) : State :=
  let s := (((base.setReg (Reg.CAM_CFG 1 15) 0x8320).setReg (Reg.CX_STAT 1 19) cx).setReg (Reg.PWR_ON 2) 0xF000).setReg (Reg.PWR_ON 3) 0x1F
  { withRegs s rs with cams := [(31, c)], cxSignal := [(38, true), (39, true)] }
def ready : Cam := { Cam.reset with state := .ready }
def finding (n : Nat) : Cam := { Cam.reset with state := .discover, step := n }
/-- One that waits until tick `t`. -/
def retrying (t : Nat) : Cam := { finding 1 with timer := some t }
theorem met_Cameras_links :
    let s := filming 0 [] ready
    s.live = true ∧ s.camEn 1 15 = true ∧ Claims.master s 1 15 + Claims.conns s 1 15 ≤ 20 ∧ s.camOf 1 19 = some 15 ∧
      field (s.reg (Reg.CX_STAT 1 19)) 0 3 = 0 ∧ (s.cam 1 15).state = .ready ∧
      (let u := filming 3 [] ready
       field (u.reg (Reg.CX_STAT 1 19)) 0 3 = 3 ∧ (u.cam 1 15).state = .ready ∧ field (u.reg (Reg.CAM_FMT 1 15)) 8 4 = 0) ∧
      (let u := filming 3 [(Reg.CAM_FMT 1 15, 0x0F00)] { ready with active := true, image := .inside 3 }
       0 < field (u.reg (Reg.CAM_FMT 1 15)) 8 4 ∧ (u.cam 1 15).state = .ready) ∧
      (let u := filming 1 [] { Cam.reset with state := .absent }
       (u.cam 1 15).state = .absent ∧ u.camOf 1 18 = some 15 ∧ Claims.master u 1 15 = 18 ∧ u.cxOn 1 18 = true) := by decide +kernel
theorem met_Cameras_discovery :
    Claims.conns (filming 0 [] ready) 1 15 = 2 ∧ (∀ j, j < 2 → (3#8).getLsbD j = true) ∧ ¬(∀ j, j < 2 → (1#8).getLsbD j = true) ∧
      (∀ n : Fin 6, ((filming 0 [] (finding n.val)).cam 1 15).state = .discover ∧ ((filming 0 [] (finding n.val)).cam 1 15).timer = none ∧
        ((filming 0 [] (finding n.val)).cam 1 15).step = n.val) ∧
      (∀ j, j < 2 → (filming 0 [] (finding 1)).cxOn 1 (18 + j) = true) ∧
      (∀ j, j < 2 → field ((filming 0x10 [] (finding 2)).reg (Reg.CX_STAT 1 (18 + j))) 4 4 = j) ∧
      ¬(∀ j, j < 2 → field ((filming 0 [] (finding 2)).reg (Reg.CX_STAT 1 (18 + j))) 4 4 = j) ∧
      ((filming 0 [] (retrying 1000000)).cam 1 15).timer = some base.now ∧ (filming 0 [] (retrying 1000000)).cxLasting 1 18 = false ∧
      ((filming 0 [] { retrying 1000001 with state := .lost }).cam 1 15).timer = some (base.now + 1) := by decide +kernel
theorem met_Cameras_config :
    let rs := [(Reg.CAM_LBUF 1 15, 512), (Reg.CAM_XSIZE 1 15, 640), (Reg.CAM_YSIZE 1 15, 480), (Reg.CAM_BAND1 1 15, 0x0100)]
    let s := filming 0 rs ready
    let u := (filming 0 rs Cam.reset).setReg (Reg.CAM_CFG 1 15) 0
    Reaches s 130 (Reg.CAM_CFG 1 15) ∧ Calm s ∧ bit (s.reg (Reg.CAM_CFG 1 15)) 15 = true ∧ 0x0320 = s.reg (Reg.CAM_CFG 1 15) &&& 0x7FFF ∧
      (s.cam 1 15).state ≠ .off ∧
      (field (0x8320 : Word) 12 3 ≤ 2 ∧ field (0x8320 : Word) 0 4 ≤ 6 ∧ field (0x8320 : Word) 4 5 + field (0x8320 : Word) 9 3 + 1 ≤ 20) ∧
      bit (u.reg (Reg.CAM_CFG 1 15)) 15 = false ∧ (∀ j, j < 16 → j ≠ 15 → u.camEn 1 j = false) ∧
      (1 ≤ (u.reg (Reg.CAM_XSIZE 1 15)).toNat ∧ 1 ≤ (u.reg (Reg.CAM_YSIZE 1 15)).toNat ∧ field (0x8320 : Word) 12 3 ≠ 2 ∧
        (u.reg (Reg.CAM_LBUF 1 15)).toNat ≤ 512 ∧ 2 * Claims.lineBytes u 1 15 0 ≤ (u.reg (Reg.CAM_LBUF 1 15)).toNat * 4096 ∧
        Claims.bandsFit u 1 15 0) ∧
      bit (u.reg (Reg.CAM_FSCFG 1 15)) 15 = false ∧ 2 < field (0x3000 : Word) 12 3 := by
  refine ⟨?_, calm_of _ (by decide), by decide +kernel, by decide +kernel, by decide +kernel, by decide, by decide +kernel, by decide +kernel,
    ⟨by decide +kernel, by decide +kernel, by decide, by decide +kernel, by decide +kernel, ?_⟩, by decide +kernel, by decide⟩
  · constructor <;> decide +kernel
  · unfold Claims.bandsFit; decide +kernel
theorem met_Cameras_retry :
    let s := filming 0 [] { Cam.reset with state := .miswired }
    Reaches s 130 (Reg.CAM_CTL 1 15) ∧ (s.cam 1 15).state = .miswired ∧
      ((filming 4 [] { Cam.reset with state := .fault }).cam 1 15).state = .fault ∧ (ready.state ≠ .miswired ∧ ready.state ≠ .fault) := by
  refine ⟨?_, by decide, by decide, by decide⟩
  constructor <;> decide +kernel
/-- A control command of camera 15 is in progress since tick 0, with tag 255. -/
def asking (tout : Word) : State :=
  { filming 3 [(Reg.CC_STAT 1, 0x8000), (Reg.CC_TOUT 1, tout), (Reg.INT_EVMB 1, 0x9400), (Reg.CC_CMD 1, 0x000F)] ready with
    ccChans := [(1, { tag := 255, wr := false, start := 0 })] }
theorem met_Cameras_channel :
    let s := asking 5
    let ch := s.ccChans.getD 1 CcChan.reset
    Reaches s 130 (Reg.CC_CMD 1) ∧ bit (s.reg (Reg.CC_STAT 1)) 15 = true ∧ bit (base.reg (Reg.CC_STAT 1)) 15 = false ∧
      (base.cam 1 15).state ≠ .ready ∧ ((filming 3 [] ready).cam 1 (field (0x000F : Word) 0 4)).state = .ready ∧ ch.tag = (255 : Fin 256).val ∧
      ch.wr = false ∧ ch.start + 200000 * max (s.reg (Reg.CC_TOUT 1)).toNat 1 ≤ s.now ∧
      ¬(ch.start + 200000 * max ((asking 6).reg (Reg.CC_TOUT 1)).toNat 1 ≤ s.now) := by
  refine ⟨?_, by decide +kernel, by decide +kernel, by decide +kernel, by decide +kernel, by decide, by decide, by decide +kernel,
    by decide +kernel⟩
  constructor <;> decide +kernel
theorem met_Cameras_events :
    let s := asking 5
    let mb := s.reg (Reg.INT_EVMB 1)
    (s.cam 1 15).state = .ready ∧ bit mb 15 = true ∧ (s.cam 1 15).out = [] ∧
      bit (s.reg (routeKey (field (s.reg (Reg.CAM_ROUTE 1 15)) 0 8) 3)) 15 = false ∧ isSort (field mb 10 3) = true ∧
      s.undeliverable 2 (field mb 10 3) = none ∧ bit (base.reg (Reg.INT_EVMB 1)) 15 = false := by decide +kernel
theorem met_Cameras_regions :
    let s := filming 3 [(Reg.RG_CFG 1 63, 0x0F00), (Reg.CAM_BAND1 1 15, 0x01FF)] ready
    Reaches s 130 (Reg.RG_W 1 63) ∧ Reaches s 130 (Reg.INT_CSDATA 1) ∧ Calm s ∧
      (let nb := field (s.reg (Reg.CAM_BAND1 1 (field (s.reg (Reg.RG_CFG 1 63)) 8 4))) 0 8 + 1
       nb * ((2040 + 7) / 8) ≤ 65535 ∧ 65535 < nb * ((2048 + 7) / 8)) := by
  refine ⟨?_, ?_, calm_of _ (by decide), by decide +kernel⟩ <;> constructor <;> decide +kernel

/-- A camera with a region, its mailbag on SORT2, that frames 4 samples a row, mono, each row a line, 2 lines an image. -/
def framing (rs : List (Nat × Word)) (c : Cam) : State :=
  filming 3 ([(Reg.CAM_XSIZE 1 15, 4), (Reg.CAM_YSIZE 1 15, 2), (Reg.CAM_BAND1 1 15, 0x0100), (Reg.CAM_LBUF 1 15, 512), (Reg.RG_CFG 1 63, 0x8F00),
    (Reg.RG_W 1 63, 4), (Reg.RG_MB 1 63, 0x1405), (Reg.CAM_FMT 1 15, 7)] ++ rs) c
/-- Inside a line, two of its four samples taken. -/
def halfway : Cam := { ready with image := .inside 2, got := [1, 2], active := true, tag := 255 }
theorem met_CameraFrames_packets :
    let s := framing [] halfway
    let c := s.cam 1 15
    s.live = true ∧ s.camOf 1 19 = some 15 ∧ c.state = .ready ∧ (255 : Fin 256).val = c.tag ∧ field (s.reg (Reg.CAM_FMT 1 15)) 0 8 = 7 ∧
      c.ahead = [] ∧ 1 < Claims.conns s 1 15 ∧ Claims.master s 1 15 + Claims.conns s 1 15 ≤ 20 ∧ (254 : Fin 256).val ≠ c.tag := by decide +kernel
/-- The expected packet: in the middle of a line, at its start with room and without, at its end good and bad; samples missing; a stray
packet of an earlier place; one with no image begun; a header. -/
theorem met_CameraFrames_samples :
    let s := framing [] halfway
    let c := s.cam 1 15
    let u := framing [] { halfway with image := .inside 0, got := [], active := false }
    let v := framing [(Reg.CAM_LBUF 1 15, 0)] { halfway with image := .inside 0, got := [] }
    let w := framing [] { halfway with bad := true }
    (c.image = .inside 2 ∧ 2 / Claims.lineLen s 1 15 < Claims.imageLines s 1 15 ∧ 0 < Claims.rowLen s 1 15 ∧
      2 % Claims.lineLen s 1 15 + [(3 : Word)].length < Claims.lineLen s 1 15 ∧ 2 % Claims.lineLen s 1 15 + [(3 : Word), 4].length = Claims.lineLen s 1 15 ∧
      c.line + 1 < s.frameLines 1 15 ∧ c.got.length = 2 ∧ c.bad = false ∧ (w.cam 1 15).bad = true) ∧
    ((u.cam 1 15).image = .inside 0 ∧ (u.cam 1 15).active = false ∧
      ((u.cam 1 15).linesHeld + 1) * Claims.lineBytes u 1 15 (field (u.reg (Reg.CAM_CFG 1 15)) 12 3) ≤ 4096 * (u.reg (Reg.CAM_LBUF 1 15)).toNat ∧
      ¬((v.cam 1 15).linesHeld + 1) * Claims.lineBytes v 1 15 (field (v.reg (Reg.CAM_CFG 1 15)) 12 3) ≤ 4096 * (v.reg (Reg.CAM_LBUF 1 15)).toNat) ∧
    (let s := framing [(Reg.CAM_XSIZE 1 15, 8)] halfway
     Claims.lineLen s 1 15 = 8 ∧ 2 % Claims.lineLen s 1 15 ≠ 0 ∧ 5 + [(3 : Word)].length < (2 / Claims.lineLen s 1 15 + 1) * Claims.lineLen s 1 15) ∧
    ready.image = .none ∧ field (s.reg (Reg.CAM_FMT 1 15)) 12 4 = (0 : Fin 16).val ∧ (∀ p, (ready.image) ≠ .inside p) := by
  refine ⟨by decide +kernel, by decide +kernel, by decide +kernel, by decide, by decide +kernel, fun p h => by cases h⟩
/-- A line of four samples. -/
def aLine : CamLine := { frame := 1, no := 0, row0 := 0, rows := [[10, 20, 30, 40]], raw := [], stamp := 0 }
theorem met_CameraFrames_lines :
    let s := framing [] { ready with jobs := [(false, .line aLine)] }
    s.live = true ∧ Claims.Flows s 1 15 ∧ Claims.OnlyRegion s 1 15 63 ∧ (s.cam 1 15).jobs = (false, .line aLine) :: [] ∧
      bit (s.reg (Reg.CAM_FSCFG 1 15)) 15 = false ∧ aLine.rows.length = Claims.binV s 1 15 ∧ Claims.defectsSorted s 1 15 ∧
      (s.reg (Reg.RG_W 1 63)).toNat ≠ 0 ∧ aLine.no % (field (s.reg (Reg.RG_CFG 1 63)) 0 8 + 1) = 0 ∧
      field (s.reg (Reg.RG_CFG 1 63)) 13 2 = 0 ∧ Claims.laneHolds 0 4 1 0 3 = some (0, 3) ∧ (0 : Nat) + 3 < Claims.outWidth s 1 15 := by
  refine ⟨by decide, ?_, ⟨by decide +kernel, ?_⟩, by decide, by decide +kernel, by decide +kernel, ?_, by decide +kernel, by decide +kernel,
    by decide +kernel, by decide, by decide +kernel⟩
  · unfold Claims.Flows; decide +kernel
  · unfold Claims.BagReached; decide +kernel
  · intro e he
    exact absurd he (by rw [show ((framing [] { ready with jobs := [(false, .line aLine)] }).reg (Reg.CAM_DEFCNT 1 15)).toNat = 0 by decide +kernel]; omega)
theorem met_CameraFrames_decimated :
    let s := framing [(Reg.RG_CFG 1 63, 0x8F01)] ready
    1 % (field (s.reg (Reg.RG_CFG 1 63)) 0 8 + 1) ≠ 0 ∧ ((framing [(Reg.RG_W 1 63, 0)] ready).reg (Reg.RG_W 1 63)).toNat = 0 := by decide +kernel
theorem met_CameraFrames_ends :
    let fr : FrameInfo := { no := 9, delivered := 2, dropped := 0, first := 0, lastLine := 0, last := 0, abort := false, fmt := 7 }
    let s := framing [(Reg.CAM_FSCFG 1 15, 0x8000), (Reg.CAM_FSNSLOT 1 15, 1), (Reg.CAM_EVMB 1 15, 0x9400)] { ready with jobs := [(true, .frameEnd fr)] }
    Claims.Flows s 1 15 ∧ Claims.OnlyRegion s 1 15 63 ∧ (s.cam 1 15).jobs = (true, .frameEnd fr) :: [] ∧ bit (s.reg (Reg.CAM_FSCFG 1 15)) 15 = true ∧
      1 ≤ (s.reg (Reg.CAM_FSNSLOT 1 15)).toNat ∧ (s.reg (Reg.CAM_FSBASEH 1 15)).toNat < 2048 ∧ bit (s.reg (Reg.CAM_EVMB 1 15)) 15 = true ∧
      Claims.BagReached s 1 (s.reg (Reg.CAM_EVMB 1 15)) ∧ s.undeliverable (1 + 1) 0 = none ∧ bit ((framing [] ready).reg (Reg.CAM_FSCFG 1 15)) 15 = false ∧
      (let t := framing [] { ready with jobs := [(true, .camState 6 9 0)] }
       (t.cam 1 15).jobs = (true, .camState 6 9 0) :: [] ∧ (t.cam 1 15).out = []) := by
  refine ⟨?_, ⟨by decide +kernel, ?_⟩, by decide, by decide +kernel, by decide +kernel, by decide +kernel, by decide +kernel, ?_, by decide +kernel, by decide +kernel, by decide +kernel⟩
  · unfold Claims.Flows; decide +kernel
  · unfold Claims.BagReached; decide +kernel
  · unfold Claims.BagReached; decide +kernel
theorem test_frank_line :
    ((out (exec (.lineFranked 1 15 []) (framing [] { ready with jobs := [(false, .line aLine)] }))).msgs.map fun m => match m with
      | .push a b x => (a, b, x.data.l0, x.data.l7) | _ => (0, 0, 0, 0)) = [(2, 0x285, 0xA53F, 1), (2, 0x285, 10, 0)] := by decide +kernel

/-! ## The fabric -/

/-- No clerk waits, so none waits of a kind. -/
theorem none_waits (s : State) (k : WaitKind) (h : (s.fbPend.isEmpty && s.clerks.all fun e => e.2.waiting.isNone) = true) : Claims.NoneWaits s k := by
  intro c w hw
  rw [(calm_of s h).2 c] at hw
  cases hw
/-- No fallback list stands in the image. -/
theorem no_lists (s : State) (h : ((s.goodSections (s.bankKey s.bank) 0).bind fun l => sectionOf l 6) = none) (d : Nat) (o : Bool) : s.fallback d o = [] := by
  unfold State.fallback
  cases g : s.goodSections (s.bankKey s.bank) 0 with
  | none => simp only [g]
  | some l =>
    simp only [g, Option.bind_some] at h
    simp only [g, h]
/-- A link in a state with a direction. -/
def linked (l : Nat) (x : Link) : State := { base with links := base.links.set l x }
def sending : LinkDir := { LinkDir.reset with acked := 255, expect := 255, ackAt := 999600, nak := true }
theorem met_LinkRetry_frames :
    let s := linked 18 { upLink with ab := sending }
    let d := Claims.way (s.link 18) true
    s.live = true ∧ Claims.NoneWaits s .dsync ∧ (s.link 18).state = .up ∧ d.expect < 256 ∧ (255 : Fin 256).val = d.expect ∧
      d.sent.head?.map Prod.fst ≠ some 255 ∧
      ((191 : Fin 256).val + 64) % 256 = d.expect ∧ (d.expect + 191) % 256 = (190 : Fin 256).val ∧ d.nak = true ∧ d.naks < 7 ∧
      7 ≤ ({ sending with naks := 7 } : LinkDir).naks ∧ d.nextTx ≠ d.acked ∧ d.ackAt + 400 ≤ s.now ∧
      (Claims.way upLink true).nak = false ∧ (linked 18 Link.reset).link 18 = Link.reset := by
  refine ⟨by decide, none_waits _ _ (by decide), ?_⟩
  decide +kernel
/-- A push from INT0 to a mailbag of SORT3, on link 0 toward HUB; its next link is 5, which is up, or not. -/
def through : Transit := { vc := 3, res := false, path := [0, 5], via := none, msg := .push 1 0x300 (ordinary Sheet.zero) }
def forwarding (x : Link) : State :=
  { linked 5 x with links := (linked 5 x).links.set 0 { upLink with ba := { LinkDir.reset with nextTx := 1, sent := [(0, through)] } },
                    msgs := [through.msg] }
/-- The same, bound for HUB itself. -/
def landing : State :=
  let p : Transit := { through with path := [0], msg := .push 1 5 (ordinary Sheet.zero) }
  { linked 0 { upLink with ba := { LinkDir.reset with nextTx := 1, sent := [(0, p)] } } with msgs := [p.msg] }
theorem met_LinkRetry_carries :
    (∀ s ∈ [forwarding upLink, forwarding Link.reset], s.live = true ∧ Claims.NoneWaits s .dsync ∧ (s.link 0).state = .up ∧
      (Claims.way (s.link 0) false).expect = (0 : Fin 256).val ∧ (Claims.way (s.link 0) false).sent = [((0 : Fin 256).val, through)] ∧
      through.path = 0 :: [5] ∧ through.msg ∈ s.msgs ∧ through.msg.route = some (1, 6) ∧ (s.die 1).state ≠ .out ∧ (s.die 6).state ≠ .out) ∧
      (forwarding upLink).linkUp 5 = true ∧ (forwarding Link.reset).linkUp 5 = false ∧
      (∃ p, (Claims.way (landing.link 0) false).sent = [((0 : Fin 256).val, p)] ∧ p.path = 0 :: [] ∧ p.vc = 3 ∧ p.msg ∈ landing.msgs) := by
  refine ⟨?_, by decide +kernel, by decide +kernel, ⟨_, rfl, by decide, by decide, by decide +kernel⟩⟩
  intro s hs
  simp only [List.mem_cons, List.not_mem_nil, or_false] at hs
  rcases hs with rfl | rfl <;> exact ⟨by decide, none_waits _ _ (by decide), by decide +kernel⟩
theorem met_LinkRetry_trains :
    let s := { linked 0 { Link.reset with state := .train, retrain := true, fails := 2, ab := { LinkDir.reset with sent := [(0, through)] } } with
      msgs := [through.msg] }
    Calm s ∧ (s.link 0).state = .train ∧ (s.link 0).retrain = true ∧ 2 ≤ (s.link 0).fails ∧ (s.link 0).ab.sent = [(0, through)] ∧
      (s.link 0).ba.sent = [] ∧ s.routers = [] ∧ through.msg ∈ s.msgs ∧
      ({ Link.reset with state := .train, retrain := true, fails := 1 } : Link).fails < 2 :=
  ⟨calm_of _ (by decide), by decide +kernel⟩
theorem met_LinkRetry_commands :
    let s := linked 0 { Link.reset with state := .fault }
    Reaches s 130 (Reg.FL_CTL 0) ∧ (s.link 0).state = .fault ∧ (base.link 18).state ≠ .quarantine ∧ (base.link 18).state ≠ .fault := by
  refine ⟨?_, by decide, by decide, by decide⟩
  constructor <;> decide +kernel
theorem met_LinkRetry_declares :
    let s := linked 2 Link.reset
    let t := linked 15 Link.reset
    s.fallback 3 true = [] ∧ s.modeAt = none ∧ s.linkUp (3 - 1) = false ∧ s.inService 3 = true ∧ s.inService 4 = true ∧ s.linkUp (4 - 1) = true ∧
      isSort 3 = true ∧ t.linkUp (3 + 12) = false ∧ t.inService 7 = true := by
  refine ⟨no_lists _ (by decide +kernel) _ _, by decide, by decide +kernel, by decide +kernel, by decide +kernel, by decide +kernel, by decide,
    by decide +kernel, by decide +kernel⟩
/-- The parcels' words: an unknown unit; a mailbag of a die out of service, from another die; a global port of no unit; no route. -/
theorem met_FabricExchange_drops :
    (base.live = true ∧ 0x0E ≤ field (0x0E00 : Word) 8 5 ∧ field (0x0600 : Word) 8 5 = 6 ∧ bit (0 : Word) 6 = false ∧ originRequester 0 < 131) ∧
      (field (0x0400 : Word) 8 5 = 4 ∧ field (0x0400 : Word) 13 3 ≠ 7) ∧ (field (0x2800 : Word) 8 5 = 8 ∧ field (0x2800 : Word) 13 3 ≠ 0 ∧ bit (0x40 : Word) 6 = true) ∧
      (let s := base.setReg Reg.DEVICE_DIES 0x7F
       field (0xE300 : Word) 8 5 = 3 ∧ field (0xE300 : Word) 13 3 = 7 ∧ s.inService 7 = false) ∧
      (field (0xA300 : Word) 8 5 = 3 ∧ field (0xA300 : Word) 13 3 = 5 ∧ base.inService 5 = true ∧ base.inService 3 = true ∧ base.routeLinks 3 5 = none ∧
        base.undeliverable 1 3 = none) := by
  decide +kernel
/-- Two dies that exchange over a link. -/
def meeting (l a b : Nat) (da db : Die) (x : Link) : State :=
  { linked l x with dies := (base.dies.set a da).set b db }
theorem die_states (l a b : Nat) (da db : Die) (x : Link) (h : ((base.dies.set a da).set b db).all (fun e => decide (e.2.state ≠ .exchange)) = true) :
    ∀ d, ((meeting l a b da db x).die d).state ≠ .exchange := by
  have key : ∀ (t : Tbl Die) (d : Nat), (t.all fun e => decide (e.2.state ≠ .exchange)) = true → (Tbl.getD t d Die.reset).state ≠ .exchange := by
    intro t d ht
    induction t with
    | nil => intro hd; cases hd
    | cons e t ih =>
      simp only [List.all_cons, Bool.and_eq_true] at ht
      unfold Tbl.getD Tbl.find?
      split
      · simpa using ht.1
      · exact ih ht.2
  exact fun d => key _ d h
theorem met_FabricExchange_exchange :
    let joining : Die := { Die.reset with state := .train, phase := 1 }
    let x : Link := { Link.reset with state := .exchange }
    let bad := meeting 5 0 6 upDie { joining with imgId := 1 } x
    let good := meeting 5 0 6 upDie joining { x with retryAt := some 1000000 }
    let late := meeting 7 1 3 upDie { upDie with mode := 4 } { x with tries := 2 }
    ((bad.link 5).state = .exchange ∧ (bad.link 5).retryAt = none ∧ bad.mayExchange 5 = true) ∧ ¬Claims.FixedAgree (bad.die 0) (bad.die 6) ∧ bad.modeAt = none ∧
      (∀ d, bad.fallback d true = []) ∧ (5 ≤ (bad.die 0).phase ∧ (bad.die 6).phase < 5) ∧ (∀ d, (bad.die d).state ≠ .exchange) ∧
      Claims.FixedAgree (good.die 0) (good.die 6) ∧ Claims.ends 5 = (0, 6) ∧ (good.link 5).retryAt = some good.now ∧ (good.link 5).state = .exchange ∧
      ((∀ m, (Claims.ends m).1 = 6 ∨ (Claims.ends m).2 = 6 → m ≠ 5 → m < 19 → (good.link m).state ≠ .train ∧ (good.link m).state ≠ .exchange ∧ (good.link m).again = false)) ∧
      Claims.FixedAgree (late.die 1) (late.die 3) ∧ Claims.ends 7 = (1, 3) ∧ (late.die 1).bepoch = (late.die 3).bepoch ∧ (late.die 1).mode ≠ (late.die 3).mode ∧
      (late.link 7).tries < 3 ∧ late.mayExchange 7 = true ∧ (5 ≤ (late.die 1).phase ∧ 5 ≤ (late.die 3).phase) := by
  refine ⟨by decide +kernel, ?_, by decide, fun d => no_lists _ (by decide +kernel) _ _, by decide +kernel, die_states _ _ _ _ _ _ (by decide +kernel), ?_,
    by decide, by decide +kernel, by decide +kernel, ?_, ?_, by decide, by decide +kernel, by decide +kernel, by decide +kernel, by decide +kernel, by decide +kernel⟩
  · unfold Claims.FixedAgree; decide +kernel
  · unfold Claims.FixedAgree; decide +kernel
  · intro m _ h5 h19
    have : ∀ m, m < 19 → m ≠ 5 → ((meeting 5 0 6 upDie { Die.reset with state := .train, phase := 1 }
        { Link.reset with state := .exchange, retryAt := some 1000000 }).link m) = upLink := by decide +kernel
    rw [this m h19 h5]; decide
  · unfold Claims.FixedAgree; decide +kernel
/-- Crossing 9 of DISPATCH, with its channels busy; crossing 8, idle; a crossing whose die is in reset. -/
theorem met_FabricExchange_crossings :
    let busy : CrossChan := { CrossChan.reset with hold := some 1, queue := [2], source := some 2 }
    let s : State := { base with crossings := [(32 * 7 + 9, { Crossing.reset with status := busy, event := busy, toggle := true, acc := 15 })] }
    let x := s.crossing 7 9
    s.live = true ∧ x.status.hold = some 1 ∧ x.status.queue ≠ [] ∧ x.event.hold ≠ none ∧ x.toggle = true ∧ x.acc = 15 ∧
      s.crossHeld 7 9 = false ∧ (s.crossing 7 8).status.hold = none ∧ (s.crossing 7 8).status.queue = [] ∧ (s.crossing 7 8).event.hold = none ∧
      (s.crossing 7 8).toggle = false ∧ ({ x with acc := 14 } : Crossing).acc < 15 ∧ State.reset.crossHeld 3 0 = true := by decide +kernel

/-! ## The Zegen line -/

/-- Port 7 with a slot, its axis 14 on an encoder in TRACK, with node 1. -/
def lineOf (z : ZPort) (n : ZNode) (rs : List (Nat × Word)) : State :=
  { withRegs base ([(Reg.ZP_CFG 7, 0x8078), (Reg.ZP_PERIOD 7, 1000), (Reg.ZP_RETRY 7, 1), (Reg.ZP_WDOG 7, 0x0200)] ++ rs) with
    zports := [(7, z)], znodes := [(64 * 7 + 1, n)] }
/-- Rounds are on; J left at `t`, with SEQ `q` in slot 1. -/
def flown (t : Option Nat) (q : Nat) : ZPort := { ZPort.reset with running := true, flight := t, frame := List.replicate 6 0 ++ [BitVec.ofNat 16 (256 * q)] }
def enrolled (q : List NodeCmd) : ZNode := { ZNode.reset with state := .enrolled, seq := 9, queue := q, miss := 0 }
def cmd (e : Option Sheet) : NodeCmd := { seq := 9, d0 := 0x30, d1 := 0, d2 := 0, d3 := 0, entry := e }
theorem met_ZegenLine_rounds :
    let s := lineOf (flown none 0) ZNode.reset [(Reg.ZP_CFG 7, 0xC078)]
    s.live = true ∧ s.sleep = none ∧ s.dispatchIsOut = false ∧ (s.zport 7).running = true ∧ (s.zport 7).nextDue = none ∧
      0 < (s.reg (Reg.ZP_PERIOD 7)).toNat ∧ s.ax15.toNat / 65536 % (s.reg (Reg.ZP_PERIOD 7)).toNat = (s.reg (Reg.ZP_PHASE 7)).toNat ∧
      (s.zport 7).flight = none ∧ (s.zport 7).confirm = none ∧ bit (s.reg (Reg.ZP_CFG 7)) 14 = true ∧ (s.zport 7).lastOffer = false ∧
      Claims.slots s 7 = 1 ∧ (s.znode 7 1).state = .free ∧ (base.zport 7).running = false ∧ bit (0x8078 : Word) 14 = false ∧
      (lineOf { flown (some 5) 0 with nextDue := some 5000 } ZNode.reset []).refUs = 5000 ∧
      (lineOf { flown none 0 with confirm := some (63, 1, 2, 3) } ZNode.reset []).zport 7 = { flown none 0 with confirm := some (63, 1, 2, 3) } := by
  decide +kernel
theorem met_ZegenLine_lost :
    let s := lineOf { flown (some 951680) 0 with badRun := 2 } ZNode.reset []
    s.live = true ∧ Claims.slots s 7 = 1 ∧ (s.zport 7).flight = some 951680 ∧ 951680 + (8 * 540 + 44000) ≤ s.now ∧
      s.now < 951681 + (8 * 540 + 44000) ∧ (s.znode 7 1).state = .free ∧ (s.zport 7).down = false ∧ (s.zport 7).badRun = 2 := by decide +kernel
theorem met_ZegenLine_returns :
    let s := lineOf (flown (some 5) 9) (enrolled [cmd none]) [(Reg.ZP_INMB 7, 0x8C05)]
    let x : NodeAnswer := { u0 := 0x0900, u1 := 0, u2 := 0, u3 := 0, ucrc := Claims.crc [0, 0x0900, 0, 0, 0] }
    let hdr : List Word := [1, 2, 3, 4, 5, Claims.crc [1, 2, 3, 4, 5]]
    (hdr.length = 6 ∧ hdr.getD 5 0 = Claims.crc (hdr.take 5)) ∧ ¬([0, 0, 0, 0, 0, 0] : List Word).getD 5 0 = Claims.crc (([0, 0, 0, 0, 0, 0] : List Word).take 5) ∧
    (s.zport 7).flight = some 5 ∧ (s.zport 7).offered = none ∧ (s.zport 7).loops.length ≤ 16 ∧ x.u0.toNat / 256 = ((s.zport 7).frame.getD 6 0).toNat / 256 ∧
      x.ucrc = Claims.crc [(s.zport 7).frame.getD 1 0, x.u0, x.u1, x.u2, x.u3] ∧ x.u0.toNat / 16 % 16 ≠ 5 ∧ (s.znode 7 1).state = .enrolled ∧ (s.znode 7 1).queue = [cmd none] ∧ (9 : Nat) ≠ 0 ∧ (cmd none).seq = 9 ∧
      bit (s.reg (Reg.ZP_INMB 7)) 15 = true ∧ field (s.reg (Reg.ZP_INMB 7)) 10 3 ≠ 7 ∧ s.undeliverable 7 (field (s.reg (Reg.ZP_INMB 7)) 10 3) = none ∧
      (0x0930 : Word).toNat / 16 % 16 = 3 ∧ (0x0950 : Word).toNat / 16 % 16 = 5 ∧ (cmd (some Sheet.zero)).entry = some Sheet.zero := by decide +kernel
theorem met_ZegenLine_silent :
    let s := lineOf (flown (some 5) 9) (enrolled [cmd none]) []
    (s.znode 7 1).state = .enrolled ∧ (s.znode 7 1).miss + 1 < max ((s.reg (Reg.ZP_WDOG 7)).toNat / 256) 1 ∧
      (s.znode 7 1).tries < field (s.reg (Reg.ZP_RETRY 7)) 0 4 ∧ field (s.reg (Reg.ZP_RETRY 7)) 0 4 ≤ ({ enrolled [] with tries := 1 } : ZNode).tries ∧
      max ((s.reg (Reg.ZP_WDOG 7)).toNat / 256) 1 ≤ ({ enrolled [] with miss := 1 } : ZNode).miss + 1 := by decide +kernel
theorem met_ZegenLine_mailbox :
    let s := lineOf (flown none 0) (enrolled [cmd none, cmd none, cmd none]) []
    Reaches s 130 (Reg.ZP_NCMD 7) ∧ Calm s ∧ bit (0xC001 : Word) 15 = true ∧ field (0xC001 : Word) 0 6 = 1 ∧ bit (s.reg (Reg.ZP_NSTAT 7)) 15 = false ∧
      (s.znode 7 1).state = .enrolled ∧ (s.znode 7 1).queue.length < 4 ∧ 4 ≤ (enrolled [cmd none, cmd none, cmd none, cmd none]).queue.length ∧
      (s.znode 7 2).state ≠ .enrolled ∧ bit ((lineOf (flown none 0) ZNode.reset [(Reg.ZP_NSTAT 7, 0x8000)]).reg (Reg.ZP_NSTAT 7)) 15 = true := by
  refine ⟨?_, calm_of _ (by decide), ?_⟩
  · constructor <;> decide +kernel
  · decide +kernel
theorem met_ZegenLine_commands :
    let s := { lineOf ZPort.reset { enrolled [] with state := .fault } [(Reg.AX_CFG 14, 0x2000), (Reg.ZP_CFG 7, 0x0078)] with
      pads := [(0x35, 0x8000), (0x36, 0x8000), (0x37, 0x8000)] }
    Reaches s 130 (Reg.NODE_CTL 7 0) ∧ Reaches s 130 (Reg.NODE_CTL 0 62) ∧ (s.znode 7 1).state = .fault ∧ (s.znode 7 2).state ≠ .fault ∧
      Reaches s 130 (Reg.ZP_CFG 7) ∧
      (let accepted := fun (v old : Word) => 1 ≤ field v 6 6 ∧ field v 6 6 ≤ 62 ∧ s.axSrc (field v 2 4) = 2 ∧
        (bit old 15 = true → v &&& 0x0FFC = old &&& 0x0FFC) ∧ (bit v 15 = true → ∀ j, j < 3 → s.padEn (0x20 + 3 * 7 + j) = true)
       accepted 0x8FB8 0x0078 ∧ bit (0x8FB8 : Word) 15 = true ∧ bit (s.reg (Reg.ZP_CFG 7)) 15 = false ∧ accepted 0xC078 0x8078 ∧ accepted 0x0078 0x8078 ∧
        ¬accepted 0x8FF8 0x0078) := by
  refine ⟨?_, ?_, by decide +kernel, by decide +kernel, ?_, by decide +kernel⟩ <;> constructor <;> decide +kernel

/-! ## Interrupts -/

/-- An ICU source of a die, enabled, with messages. -/
def raised (d src : Nat) (cfg : Word) (e : IcuSrc) (ms : List Msg) : State :=
  { (((base.setReg (icuKey d src 3) cfg).setReg (icuKey d src 6) 100).setReg (icuKey d src 7) 0x1032) with icu := [(256 * d + src, e)], msgs := ms }
/-- The same on a sorting die; a GPIO event on its way to HUB. -/
def raisedLocal : State := raised 6 0x63 0x8000 IcuSrc.reset [.localEv 6 0x63 2]
def raisedGlobal : State := raised 0 0x5A 0x8000 IcuSrc.reset [.globalEv 0 0x5A 1 true]
theorem met_EventsReachSources :
    let p := Claims.localFor (6 : DieId).val (0x63 : Fin 256).val
    let q : Msg → Bool := fun m => match m with | .globalEv e x _ _ => e == (0 : DieId).val && x == (0x5A : Fin 128).val | _ => false
    raisedLocal.live = true ∧ Calm raisedLocal ∧ Claims.Arrives raisedLocal p (.localEv 6 0x63 2) (got raisedLocal p (.localEv 6 0x63 2)) ∧
      Claims.Arrives raisedGlobal q (.globalEv 0 0x5A 1 true) (got raisedGlobal q (.globalEv 0 0x5A 1 true)) ∧
      ¬Claims.source 6 0x64 ∧ Claims.source 6 0x63 ∧ Claims.source 0 0x59 ∧ Claims.source 0 0x5A ∧
      Claims.sense raisedGlobal 0 0x5A true ∧ ¬Claims.sense raisedGlobal 0 0x5A false ∧
      Reaches raisedLocal 130 (Reg.ICU_RAISE 6) ∧ Claims.source 6 (0xFF : Word).toNat ∧ ((clerkAt 127 sup).clerk 127).sup = true := by
  refine ⟨by decide, calm_of _ (by decide), arrives_of _ _ _ (by decide +kernel), arrives_of _ _ _ (by decide +kernel), ?_, ?_, ?_, ?_, ?_, ?_, ?_, ?_,
    by decide +kernel⟩
  all_goals first
    | (unfold Claims.source; decide)
    | (unfold Claims.sense; decide +kernel)
    | (constructor <;> decide +kernel)
theorem met_EventsReachSources_held :
    let s := raised 6 200 0x8000 { IcuSrc.reset with held := 1, first := some 4950, last := some 4900 } []
    let e := s.icuSrc 6 200
    (0 < e.held ∧ e.pend = false ∧ bit (s.reg (icuKey 6 200 3)) 15 = true ∧ e.first = some 4950) ∧ Claims.moderated s 6 200 1 4950 (some 4900) ∧
      ¬Claims.moderated s 6 200 1 4951 (some 4900) := by
  refine ⟨by decide +kernel, ?_, ?_⟩
  · refine ⟨?_, by decide +kernel⟩
    intro l hl; cases hl; decide +kernel
  · intro h
    exact absurd h.2 (by decide +kernel)
def waking : State :=
  let u := clerkAt 0 (waitingFor .event (.wait 0))
  { withRegs u [(icuKey 3 5 3, 0x8000)] with msgs := [.localEv 3 5 1] }
theorem met_EventsWake :
    let p := Claims.localFor (3 : DieId).val (5 : Fin 256).val
    let s := got waking p (.localEv 3 5 1)
    waking.live = true ∧ Claims.Arrives waking p (.localEv 3 5 1) s ∧ Claims.source 3 5 ∧ s.icuTarget 3 5 = 0 ∧
      bit (s.reg (icuKey 3 5 3)) 15 = true ∧ (s.icuSrc 3 5).pend = false ∧ Claims.WaitsWith s 0 .event (.wait 0) 1 := by
  refine ⟨by decide +kernel, arrives_of _ _ _ (by decide +kernel), by unfold Claims.source; decide, by decide +kernel, by decide +kernel,
    by decide +kernel, waits_of _ _ _ _ _ (by decide +kernel) (by decide +kernel)⟩
theorem met_GlobalEvents :
    let s := { base with pads := [(31, 0x8000)], globalEvs := [(0x79, ⟨some 4999, 3, true⟩)] }
    s.live = true ∧ Claims.eventsGo s 7 ∧ s.padEn 31 = true ∧ s.fe.gpioIn.getLsbD 31 ≠ true ∧ bit (s.reg (Reg.GP_DIR (31 / 16))) (31 % 16) = false ∧ s.padEn 30 = false ∧
      (let e := s.globalEvs.getD 0x79 GlobalEv.reset
       0 < e.held ∧ e.sentUs ≠ some s.refUs) ∧ (s.globalEvs.getD 0 GlobalEv.reset).held = 0 := by
  unfold Claims.eventsGo; decide +kernel
theorem met_Alarms :
    let s := clerkWith 127 sup [(Reg.LIC_ALMCTL 127, 0x8000), (Reg.LIC_ALML 127, 5000)]
    let t := clerkWith 127 task [(Reg.LIC_ALMCTL 127, 0x8000), (Reg.LIC_ALML 127, 5001)]
    Calm s ∧ (s.clerk 127).sup = true ∧ (t.clerk 127).sup = false ∧ bit (s.reg (Reg.LIC_ALMCTL 127)) 15 = true ∧
      (s.refUs + 4294967296 - ((s.reg (Reg.LIC_ALML 127)).toNat + 65536 * (s.reg (Reg.LIC_ALMH 127)).toNat)) % 4294967296 < 2147483648 ∧
      ¬((t.refUs + 4294967296 - ((t.reg (Reg.LIC_ALML 127)).toNat + 65536 * (t.reg (Reg.LIC_ALMH 127)).toNat)) % 4294967296 < 2147483648) := by
  refine ⟨calm_of _ (by decide +kernel), ?_⟩
  decide +kernel

/-! ## Registers, modes, mailbag moves and power -/

theorem met_RegisterWrites :
    base.live = true ∧ Calm base ∧ isParty (129 : Requester).val = true ∧ Claims.writable 0x4106 = some 0xFFFF ∧ Claims.writable 0x70FF = some 0x803F ∧
      base.reg (Reg.PWR_CVPERM 3) ≠ 1 ∧ (127 : Requester).val < 128 ∧ base.undeliverable (clerkDie 127) 0 = none := by
  refine ⟨by decide, calm_of _ (by decide), by decide +kernel⟩
theorem quiet : Claims.FabricQuiet base := by
  refine ⟨rfl, fun l => ?_⟩
  have h : ∀ t : Tbl Link, (t.all fun e => e.2.ab.sent.isEmpty && e.2.ba.sent.isEmpty) = true →
      (Tbl.getD t l Link.reset).ab.sent = [] ∧ (Tbl.getD t l Link.reset).ba.sent = [] := by
    intro t ht
    induction t with
    | nil => exact ⟨rfl, rfl⟩
    | cons e t ih =>
      simp only [List.all_cons, Bool.and_eq_true, List.isEmpty_iff] at ht
      unfold Tbl.getD Tbl.find?
      split
      · simpa using ht.1
      · exact ih (by simpa [List.isEmpty_iff] using ht.2)
  exact h base.links (by decide +kernel)
theorem met_ModeRequests :
    let ask := fun (m : Word) => Claims.mayAsk (inMode m) ∧ (inMode m).mode = m.toNat
    Reaches (inMode 3) 130 Reg.DEVICE_MODE_REQ ∧ Calm (inMode 3) ∧ ask 3 ∧ ask 4 ∧ ask 5 ∧ ask 7 ∧ ¬Claims.mayAsk (inMode 0x13) ∧
      (inMode 6).mode = 6 ∧ (7 : DieId).val ≠ 0 ∧ (inMode 4).envelope.state = .idle ∧ Claims.FabricQuiet base ∧ base.routes = [] ∧
      Claims.follows base 7 ∧ base.undeliverableAs true 7 0 = none := by
  refine ⟨?_, calm_of _ (by decide), ?_, ?_, ?_, ?_, ?_, by decide +kernel, by decide, by decide +kernel, quiet, by decide,
    by unfold Claims.follows; decide +kernel, by decide +kernel⟩
  · constructor <;> decide +kernel
  all_goals (unfold Claims.mayAsk; decide +kernel)
theorem met_ModeRequests_sleep :
    let s := base
    let t := base.setReg (Reg.CAM_CFG 1 15) 0x8000
    let u := clerkAt 129 { sup with slots := sup.slots.set! 3 { EpSlot.reset with state := .held } }
    (∀ c, c < 130 → ∀ i, i < 4 → (s.clerk c).slotOpen i = false) ∧
      (∀ d, 3 ≤ d → d < 7 → ∀ b, b < 32 → bit (s.reg (Reg.SS_RETSEL d (b / 16))) (b % 16) = false) ∧
      (∀ j, j < 32 → bit (s.reg (Reg.CAM_CFG (j / 16) (j % 16))) 15 = false) ∧
      bit (t.reg (Reg.CAM_CFG (31 / 16) (31 % 16))) 15 = true ∧ (∀ i, i < 31 → bit (t.reg (Reg.CAM_CFG (i / 16) (i % 16))) 15 = false) ∧
      (u.clerk 129).slotOpen 3 = true ∧ (∀ e, e < 129 → ∀ i, i < 4 → (u.clerk e).slotOpen i = false) := by
  refine ⟨by decide +kernel, ?_, by decide +kernel, by decide +kernel, by decide +kernel, by decide +kernel, by decide +kernel⟩
  have : ∀ d, d < 7 → 3 ≤ d → ∀ b, b < 32 → bit (base.reg (Reg.SS_RETSEL d (b / 16))) (b % 16) = false := by decide +kernel
  exact fun d h3 h7 => this d h7 h3
/-- Dies that owe an acknowledgement since a tick. -/
def owing (l : List Nat) (t0 : Option Nat) : State :=
  { (inMode 0x14) with dies := (List.range 8).map (fun d => (d, { upDie with ackPend := l.contains d })), modeAt := t0, msgs := l.map .modeAck }
theorem met_ModeAcknowledges :
    let s := owing [7] (some 960000)
    let p : Msg → Bool := fun m => match m with | .modeAck e => e == (7 : DieId).val | _ => false
    Calm s ∧ Claims.Arrives s p (.modeAck 7) (got s p (.modeAck 7)) ∧ s.modeAt ≠ none ∧ ¬(∃ e, e < 8 ∧ e ≠ 7 ∧ (s.die e).ackPend = true ∧ s.inService e = true) ∧
      (∃ e, e < 8 ∧ e ≠ 7 ∧ ((owing [7, 6] (some 0)).die e).ackPend = true ∧ (owing [7, 6] (some 0)).inService e = true) ∧
      960000 + 40000 ≤ s.now ∧ s.now < 960001 + 40000 ∧ (1 ≤ 7 ∧ 7 < 8 ∧ (s.die 7).ackPend = true ∧ s.inService 7 = true) ∧
      (∀ e, 1 ≤ e ∧ e < 8 ∧ (s.die e).ackPend = true ∧ s.inService e = true → e = 7) ∧ s.fallback 7 true = [] := by
  refine ⟨calm_of _ (by decide), arrives_of _ _ _ (by decide +kernel), by decide, ?_, ⟨6, by decide +kernel⟩, by decide, by decide, by decide +kernel, ?_,
    no_lists _ (by decide +kernel) _ _⟩
  · rintro ⟨e, he, hne, h, _⟩
    have : ∀ e, e < 8 → e ≠ 7 → ((owing [7] (some 960000)).die e).ackPend = false := by decide +kernel
    rw [this e he hne] at h; cases h
  · rintro e ⟨_, he, h, _⟩
    have : ∀ e, e < 8 → ((owing [7] (some 960000)).die e).ackPend = true → e = 7 := by decide +kernel
    exact this e he h
/-- Mailbag 1023 is to be moved to mailbag 0, since tick `t`. -/
def moving (b c : Bag) (t : Nat) : State := { (base.setBag 1023 b).setBag 0 c with moves := [(1023, 0, t)] }
theorem met_Moves :
    let s := moving { Bag.reset with head := [page 1, page 2] } { Bag.reset with head := List.replicate 15 (page 3) } 0
    Claims.NoneWaits s .push ∧ (1023 : Fin 1024) ≠ 0 ∧ (s.bag 1023).spill = [] ∧ (s.bag 0).spill = [] ∧ s.moves = (1023, 0, 0) :: [] ∧
      ((s.bag 1023).retained = [] ∧ ∀ i ∈ (s.bag 1023).head ++ (s.bag 1023).tail, i.tag = 0) ∧
      16 + 3 * s.spLen 0 - ((s.bag 0).head.length + (s.bag 0).tail.length + (s.bag 0).retained.length) = 1 ∧
      0 + max 1 (s.reg Reg.IMG_DRAINT).toNat * 200000 ≤ s.now ∧ ¬(800001 + max 1 (s.reg Reg.IMG_DRAINT).toNat * 200000 ≤ s.now) := by
  refine ⟨none_waits _ _ (by decide), by decide, by decide +kernel, by decide +kernel, by decide, by decide +kernel, by decide +kernel,
    by decide +kernel, by decide +kernel⟩
/-- Domains on, of which those of a list are in their hold-off since microsecond 4000. -/
def powered (on : Word) (held : List Nat) (rs : List (Nat × Word)) : State :=
  { withRegs base ([(Reg.PWR_ON 0, on), (Reg.PWR_ON 1, on), (Reg.PWR_ON 2, on), (Reg.PWR_ON 3, on), (Reg.PWR_HOLDOFF, 1000)] ++ rs) with
    holdOff := held.map fun n => (n, 4000), dies := [] }
theorem met_DomainsSwitch :
    let s := powered 0xFFFF [0, 54, 55] []
    let t := powered 0 [] [(Reg.PWR_HVOTE 0, 1), (Reg.PWR_FORCE 3, 0x00E0)]
    (Claims.isOn s 55 = true ∧ s.kept 55 = false ∧ s.holdOff.find? 55 = some 4000 ∧ 4000 + (s.reg Reg.PWR_HOLDOFF).toNat ≤ s.refUs) ∧
      (Claims.isOn s 54 = true ∧ s.kept 54 = false) ∧ (s.kept 53 = false ∧ s.holdOff.find? 53 = none ∧ Claims.isOn s 53 = true) ∧
      (s.kept 0 = false ∧ s.kept 44 = false) ∧ (t.kept 0 = true ∧ t.kept 55 = true ∧ t.kept 53 = true ∧ Claims.isOn t 55 = false ∧ Claims.isOn t 0 = false) ∧
      (powered 0xFFFF [] [(Reg.PWR_HOLDOFF, 1001)]).refUs < 4000 + ((powered 0xFFFF [] [(Reg.PWR_HOLDOFF, 1001)]).reg Reg.PWR_HOLDOFF).toNat := by
  decide +kernel
/-- Rail 7 feeds sorting rail 3, with exponent −12 and level 5 requested of at most 6. -/
def levelled (pl : Word) (r : List (Nat × PlRun)) (rs : List (Nat × Word)) : State :=
  { withRegs base ([(Reg.PMB_CFG 7, 0x8304), (Reg.PMB_EXP 7, 0x14), (Reg.PWR_PLMAX 3, 6), (Reg.PWR_PL 3, pl), (Reg.PWR_PLTOUT, 1000), (Reg.PWR_VTOL, 10)] ++ rs)
    with plRuns := r }
theorem met_LevelsChange :
    let s := levelled 0x8033 [(3, ⟨5, 800000⟩)] []
    Calm s ∧ Claims.railOf s 3 7 ∧ Reaches s 130 (Reg.PWR_PLREQ 3) ∧ (s.reg (Reg.PWR_PLMAX 3)).toNat % 8 = 6 ∧ s.sleep = none ∧
      bit (s.reg (Reg.PWR_PL 3)) 15 = true ∧ (levelled 0x33 [] []).reg (Reg.PWR_PL 3) = Claims.plWord false 0 3 3 ∧
      s.plRuns.find? 3 = some ⟨5, 800000⟩ ∧ s.reg (Reg.PWR_PL 3) = Claims.plWord true 0 3 3 ∧
      800000 + max 100 (s.reg Reg.PWR_PLTOUT).toNat * 200 ≤ s.now ∧ ¬(800001 + max 100 (s.reg Reg.PWR_PLTOUT).toNat * 200 ≤ s.now) ∧
      (levelled 0x33 [] []).plRuns.find? 3 = none := by
  refine ⟨calm_of _ (by decide), ?_, ⟨by decide +kernel, by decide +kernel, by decide +kernel⟩, by decide +kernel⟩
  unfold Claims.railOf; decide +kernel
theorem met_LevelsChange_near :
    let s := levelled 0x8033 [(3, ⟨5, 800000⟩)] []
    let scale := 2 ^ (32 - (s.reg (Reg.PMB_EXP 7)).toNat % 32)
    let near := fun (v : Nat) => v * 1000 ≤ (Claims.millivolts 5 + 10) * scale ∧ (Claims.millivolts 5 - 10) * scale ≤ v * 1000
    near 3236 ∧ near 3317 ∧ ¬near 3235 ∧ ¬near 3318 := by decide +kernel
/-- The worked example of the spec: 0.8 V at exponent −12 is 0CCDh; READ_VOUT 0CCCh ends the transition. -/
theorem test_level_example :
    let s := withRegs base [(Reg.PMB_CFG 1, 0x8302), (Reg.PMB_EXP 1, 0x14), (Reg.PWR_PLMAX 1, 7), (Reg.PWR_VTOL, 10)]
    let t := out (exec (.pwrPlreqGo 130 1 0x8005) s)
    let u := out (exec (.voutInTolerance 1 0x0CCC) t)
    (t.pmbCmd.find? 1, u.reg (Reg.PWR_PL 1)) = (some (0x21, 0x0CCD), 0x0055) := by decide +kernel
theorem met_RailsPolled :
    let s := withRegs base [(Reg.PMB_CFG 7, 0x8305), (Reg.PMB_CFG 6, 0x8301), (Reg.PWR_POLL, 5)]
    let due := fun (s : State) (k : Nat) => s.polled.getD k 0 + max 1 ((s.reg Reg.PWR_POLL).toNat % 256) * 200000 ≤ s.now
    Reaches s 130 (Reg.PMB_CTL 7) ∧ (s.reg (Reg.PMB_CFG 7)).toNat % 16 ≠ 0 ∧ due s 7 ∧ ¬due (s.setReg Reg.PWR_POLL 6) 7 ∧
      (s.reg (Reg.PMB_CFG 5)).toNat % 16 = 0 ∧ ¬(1 ≤ (s.reg (Reg.PMB_CFG 7)).toNat % 16 ∧ (s.reg (Reg.PMB_CFG 7)).toNat % 16 ≤ 4) := by
  refine ⟨?_, by decide +kernel⟩
  constructor <;> decide +kernel

/-! ## Sleep and wake -/

/-- A state of the AON block: a phase, registers, an entry and a wake in progress. -/
def aon (p : Phase) (rs : List (Nat × Word)) (r : Option SleepRun) (w : Option WakeRun) : State :=
  { withRegs base ([(Reg.PWR_ON 0, 0), (Reg.PWR_ON 1, 0), (Reg.PWR_ON 2, 0), (Reg.PWR_ON 3, 0)] ++ rs) with phase := p, sleep := r, wake := w, aonTime := 5000 }
def entry (target step : Nat) (stop : Option (Bool × Nat × Nat)) : SleepRun :=
  { target := target, step := step, start := 800000, fromMode := 3, time := 1, stop := stop, dropped := [] }
def woken : WakeRun := { fromSealed := true, source := 1, detail := 0, seen := 0, lp := false }
theorem met_WakeSources :
    let cfg := [(Reg.AON_WAKECFG, (0x7002 : Word)), (Reg.AON_WTIMEL, 5000), (Reg.AON_WAKEGPIOH, 0x8000), (Reg.AON_WAKEENC, 0x0800)]
    let s := { aon .dormant cfg none none with gpioWake := 0x80000000, encWake := [(11, 2)] }
    (s.sleep = none ∧ s.phase = .dormant) ∧ (aon .isSealed [] none none).phase = .isSealed ∧ (aon .isSealed [] none none).mem.wf = true ∧
      (aon (.waking 2) [] none (some woken)).wake = some woken ∧ (aon .awake [] (some (entry 1 1 none)) none).sleep = some (entry 1 1 none) ∧
      (bit (s.reg Reg.AON_WAKECFG) 14 = true ∧ (s.aonTime % 4294967296 + 4294967296 - ((s.reg Reg.AON_WTIMEL).toNat +
        65536 * (s.reg Reg.AON_WTIMEH).toNat)) % 4294967296 < 2147483648) ∧
      ¬((4999 + 4294967296 - 5000) % 4294967296 < 2147483648) ∧
      (bit (s.reg Reg.AON_WAKECFG) 13 = true ∧ s.gpioWake.getLsbD 31 = true ∧ bit (s.reg Reg.AON_WAKEGPIOH) (31 % 16) = true) ∧
      (bit (s.reg Reg.AON_WAKECFG) 12 = true ∧ bit (s.reg Reg.AON_WAKEENC) 11 = true ∧ max 1 ((s.reg Reg.AON_WAKECFG).toNat % 256) ≤ s.encWake.getD 11 0) := by
  decide +kernel
theorem met_SleepEntry_park :
    let s := aon .awake [(Reg.AON_D1TOUT, 1000)] (some (entry 1 1 (some (true, 9, 1)))) none
    let t := (aon .awake [(Reg.AON_D1TOUT, 1000), (Reg.PWR_ON 3, 0x0020)] (some (entry 2 1 none)) none).setClerk 128 { sup with halted := true }
    s.sleep = some (entry 1 1 (some (true, 9, 1))) ∧ Calm s ∧ (∀ c, c < 130 → Claims.isOn s (clerkDom c) = false) ∧
      (s.plRuns = [] ∧ s.envelope.state ≠ .applying) ∧ 800000 + max 1 (s.reg Reg.AON_D1TOUT).toNat * 200 ≤ s.now ∧
      ((t.clerk 129).halted = false ∧ t.domOn (clerkDom 129) = true ∧ t.dieRuns (clerkDie 129) = true) ∧ t.parkedForSleep 129 = false ∧
      (∀ e, e < 129 → t.parkedForSleep e = true) := by
  refine ⟨by decide, calm_of _ (by decide), by decide +kernel, by decide +kernel, by decide +kernel, by decide +kernel, by decide +kernel, by decide +kernel⟩
theorem met_SleepEntry_drain :
    let s := aon .awake [] (some (entry 2 2 none)) none
    let hole := { s with holes := [(63, { Hole.reset with state := .releasing })] }
    let port := { s with zports := [(7, { ZPort.reset with flight := some 0 })] }
    let box := { s with outbox := { Outbox.reset with lists := [(0, [{ e := Sheet.zero, tag := 0, late := false }])] } }
    (s.bags = [] ∧ s.savedBags = []) ∧ (hole.hole 63).state = .releasing ∧ (∀ q, q < 63 → ¬((hole.hole q).state = .busy ∨ (hole.hole q).state = .releasing)) ∧
      (∀ p, p < 64 → ¬((s.hole p).state = .busy ∨ (s.hole p).state = .releasing)) ∧ (port.zport 7).flight ≠ none ∧
      (∀ q, q < 7 → ¬((port.zport q).flight ≠ none)) ∧ (∀ q, q < 8 → ¬((s.zport q).flight ≠ none)) ∧ box.outbox.count + box.outbox.spCount ≠ 0 ∧
      ¬(s.outbox.count + s.outbox.spCount ≠ 0) ∧ s.arrivals = [] ∧ s.msgs = [] ∧ Msg.entry 0 Sheet.zero ∈ ({ s with msgs := [.entry 0 Sheet.zero] } : State).msgs := by
  refine ⟨by decide, by decide, by decide +kernel, by decide +kernel, by decide, by decide +kernel, by decide +kernel, by decide, by decide, by decide,
    by decide, ?_⟩
  exact List.mem_singleton.mpr rfl
theorem met_SleepEntry_last :
    let s := { aon .awake [(Reg.DDR_CHSTAT 3, 2)] (some (entry 1 4 none)) none with pads := [(0x13F, 0x8000)] }
    (∀ c, s.groupCalled c = false) ∧ s.padEn (0x100 + 63) = true ∧ field (s.reg (Reg.CH_CFG 63)) 9 2 < 2 ∧ s.ddrState 3 = 2 ∧
      (2 ≤ (entry 1 2 none).step ∧ (entry 1 5 none).step ≤ 5) := by
  refine ⟨fun c => ?_, by decide +kernel⟩
  simp only [State.groupCalled, State.pendingFor, State.clerkParcel, State.bagWakes, State.bagsOf]
  rfl
theorem met_WakeSteps :
    let s := { aon (.waking 5) [] none (some woken) with bankSigs := [(127, 0)] }
    Calm s ∧ s.bankSigs = [((127 : Fin 128).val, 0)] ∧ woken.fromSealed = true ∧ s.strapBoot = 0 ∧ s.savedBags = [] ∧
      (linked 18 { Link.reset with state := .train }).linking = true := by
  refine ⟨calm_of _ (by decide), ?_⟩
  decide +kernel
theorem met_AonCommands : Reaches base 129 Reg.AON_CTL := by
  constructor <;> decide +kernel
theorem test_sync_latches :
    (let t := out (exec (.aonCtlSync 130) { base with aonTime := 0x123456789ABC })
     (t.reg Reg.AON_SYNCTL, t.reg (Reg.AON_SYNCTL + 2), t.reg Reg.AON_SYNCAXL)) = (0x9ABC#16, 0x1234#16, 5000#16) := by decide +kernel

/-! ## The host interface -/

/-- The link is trained. -/
def hosting (rs : List (Nat × Word)) : State :=
  { withRegs base ([(Reg.PWR_ON 3, 0x0004), (Reg.HOST_CFG, 0x80FF)] ++ rs) with pcie := { Pcie.reset with perst := true, bme := true, msixEn := true } }
theorem met_Bar0Accesses :
    let s := hosting []
    let t := hosting [(routeKey 255 3, 0x8000)]
    s.live = true ∧ Calm s ∧ Claims.barsOpen s ∧ (s.hostQ = [] ∧ s.hostOut = []) ∧ Claims.hostRt s = 255 ∧
      s.hasStamp 0 (Claims.hostRt s) 0 = true ∧ t.hasStamp 0 (Claims.hostRt t) 0 = false ∧ Claims.writable 0x4106 = some 0xFFFF ∧
      s.reg 0x4106 &&& ~~~0xFFFF = 0 ∧ (portDie Reg.OB_SPLEN ≠ 0 ∧ s.portFault 0 Reg.OB_SPLEN = none ∧ s.undeliverable (portDie Reg.OB_SPLEN) 0 = none) ∧
      (∃ e, s.portFault 0 0x7900 = some e) ∧ ({ s.pcie with pend := [0, 63] } : Pcie).pend.Nodup := by
  refine ⟨by decide, calm_of _ (by decide), by unfold Claims.barsOpen; decide +kernel, by decide, by decide +kernel, by decide +kernel, by decide +kernel,
    by decide +kernel, by decide +kernel, by decide +kernel, ?_, by decide⟩
  exact Option.isSome_iff_exists.mp (by decide +kernel)
/-- The reply of DISPATCH to a read of the host has come to HUB. -/
def answered : State := { hosting [] with msgs := [.portReply 130 7 [5] false], hostOut := [.await 7, .last] }
theorem met_HostReplies :
    let s := hosting []
    Claims.Arrives answered (Claims.replyTo 130) (.portReply 130 (7 : DieId).val [5] false) (got answered (Claims.replyTo 130) (.portReply 130 7 [5] false)) ∧
      answered.live = true ∧ Calm answered ∧ answered.hostOut = [.await (7 : DieId).val, .last] ∧
      (let u := { s with pcie := { s.pcie with d3 := true } }; u.linkTrained = true ∧ u.pcie.d3 = true) ∧ base.linkTrained = false :=
  ⟨arrives_of _ _ _ (by decide +kernel), by decide, calm_of _ (by decide), by decide, by decide +kernel, by decide +kernel⟩
/-- The BAR4 window is open onto a HOST region. -/
def window4 (rs : List (Nat × Word)) : State :=
  hosting ([(Reg.PWR_ON 3, 0x001C), (Reg.HOST_W4CFG, 0x8000), (Reg.DDR_CFG, 1), (Reg.DDR_CAPL, 0x1000), (Reg.DDR_RGN_CFG 7, 0xD000), (Reg.DDR_RGN_LENL 7, 1)] ++ rs)
theorem met_Bar4AndBar2 :
    let s := window4 []
    let t := window4 [(routeKey 255 3, 0x8000)]
    let b := Claims.window s 0xFFFC0
    (s.linkTrained = true ∧ s.pcie.d3 = false ∧ s.hostQ = [] ∧ s.hostOut = [] ∧ Claims.isOn s (51 + (s.ddrLocal (b / 2)).1 / 2) = true) ∧
      (bit (s.reg Reg.HOST_W4CFG) 15 = true ∧ b + 64 ≤ 2 * s.ddrCap) ∧ (0 < 64 ∧ b % 64 + 64 ≤ 64) ∧ s.hasStamp 0 (Claims.hostRt s) 1 = true ∧
      t.hasStamp 0 (Claims.hostRt t) 1 = false ∧ (b / 64) ∉ s.ddrBad ∧ (s.rgnKind 7 = some 5 ∧ s.rgnBase 7 ≤ (b + 63) / 2 ∧ (b + 63) / 2 < s.rgnBase 7 + s.rgnLen 7) ∧
      ¬(bit ((hosting []).reg Reg.HOST_W4CFG) 15 = true) ∧ ¬(s.rgnBase 7 + s.rgnLen 7 ≤ 0x7FFFF) ∧ 131071 + [0].length ≤ 131072 ∧
      (let u := { s with hostBoot := true, phase := .starting 3 }
       u.loadReady = true ∧ u.phase ≠ .awake) := by decide +kernel
/-- Pigeonhole 63 in a state. -/
def hole63 (h : Hole) (rs : List (Nat × Word)) (tag : Word) : State :=
  { (hosting ([(Reg.PH_CFG 63, 0xFF00), (Reg.PH_MB 63, 0x0C05)] ++ rs)).poke (0x70000000000 + 2048 * 63) tag with holes := [(63, h)] }
theorem met_Pigeonholes :
    let h : Hole := { Hole.reset with state := .idle, key := 1, lastTag := 9, ltValid := true }
    let s := hole63 h [] 10
    let busy := hole63 { h with state := .busy, tag := 10, start := 0 } [(Reg.HOST_PHTOUT, 5)] 10
    (s.linkTrained = true ∧ s.pcie.d3 = false) ∧ (s.hostQ = [] ∧ (s.hostBoot = false ∨ s.phase = .awake)) ∧ Calm s ∧ (s.hole 63).state = .idle ∧ ¬((s.hole 63).ltValid = true ∧ s.peek (0x70000000000 + 2048 * 63) = (s.hole 63).lastTag) ∧
      (hole63 h [] 9).peek (0x70000000000 + 2048 * 63) = h.lastTag ∧ s.hasStamp 0 (Claims.hostRt s) 0 = true ∧
      (isSort (bagDie (Claims.bagOf (s.reg (Reg.PH_MB 63)))) = true ∧ s.undeliverable 0 (bagDie (Claims.bagOf (s.reg (Reg.PH_MB 63)))) = none) ∧
      (let u := hole63 h [(Reg.PH_MB 63, 5), (Reg.MB_CFG 5, 0x8000)] 10
       Claims.bagOf (u.reg (Reg.PH_MB 63)) < 128 ∧ bit (u.reg (Reg.MB_CFG 5)) 15 = true ∧ (u.bag 5).head = []) ∧
      (busy.peek (0x70000000000 + 2048 * 63) = (busy.hole 63).tag ∧ 0 < (busy.reg Reg.HOST_PHTOUT).toNat ∧ 0 + (busy.reg Reg.HOST_PHTOUT).toNat * 200000 ≤ busy.now) ∧
      (let f := hole63 Hole.reset [] 0
       (f.hole 63).state = .free ∧ bit (f.reg (Reg.PH_CFG 63)) 15 = true ∧ bit (0x7FFF : Word) 15 = false ∧ (0x7FFF : Word).toNat % 32768 ≠ 0) ∧
      (bit (0x8001 : Word) 15 = true ∧ h.key = (0x8001 : Word).toNat % 32768) ∧ ((0xEF3F : Word).toNat % 64 = 63 ∧ (0xEF3F : Word).toNat / 256 < 0xF0) ∧
      field ((0xFF00 : Word) >>> 0) 8 6 = 63 ∧ (s.clerk 129).ep = false := by
  refine ⟨by decide +kernel, by decide, calm_of _ (by decide), by decide +kernel⟩
/-- Transfer channel 31, as configured. -/
def transfer (rs : List (Nat × Word)) : State :=
  hosting ([(Reg.PWR_ON 3, 0x001C), (Reg.DDR_CFG, 1), (Reg.DDR_CAPL, 0x1000), (Reg.XF_LENL 31, 4), (Reg.XF_STAT 31, 1)] ++ rs)
theorem met_TransfersAndLink :
    let s := transfer []
    (Claims.xfSt s 31 = 1 ∧ (∀ e, e < 32 → Claims.xfSt s e = 1 → (e + 31 - s.pcie.xfLast) % 32 < (31 + 31 - s.pcie.xfLast) % 32 → e = 31)) ∧
      s.pcie.xfLast < 32 ∧ s.linkTrained = true ∧ (Claims.isOn s 51 = true ∧ Claims.isOn s 52 = true) ∧ bit (s.reg (routeKey (field (s.reg (Reg.XF_CFG 31)) 0 8) 3)) 15 = false ∧
      Claims.xfDone s 31 < Claims.xfLen s 31 ∧ Claims.xfTo s 31 % 64 = 0 ∧ Claims.xfFrom s 31 % 32 = 0 ∧ Claims.xfTo s 31 + 64 * Claims.xfLen s 31 ≤ 2 ^ 64 ∧
      s.ddrCap ≤ 2 ^ 38 ∧ Claims.xfFrom s 31 + 32 * 4 ≤ s.ddrCap ∧ (∀ i, i < 2 → (0 + i) ∉ s.ddrBad) ∧
      (let t := transfer [(Reg.XF_STAT 31, 0)]
       ¬(Claims.xfSt t 31 = 1) ∧ Claims.xfLen t 31 ≠ 0 ∧ ¬(Claims.xfFrom t 31 % 32 ≠ 0 ∨ t.ddrCap < Claims.xfFrom t 31 + 32 * Claims.xfLen t 31) ∧ t.pcie.bme = true) ∧
      (Claims.xfFrom (transfer [(Reg.XF_SRCL 31, 1)]) 31 % 32 ≠ 0 ∧ Claims.xfTo (transfer [(Reg.XF_DST 31 0, 32)]) 31 % 64 ≠ 0 ∧
        Claims.xfLen (transfer [(Reg.XF_LENL 31, 0)]) 31 = 0) ∧
      (let u := { s with pcie := { s.pcie with pend := [63], tab := [(255, 0)] } }
       u.pcie.msixEn = true ∧ u.pcie.fmask = false ∧ 63 ∈ u.pcie.pend ∧ (u.pcie.tabWord (4 * 63 + 3)).getLsbD 0 = false) ∧
      base.linkTrained = false ∧ (s.envelope.state ≠ .applying ∧ ({ s.envelope with author := 130 } : Envelope).author = 130) := by decide +kernel

/-! ## Countersign and postage -/

/-- An envelope in a state, of HOST. -/
def signing (st : EnvState) (es : List EnvEntry) (used : List Nat) : State :=
  let e : Envelope := { Envelope.reset with state := st, author := 130, entries := es, code := 0x00050004, start := 0, window := 5, used := used }
  { withRegs base [(Reg.CS_NONCEL, 7)] with envelope := e,
                                            stage := [(ownKey 128 (Reg.CS_SIGN 0), 7), (ownKey 128 (Reg.CS_SIGN 2), 4)] }
theorem met_Envelopes :
    let s := signing .staging (List.replicate 64 ⟨0, 0x4106, 0⟩) []
    s.live = true ∧ Calm s ∧ (s.envelope.state ≠ .idle ∧ s.envelope.author = (130 : Requester).val) ∧ 64 ≤ s.envelope.entries.length ∧
      (base.envelope.state = .idle ∧ base.envelope.used.length ≤ 16) ∧ ¬(s.envelope.author = (128 : Requester).val) ∧ (signing .staging [] []).envelope.entries.length < 64 ∧
      s.envelope.start + s.envelope.window * 200000 ≤ s.now := by
  refine ⟨by decide, calm_of _ (by decide), by decide +kernel⟩
theorem met_Countersigns :
    let s := signing .sealedFor [⟨0, 0x4106, 1⟩, ⟨0, 0x4301, 0⟩] []
    let w := fun (i : Nat) => (s.stage.getD (ownKey 128 (Reg.CS_SIGN i)) 0).toNat
    s.live = true ∧ Calm s ∧ isParty (128 : Requester).val = true ∧ w 0 + 65536 * w 1 = Claims.nonceOf s ∧ w 2 + 65536 * (5 : Word).toNat = s.envelope.code ∧
      s.envelope.author ≠ 128 ∧ s.inService 0 = true ∧ Claims.plainEntry ⟨0, 0x4106, 1⟩ 0xFFFF ∧ 7 ∈ (signing .idle [] [7]).envelope.used ∧
      w 2 + 65536 * (6 : Word).toNat ≠ s.envelope.code ∧ s.envelope.entries = [⟨0, 0x4106, 1⟩] ++ ⟨0, 0x4301, 0⟩ :: [] := by
  refine ⟨by decide, calm_of _ (by decide), by decide +kernel, by decide +kernel, by decide +kernel, by decide, by decide +kernel, ⟨rfl, by decide⟩, by decide,
    by decide +kernel, by decide⟩
theorem met_Countersigns_causes :
    let s := base.setReg Reg.DEVICE_DIES 0xF7
    Claims.failing s ⟨0xC000, 0, 0⟩ 4 ∧ Claims.failing s ⟨0, 0x40FF, 0⟩ 1 ∧ Claims.failing s ⟨0x8002, 0x520, 0⟩ 1 ∧ Claims.failing s ⟨0, 0x4321, 0⟩ 2 ∧
      Claims.failing s ⟨0x9800, 0x520, 0⟩ 5 ∧ Claims.failing s ⟨0, 0x45FC, 0x5000⟩ 3 := by
  refine ⟨.inl ⟨rfl, .inl (by decide)⟩, .inr (.inl ⟨rfl, rfl, by decide⟩), .inr (.inr (.inl ⟨rfl, by decide, by decide, by decide, by decide⟩)),
    .inr (.inr (.inr (.inl ⟨rfl, rfl, by decide⟩))), .inr (.inr (.inr (.inr (.inl ⟨rfl, by decide, by decide, by decide, by decide, by decide +kernel⟩)))),
    .inr (.inr (.inr (.inr (.inr ⟨rfl, rfl, by decide⟩))))⟩
theorem met_Countersigns_apply :
    (signing .applying [⟨0, 0x4106, 1⟩] []).envelope.entries ≠ [] ∧ (255 : Word).toNat < 256 ∧ isSort 6 = true ∧
      (base.setReg Reg.DEVICE_DIES 0xBF).inService 6 = false := by decide +kernel
/-- Route 255 is metered with one stamp on an axis, in rounds of 1000. -/
def metered (cfg : Word) (rs : List (Nat × Word)) (ms : List (Nat × Meter)) : State :=
  { withRegs base ([(routeKey 255 3, cfg), (routeKey 255 4, 1000), (routeKey 255 6, 1), (routeKey 255 7, 1)] ++ rs) with meters := ms }
theorem met_Postage_rounds :
    let s := metered 0x8F00 [] [(512 * 7 + 510, { Meter.reset with used := 1, rndMax := 4 })]
    let len := max 1 ((s.reg (routeKey 255 4)).toNat + 65536 * (s.reg (routeKey 255 5)).toNat)
    let rounds := (2 ^ 32 + len - 1) / len
    field (s.reg (routeKey 255 3)) 8 4 = 15 ∧ (s.meter 7 255 0).rndMax = 4 ∧ (s.meter 7 255 0).rndMax < rounds ∧
      (let ahead := (s.refUs % 2 ^ 32 / len + rounds - (s.meter 7 255 0).rndMax) % rounds; 1 ≤ ahead ∧ ahead ≤ (rounds - 1) / 2) ∧
      (let ahead := (s.refUs % 2 ^ 32 / len + rounds - 5) % rounds; ¬(1 ≤ ahead)) ∧ field ((metered 0x8000 [] []).reg (routeKey 255 3)) 8 4 = 0 ∧
      (base.replica 3 0).stale = true ∧ ({ base with replicas := [(48, { Replica.reset with stale := false, state := 2 })] } : State).replica 3 0 = { Replica.reset with stale := false, state := 2 } ∧
      s.axRounds 0 = false := by decide +kernel
/-- Two waiters at one meter, of which clerk 128 was served last: it is clerk 129's turn. -/
def rivals : State :=
  let k := waitingFor .postage (.outi 128 0 (BitVec.ofNat 16 Reg.PST_SEL) 5)
  let j := waitingFor .postage (.outi 129 0 (BitVec.ofNat 16 Reg.PST_SEL) 5)
  { (clerkAt 128 k).setClerk 129 j with served := [(0, 128)] }
theorem met_Postage_turns :
    Calm base ∧ rivals.waitsAt (.clerk 128) = some (0, 0, 0) ∧ rivals.waitsAt (.clerk 129) = some (0, 0, 0) ∧ rivals.hasStamp 0 0 0 = true ∧
      Claims.turn rivals (0, 0, 0) 129 ∧ 129 ≠ waiterPlace (.clerk 128) := by
  refine ⟨calm_of _ (by decide), by decide +kernel, by decide +kernel, by decide +kernel, by unfold Claims.turn; decide +kernel, by decide⟩
/-- The host waits with a write at the meter that camera 15 of INT1's bursts use, and it is the host's turn. -/
def hostWaits : State := { hosting [] with hostQ := [.portWrite 65535 1] }
theorem met_Postage_calm_turns :
    Calm hostWaits ∧ Claims.turn hostWaits (0, 255, 0) 162 ∧ hostWaits.waitsAt .host = some (0, 255, 0) ∧ 162 ≠ waiterPlace (.camera 1 15) := by
  refine ⟨calm_of _ (by decide), by unfold Claims.turn; decide +kernel, by decide +kernel, by decide⟩
theorem met_Postage_clerk :
    let i : Instr := .outi 128 0 (BitVec.ofNat 16 Reg.PST_SEL) 5
    let s := noStamps (waitingFor .postage i)
    let t := clerkAt 128 (waitingFor .postage i)
    Claims.writing s i = some (128, 3, Reg.PST_SEL, 5, fun k => k) ∧ Claims.WaitsWith s 128 .postage i 3 ∧ s.hasStamp 0 (s.clerkRoute 128) 0 = false ∧
      Claims.WaitsWith t 128 .postage i 3 ∧ t.hasStamp 0 (t.clerkRoute 128) 0 = true ∧ Claims.turn t (0, t.clerkRoute 128, 0) 128 ∧ (t.clerk 128).ep = false := by
  refine ⟨rfl, waits_of _ _ _ _ _ (by decide +kernel) (by decide +kernel), by decide +kernel,
    waits_of _ _ _ _ _ (by decide +kernel) (by decide +kernel), by decide +kernel, by unfold Claims.turn; decide +kernel, by decide +kernel⟩
/-- Camera 15 of INT1 waits with a sheet, or a burst. -/
def camWaits (m : List (Nat × Meter)) (x : CamItem) : State :=
  { metered 0x8000 [(Reg.PWR_ON 3, 0x0018)] m with cams := [(31, { Cam.reset with out := [x] })] }
theorem met_Postage_camera :
    let spent := camWaits [(512 * 2 + 510, { Meter.reset with used := 1 })] (.sheet 255 0x280 Sheet.zero)
    let s := camWaits [] (.sheet 255 0x280 Sheet.zero)
    let b := camWaits [] (.burst 255 0 (List.replicate 32 0))
    (Calm spent ∧ (spent.cam 1 15).out = [.sheet 255 0x280 Sheet.zero] ∧ spent.hasStamp 2 255 0 = false) ∧
      (isSort (bagDie 0x280) = true ∧ s.undeliverable 2 (bagDie 0x280) = none ∧ s.hasStamp 2 255 0 = true ∧ Claims.turn s (2, 255, 0) 161) ∧
      ((b.cam 1 15).out = [.burst 255 0 (List.replicate 32 0)] ∧ b.hasStamp 0 255 1 = true ∧ Claims.turn b (0, 255, 1) 161 ∧ b.undeliverable 2 0 = none ∧
        Claims.isOn b (51 + (b.ddrLocal 0).1 / 2) = true ∧ b.ddrBad = []) ∧
      (camWaits [(511, { Meter.reset with used := 1 })] (.burst 255 0 [])).hasStamp 0 255 1 = false := by
  refine ⟨⟨calm_of _ (by decide), by decide +kernel⟩, ?_, ?_, by decide +kernel⟩ <;> (simp only [Claims.turn]; decide +kernel)
theorem met_Postage_host :
    hostWaits.hostQ = [.portWrite 65535 1] ∧ Calm hostWaits ∧ hostWaits.hasStamp 0 (Claims.hostRt hostWaits) 0 = true ∧
      Claims.turn hostWaits (0, Claims.hostRt hostWaits, 0) 162 ∧ Calm base ∧ base.hostQ = [] := by
  refine ⟨by decide, calm_of _ (by decide), by decide +kernel, by unfold Claims.turn; decide +kernel, calm_of _ (by decide), by decide⟩
/-- The spec's check values of CRC-32 and CRC-16 over words of the digits. -/
theorem test_crc32 : Claims.crc32 [0x3231, 0x3433, 0x3635, 0x3837] = 0x9AE0DAAF := by decide +kernel
theorem test_crc16 : Claims.crc [0x3132, 0x3334, 0x3536, 0x3738] = 0xA12B := by decide +kernel

/-! ## Structure image and repair -/

/-- A slice of die `d` in the image at key `k`: a FABRIC section without routes, with its digest (computed outside the package). -/
def sliced (s : State) (k d : Nat) : State :=
  ((s.pokes (k + 48 + 32 * d + 6) [4096, 0, 24]).pokes (k + 48 + 32 * d + 16)
    [0xB055, 0x128E, 0xC0B9, 0x0468, 0xC01D, 0x4962, 0xC20F, 0xB18E,
     0x2E77, 0x58F8, 0xFBB6, 0x28BF, 0x4B05, 0xF6DE, 0xE21A, 0x3BFD]).pokes (k + 2048) ([2, 0, 16, 0] ++ List.replicate 8 0xFFFF)
/-- An image signed with the P-256 key 5G, with one slice for HUB (made outside the package). -/
def signed : List (Nat × Word) :=
  [ (0, 0x5649), (1, 0x534b), (2, 0x1), (3, 0x1), (12, 0x1002), (16, 0x5951), (17, 0x7a0b), (18, 0x5151), (19, 0xd240), (20, 0x84d7), (21,
   0x56c8), (22, 0x6608), (23, 0xdf8f), (24, 0x8cef), (25, 0xfd82), (26, 0x5b1f), (27, 0x24e5), (28, 0x5521), (29, 0xd4a), (30, 0xd0c3),
   (31, 0xed33), (32, 0xc1e0), (33, 0xa87d), (34, 0x4a90), (35, 0x7d72), (36, 0xe18a), (37, 0x36bf), (38, 0x8abf), (39, 0x2679), (40,
   0x10d), (41, 0x2f), (42, 0xd8d4), (43, 0x8808), (44, 0xd0d1), (45, 0x44bb), (46, 0xa1fd), (47, 0xa46d), (54, 0x1000), (56, 0x2), (64,
   0xa296), (65, 0xd296), (66, 0xf224), (67, 0xc685), (68, 0xee7b), (69, 0xc393), (70, 0x8a0f), (71, 0x9130), (72, 0xf057), (73, 0xa3da),
   (74, 0xc55d), (75, 0x7eb8), (76, 0xb41), (77, 0x6378), (78, 0x90a), (79, 0xc7cf), (480, 0x538e), (481, 0x6f3b), (482, 0xbfa0), (483,
   0x467b), (484, 0xbb25), (485, 0x6630), (486, 0x17c), (487, 0x60fb), (488, 0xf97e), (489, 0xb8f8), (490, 0xfa8), (491, 0x5bef), (492,
   0x630), (493, 0x7028), (494, 0x8731), (495, 0xa3b2), (496, 0xee79), (497, 0x655f), (498, 0x9066), (499, 0x6306), (500, 0x259d), (501,
   0xea73), (502, 0x323a), (503, 0x997a), (504, 0x59db), (505, 0x665b), (506, 0x4d74), (507, 0xfa9a), (508, 0x8647), (509, 0x1eb), (510,
   0x4bf8), (511, 0x5733) ]
/-- Its key is the one of the part's fuses, which no proof sees, and its signature is good: so it is, by a run of a minute. -/
def Trusted (s : State) (b : Nat) : Prop :=
  let key := s.peeks (b + 16) 32
  Config.otpKeyHash = some (sha256 key) ∧ ecdsaOk key (s.peeks (b + 480) 32) (sha256 (s.peeks b 480)) = true
/-- An IMAGE region of two banks; IMG_STAT; a repair. -/
def imaging (stat : Word) (rs : List (Nat × Word)) (r : Option RepairRun) : State :=
  { withRegs base ([(Reg.PWR_ON 3, 0x0018), (Reg.DDR_CFG, 1), (Reg.DDR_CAPL, 0x1000), (Reg.DDR_RGN_CFG 0, 0x8000), (Reg.DDR_RGN_LENL 0, 2), (Reg.IMG_STAT, stat), (Reg.IMG_LENL, 1),
    (Reg.IMG_SRCL, 0), (Reg.IMG_SRCM, 0x0020)] ++ rs) with repair := r }
theorem met_ImageCommands :
    let s := imaging 0x0100 [] none
    s.live = true ∧ Calm s ∧ field (s.reg Reg.IMG_STAT) 0 3 = 0 ∧ field ((imaging 1 [] none).reg Reg.IMG_STAT) 0 3 ≠ 0 ∧ s.reg Reg.IMG_DIEBANK = 0 ∧
      (imaging 0 [(Reg.IMG_DIEBANK, 2)] none).reg Reg.IMG_DIEBANK ≠ 0 ∧ bit (s.reg Reg.IMG_STAT) 8 = true ∧
      (∀ d, d < 8 → ∀ i, i < 16 → s.peek (Claims.bankAt s 0 + 48 + 32 * d + 16 + i) = s.peek (Claims.bankAt s 1 + 48 + 32 * d + 16 + i)) := by
  refine ⟨by decide, calm_of _ (by decide), by decide +kernel⟩
/-- It stands in memory to be staged. -/
def staging : State := { imaging 1 [(Reg.IMG_LENL, 2)] none with mem := signed.map fun e => (ddrKey 0x200000 + e.1, e.2) }
theorem met_ImageCommands_good (h : Trusted staging (ddrKey 0x200000)) :
    let b := ddrKey (Claims.stageFrom staging)
    field (staging.reg Reg.IMG_STAT) 0 3 = 1 ∧ Claims.stageReadable staging ∧ Claims.headerGood staging b ∧ Claims.mixes staging b ∧
      Claims.bankAt staging (1 - Claims.active staging) + Claims.word2 staging b 12 / 2 ≤ b := by
  have e : Claims.stageFrom staging = 0x200000 := by decide +kernel
  rw [e]
  refine ⟨by decide +kernel, ⟨by decide +kernel, by decide +kernel, by decide +kernel, by decide +kernel, ?_⟩, ⟨by decide +kernel, h.1, h.2, by decide +kernel⟩,
    ?_, by decide +kernel⟩
  · intro u hu; cases hu
  · unfold Claims.mixes; decide +kernel
/-- An image that may be read but has no header. -/
theorem met_ImageCommands_stage :
    let s := imaging 1 [] none
    field (s.reg Reg.IMG_STAT) 0 3 = 1 ∧ Claims.stageReadable s ∧ s.formatOk (ddrKey (Claims.stageFrom s)) = false ∧ ¬Claims.headerGood s (ddrKey (Claims.stageFrom s)) := by
  have hf : (imaging 1 [] none).formatOk (ddrKey (Claims.stageFrom (imaging 1 [] none))) = false := by decide +kernel
  refine ⟨by decide +kernel, ⟨by decide +kernel, by decide +kernel, by decide +kernel, by decide +kernel, ?_⟩, hf, ?_⟩
  · intro u hu; cases hu
  · intro h
    rw [h.1] at hf; cases hf
theorem met_HostLoads :
    let s := { hosting [] with hostBoot := true, phase := .starting 3 }
    s.live = true ∧ Calm s ∧ s.loadReady = true ∧ (64 : Word).toNat % 128 = 64 ∧ ¬((65 : Word).toNat % 128 ≤ 64) ∧ base.loadReady = false := by
  refine ⟨by decide, calm_of _ (by decide), by decide +kernel⟩
def repair : RepairRun := { fromMode := 4, at_ := 0, staged := false, wasOut := false, listed := false }
/-- A repair of SORT3 at a step. -/
def repairing (k : Nat) (r : RepairRun) (rs : List (Nat × Word)) : State :=
  imaging 0 ((Reg.IMG_RPSTAT, BitVec.ofNat 16 (4096 * k + 0x0E00)) :: rs) (some r)
theorem met_RepairDrains :
    let s := repairing 3 repair [(Reg.PWR_ON 2, 0), (Reg.IMG_DRAINT, 5), (Reg.PWR_ON 1, 0)]
    s.live = true ∧ Calm s ∧ Claims.Repairing s repair 6 3 ∧ (∀ c, c < 128 → clerkDie c = 6 → s.parkedForSleep c = true) ∧
      ¬(∀ c, c < 128 → clerkDie c = 6 → (repairing 3 repair [(Reg.PWR_ON 2, 0xFFFF)]).parkedForSleep c = true) ∧
      0 + max 1 (s.reg Reg.IMG_DRAINT).toNat * 200000 ≤ s.now ∧ s.fallback 6 true = [] ∧ s.fallback 6 false = [] ∧ s.moves = [] ∧ s.envelope.state ≠ .applying ∧
      Reaches s 130 Reg.IMG_RPCTL ∧ s.starting = false ∧ (s.inService 6 = true ∧ (repairing 7 repair [(Reg.DEVICE_DIES, 0xBF)]).inService 6 = false) ∧
      Claims.Repairing (repairing 7 repair [(Reg.DEVICE_DIES, 0xBF)]) repair 6 7 := by
  refine ⟨by decide, calm_of _ (by decide), by (unfold Claims.Repairing; decide +kernel), by decide +kernel, ?_, by decide +kernel,
    no_lists _ (by decide +kernel) _ _, no_lists _ (by decide +kernel) _ _, by decide, by decide, ⟨by decide, by decide +kernel, by decide +kernel⟩,
    by decide, by decide +kernel, by (unfold Claims.Repairing; decide +kernel)⟩
  intro h
  exact absurd (h 127 (by decide) (by decide)) (by decide +kernel)
theorem met_RepairDrains_first :
    let s := repairing 1 { repair with staged := true } []
    let held := (repairing 1 { repair with staged := true } [(Reg.IMG_STAT, 0x0100)]).poke (ddrKey (524288 + 48 + 32 * 6 + 8)) 1
    Claims.Repairing s { repair with staged := true } 6 1 ∧ bit (s.reg Reg.DEVICE_MODE) 4 = false ∧ ¬(bit (s.reg Reg.IMG_STAT) 8 = true) ∧
      (bit (held.reg Reg.IMG_STAT) 8 = true ∧ Claims.word2 held (Claims.bankAt held (1 - Claims.active held)) (48 + 32 * 6 + 8) ≠ 0) ∧
      (bit ((repairing 1 repair [(Reg.DEVICE_MODE, 0x16)]).reg Reg.DEVICE_MODE) 4 = true) := by
  refine ⟨by (unfold Claims.Repairing; decide +kernel), by decide +kernel⟩
/-- The later steps; the OUT list that waits, and one applied 20 µs ago and not. -/
theorem met_RepairDrains_steps :
    (∀ k : Fin 11, 1 ≤ k.val → Claims.Repairing (repairing k.val repair []) repair 6 k.val) ∧
      Claims.Repairing (repairing 4 { repair with listed := true } []) { repair with listed := true } 6 4 ∧
      ({ repair with listed := true } : RepairRun).at_ + 4000 ≤ base.now ∧ base.now < ({ repair with at_ := 999999 } : RepairRun).at_ + 4000 ∧
      (signing .applying [] []).envelope.state = .applying ∧ (repairing 4 repair []).fallback 6 true = [] ∧ repair.listed = false ∧
      ({ repairing 5 repair [] with moves := [(1, 2, 0)] } : State).moves ≠ [] := by
  refine ⟨?_, ?_, by decide, by decide, by decide, no_lists _ (by decide +kernel) _ _, by decide, by decide⟩ <;>
    (unfold Claims.Repairing; decide +kernel)
/-- Whether the loader's route has a stamp. -/
theorem met_loader :
    (imaging 1 [] none).phase = .awake ∧ Claims.loaderMay (imaging 1 [] none) ∧ ¬Claims.loaderMay (imaging 1 [(routeKey 0 3, 0x8000)] none) ∧
      ¬Claims.loaderMay (repairing 7 repair [(routeKey 0 3, 0x8000)]) ∧ Claims.isOn (imaging 1 [] none) 51 = true ∧
      Claims.isOn (imaging 1 [] none) 52 = true := by
  simp only [Claims.loaderMay, Claims.loaderRt]; decide +kernel
theorem met_RepairReadmits :
    let s := { sliced (repairing 7 repair []) (ddrKey 0) 6 with dies := base.dies.set 6 { Die.reset with state := .reset } }
    let bad := s.poke (ddrKey 2048) 5
    Claims.Repairing s repair 6 7 ∧ s.hasSlice (s.bankKey 0) 6 = true ∧ (s.die 6).state ≠ .out ∧ (s.configureDie 6 0).2 = 0 ∧
      (s.loaderPays (s.sliceBursts 0 6)).isSome ∧ field (s.reg Reg.IMG_STAT) 0 3 ≠ 1 ∧
      (bad.digestOk (bad.bankKey 0) 6 = false ∧ bad.ddrBad = []) ∧
      (let u := repairing 9 repair []
       Claims.Repairing u repair 6 9 ∧ u.inService 6 = true ∧ u.envelope.state ≠ .applying ∧ u.fallback 6 false = [] ∧ u.linking = false) ∧
      (let v := repairing 10 repair []
       Claims.Repairing v repair 6 10 ∧ v.moves = [] ∧ Claims.Repairing (repairing 8 repair []) repair 6 8) := by
  refine ⟨by (unfold Claims.Repairing; decide +kernel), by decide +kernel, by decide +kernel, by decide +kernel, by decide +kernel, by decide +kernel,
    ⟨by decide +kernel, by decide⟩,
    ⟨by (unfold Claims.Repairing; decide +kernel), by decide +kernel, by decide, no_lists _ (by decide +kernel) _ _, by decide +kernel⟩,
    by (unfold Claims.Repairing; decide +kernel), by decide, by (unfold Claims.Repairing; decide +kernel)⟩

/-! ## Resets and start-up -/

theorem met_Resets :
    let off := { base with phase := .off }
    (off.phase = .off ∧ off.vaon = true) ∧ ({ off with vaon := false } : State).vaon = false ∧ base.live = true ∧ Calm base ∧
      ((7 : DieId).val ≠ 0 ∧ base.phase = .awake ∧ base.repairing = false) ∧ (base.die 7).state ≠ .out ∧
      (signing .applying [] []).envelope.state = .applying := by
  refine ⟨by decide, by decide, by decide, calm_of _ (by decide), by decide +kernel⟩
theorem met_Resets_loads :
    let u := fun (s : State) => (s.clearDie 7).modReg Reg.DEVICE_DIES fun w => putField w 7 1 0
    let v := fun (s : State) => ((u s).loaderPays ((u s).sliceBursts (Claims.active s) 7)).getD (u s)
    let p := base.setReg (Reg.PWR_ON 3) 0x0018
    ((v (sliced base (ddrKey 0) 7)).configureDie 7 0).2 = 0 ∧ Claims.active base = 0 ∧ (v p).configureDie 7 0 = (v p, 2) ∧
      (({ base with dies := base.dies.set 7 { Die.reset with state := .out } } : State).die 7).state = .out := by decide +kernel
/-- Start-up at step J`k`. -/
def booting (k : Nat) (boot : Nat) (rs : List (Nat × Word)) : State := { withRegs base rs with phase := .starting k, strapBoot := boot }
theorem met_StartUpLoads :
    let s := booting 3 1 []
    let h := { booting 3 1 [] with hostBoot := true, hostLoad := { got := 512, last := false, err := false } }
    let m := ((booting 3 2 []).poke (flashKey 0) 0x5649).poke (flashKey 1) 0x534B
    Calm s ∧ s.phase = .starting 3 ∧ s.hostBoot = false ∧ ¬(s.peek (Claims.bootImage s) = 0x5649) ∧
      (h.hostBoot = true ∧ 512 ≤ h.hostLoad.got ∧ h.formatOk (Claims.bootImage h) = false) ∧
      (m.peek (Claims.bootImage m) = 0x5649 ∧ m.peek (Claims.bootImage m + 1) = 0x534B ∧ m.formatOk (Claims.bootImage m) = false) ∧ m.strapBoot = 2 := by
  refine ⟨calm_of _ (by decide), by decide +kernel⟩
theorem met_StartUpLoads_slices :
    let s := booting 4 1 []
    let long := (s.poke (flashKey 48) 0xFFFF).poke (flashKey 49) 0xFFFF
    (s.sliceOff (Claims.bootImage s) 0 + s.sliceLen (Claims.bootImage s) 0 / 2 ≤ 2097152) ∧ long.hostBoot = false ∧ (booting 4 2 []).strapBoot = 2 := by
  decide +kernel
theorem met_StartUpLoads_hub :
    let s := sliced (booting 4 1 []) (flashKey 0) 0
    ∃ u, s.loadSlice (flashKey 0) 0 = some u ∧ s.digestOk (flashKey 0) 0 = true ∧ u.imgTotal (flashKey 0) / 2 ≤ u.bankWords ∧ Calm u := by
  intro s
  obtain ⟨u, hu⟩ := Option.isSome_iff_exists.mp (show (s.loadSlice (flashKey 0) 0).isSome = true by decide +kernel)
  have hb : ((s.loadSlice (flashKey 0) 0).all fun u => decide (u.imgTotal (flashKey 0) / 2 ≤ u.bankWords) &&
      (u.fbPend.isEmpty && u.clerks.all fun e => e.2.waiting.isNone)) = true := by decide +kernel
  rw [hu, Option.all_some, Bool.and_eq_true] at hb
  exact ⟨u, hu, by decide +kernel, of_decide_eq_true hb.1, calm_of u hb.2⟩
theorem met_StartUpLoads_good (h : Trusted { booting 3 1 [] with mem := signed.map fun e => (flashKey 0 + e.1, e.2) } (flashKey 0)) :
    Claims.headerGood { booting 3 1 [] with mem := signed.map fun e => (flashKey 0 + e.1, e.2) } (flashKey 0) :=
  ⟨by decide +kernel, h.1, h.2, by decide +kernel⟩
theorem met_StartUpLoads_memory :
    let s := booting 5 1 [(Reg.DDR_CFG, 0x000F)]
    let t := booting 6 1 []
    (s.reg Reg.DDR_CFG).toNat % 16 = 15 ∧ s.phase = .starting 5 ∧ t.hostBoot = false ∧ Claims.word2 t (Claims.bootImage t) 12 / 2 ≤ 2 ^ 27 ∧
      (Claims.bootImage t + Claims.word2 t (Claims.bootImage t) 12 / 2 ≤ t.bankKey 0 ∨ t.bankKey 0 + Claims.word2 t (Claims.bootImage t) 12 / 2 ≤ Claims.bootImage t) := by
  decide +kernel
theorem met_StartUpBringsUp :
    let s := booting 7 1 [(Reg.PMB_CFG 0, 0x8301), (Reg.PMB_CFG 1, 0x8302), (Reg.PMB_CFG 2, 0x8303), (Reg.PMB_CFG 3, 0x8304)]
    let only := { booting 8 1 [] with dies := (List.range 8).map fun d => (d, if d = 7 then { Die.reset with state := .reset } else { Die.reset with state := .out }) }
    let slice := sliced only (ddrKey 0) 7
    Calm s ∧ (∀ n, n < 4 → (s.sortRail n).isSome) ∧ only.wake = none ∧ (∀ e, 1 ≤ e → e < 8 → e ≠ 7 → (only.die e).state = .out) ∧ (only.die 7).state ≠ .out ∧
      only.hasSlice (only.bankKey 0) 7 = false ∧ (slice.hasSlice (slice.bankKey 0) 7 = true ∧ (slice.configureDie 7 0).2 = 0) ∧
      (let u := booting 9 1 []
       u.linking = false ∧ (∀ d, 1 ≤ d → d < 8 → (u.die d).state = .inService)) ∧
      (let v := { booting 9 1 [] with dies := base.dies.set 7 { upDie with state := .train } }
       v.linking = false ∧ (v.die 7).state = .train ∧ (∀ e, 1 ≤ e → e < 8 → e ≠ 7 → (v.die e).state = .inService)) ∧
      (booting 10 1 []).envelope.state ≠ .applying ∧ (booting 11 1 []).globalEvs.getD 0x7A GlobalEv.reset = GlobalEv.reset ∧
      Claims.eventsGo (booting 11 1 []) 0 := by
  have up : ∀ d, d < 8 → ((booting 9 1 []).die d).state = .inService := by decide +kernel
  have outs : ∀ e, e < 8 → e ≠ 7 → (({ booting 8 1 [] with dies := (List.range 8).map fun d => (d, if d = 7 then { Die.reset with state := .reset } else { Die.reset with state := .out }) } : State).die e).state = .out := by
    decide +kernel
  have ups : ∀ e, e < 8 → e ≠ 7 → (({ booting 9 1 [] with dies := base.dies.set 7 { upDie with state := .train } } : State).die e).state = .inService := by
    decide +kernel
  refine ⟨calm_of _ (by decide), by decide +kernel, by decide, fun e _ h8 h7 => outs e h8 h7, by decide +kernel, by decide +kernel, by decide +kernel,
    ⟨by decide +kernel, fun d _ h8 => up d h8⟩, ⟨by decide +kernel, by decide +kernel, fun e _ h8 h7 => ups e h8 h7⟩, by decide, by decide +kernel,
    by unfold Claims.eventsGo; decide +kernel⟩

theorem met_StartUpBringsUp_digest :
    let only := { booting 8 1 [(Reg.PWR_ON 3, 0x0018)] with dies := (List.range 8).map fun d => (d, if d = 7 then { Die.reset with state := .reset } else { Die.reset with state := .out }) }
    let s := (sliced only (ddrKey 0) 7).poke (ddrKey 2048) 3
    s.hasSlice (s.bankKey 0) 7 = true ∧ s.configureDie 7 0 = (s, 2) := by decide +kernel

/-! ## Faults, service and debug -/

/-- A fault event under a configuration, its window with a count. -/
def faulty (cfg : Word) (w : FaultWin) (m : Msg) : State :=
  { withRegs base [(Reg.FW_CFG 2, cfg), (Reg.FW_WIN 2, 5)] with msgs := [m], faultWins := [(65536 * 2 + 65535, w)] }
theorem met_FaultsCount :
    let w : FaultWin := { start := 1, count := 2, lasting := false }
    let s := faulty 3 w (.fwEvent 2 65535)
    let p := fun m : Msg => match m with | .fwEvent _ _ => true | _ => false
    s.live = true ∧ Claims.Arrives s p (.fwEvent 2 65535) (got s p (.fwEvent 2 65535)) ∧ Claims.windowOf s 2 65535 = w ∧ ¬Claims.newWindow s 2 65535 ∧
      max 1 ((s.reg (Reg.FW_CFG 2)).toNat % 256) ≤ w.count + 1 ∧ bit (s.reg (Reg.FW_CFG 2)) 15 = false ∧
      s.globalEvs.getD 0x7B GlobalEv.reset = GlobalEv.reset ∧ Claims.eventsGo (got s p (.fwEvent 2 65535)) 0 ∧
      Claims.newWindow (faulty 3 { w with start := 0 } (.fwEvent 2 65535)) 2 65535 := by
  refine ⟨by decide, arrives_of _ _ _ rfl, by decide +kernel, ?_, by decide +kernel, by decide +kernel, by decide +kernel, ?_, ?_⟩
  · unfold Claims.newWindow; decide +kernel
  · unfold Claims.eventsGo; decide +kernel
  · unfold Claims.newWindow; decide +kernel
theorem met_FaultsCount_letter :
    let s := faulty 3 FaultWin.reset (.dead 17 7 [])
    let p := fun m : Msg => match m with | .dead _ _ _ => true | _ => false
    Claims.Arrives s p (.dead 17 7 []) (got s p (.dead 17 7 [])) := arrives_of _ _ _ rfl
theorem met_FaultsCount_restart :
    let k : Clerk := { sup with halted := true }
    let open' : Clerk := inEpoch k
    bit (0x8081 : Word) 15 = true ∧ Claims.restartClerk 0x8081 = 129 ∧ ((clerkAt 129 k).clerk 129).halted = true ∧ ((clerkAt 129 k).clerk 129).dbgHalt = false ∧
      (∀ i, i < 4 → ((clerkAt 129 k).clerk 129).slotOpen i = false) ∧
      ((clerkAt 129 open').bags = [] ∧ (clerkAt 129 open').msgs = [] ∧ open'.journal = [] ∧ open'.old = some 0 ∧ open'.deferred = none ∧
        (open'.slot 0).gen < 128 ∧ ∀ j, j < 4 → open'.slotOpen j = (j == 0)) := by decide +kernel
theorem met_Digest :
    let s := { base with digestMs := 4 }
    (s.phase = .awake ∧ s.digestMs ≠ s.now / 200000) ∧ ({ s with digestMs := 5 } : State).digestMs = s.now / 200000 ∧
      (let t := { aon .dormant [] none none with digest := List.replicate 128 0 }
       t.digest.length = 128 ∧ Claims.digestWord t 24 = some 5000 ∧ t.digest.getD 24 0 = 0) ∧
      (let u := { aon .isSealed [] none none with digest := List.replicate 128 0, aonTime := 0 }
       ∀ i, i < 30 → 16 ≤ i → Claims.digestWord u i = some (u.digest.getD i 0)) := by decide +kernel
theorem met_DebugPort :
    let free := clerkAt 129 sup
    let held := clerkAt 129 { sup with dbgHalt := true }
    Claims.control free ∧ (free.clerk 129).halted = false ∧ (free.clerk 129).dbgHalt = false ∧ (held.clerk 129).dbgHalt = true ∧
      (clerkAt 129 (waitingFor .token (.nop 129))).live = true ∧ ({ sup with shadow := [{ left := 1, change := .lm 0 }] } : Clerk).haltable = false ∧
      (free.clerk 129).waiting = none ∧ (free.clerk 129).rep = none ∧ (free.clerk 129).shadow = [] ∧ (held.clerk 129).deferred = none ∧
      ((0x10F : Word).toNat < 0x110 ∧ ¬((0x110 : Word).toNat < 0x110)) ∧ (Claims.dbgSet sup 0x8F 1).isSome ∧ ((0x200F ^^^ (0x200F : Word)) &&& (0x6C00 : Word) = 0) ∧
      ((0x7FFF : Word).toNat < 0x8000 ∧ (0xFFF : Word).toNat < 0x1000) ∧ ¬Claims.control (inMode 4) := by
  unfold Claims.control; decide +kernel
theorem test_idcode : (out (exec .idcode base)).tap.idcode = some 0x2964074B := by decide
theorem test_debug_step_address :
    ((out (exec (.wrreg 0 0xFC 0xFFFF) (clerkAt 0 { sup with dbgHalt := true, pc := 0x12345 }))).clerk 0).pc = 0xF2345 := by decide +kernel

/-! ## The invariant -/

theorem met_InvariantKept : Claims.Inv base ∧ step { base with pending := [.dsync 0] } = exec (.dsync 0) base := by
  refine ⟨⟨?_, by decide, by decide⟩, rfl⟩
  unfold Sound; decide

end Sys2Proof.Tests
end

section
/-!
# Broadcasts (O35, R46 to R50, R267)

`Obligations.Broadcasts` fails. Its first clause promises every parcel of a broadcast sample whose die is in service and reachable,
but two places hold whether a die is out: DEVICE_DIES.IN, which the clause and `State.undeliverable` read, and the die's own state,
which a router reads as it sends a parcel on (R262). The statement assumes only that the state is live, not that the two agree. Where
they differ, a later parcel of the same sample that crosses the same first link and is dropped beyond it has the frames before it
accepted (R258), and the router behind that link drops the promised parcel.
-/
open Sys2Proof Sys2Proof.Machine
namespace Sys2Proof.BroadcastSample

/-- A broadcast sample of the running device is the axis unit's (R46). -/
theorem exec_broadcastSample {s : State} (h : s.live = true) : exec .broadcastSample s = .next s.broadcastSample := by
  show Host.Outcome.next (s.whileLive fun t => t.broadcastSample) = _
  rw [State.whileLive, if_pos h]

/-- A die past bring-up, in the given state. -/
def dieIn (st : DieState) : Die := { Die.reset with state := st, phase := 5, running := true }

/-- Broadcast of axis 0 alone is on, and DEVICE_DIES has every die in service, but die 3's own state is out. DISPATCH sends over its
link to die 4 (link 16) what is for die 3, which goes on over link 11, and for die 5, which cannot go on: link 12 alone is down. -/
def outButListed : State :=
  { State.reset with
    phase := .awake
    regs := [(Reg.DEVICE_DIES, 0x00FF), (Reg.AX_BCAST_CFG, 0x8000), (Reg.AX_BCAST_MASK, 0x0001)]
    dies := (List.range 8).map fun d => (d, dieIn (if d = 3 then .out else .inService))
    links := (List.range 19).map fun l => (l, { Link.reset with state := if l = 12 then .down else .up })
    routes := [(8 * 7 + 3, 16), (8 * 7 + 5, 16)] }

theorem outButListed_live : outButListed.live = true := rfl

/-- A broadcast is due at `outButListed`, and nothing holds it back. -/
theorem outButListed_samples :
    bit (outButListed.reg Reg.AX_BCAST_CFG) 15 = true ∧ outButListed.bePause = none ∧ outButListed.inService 7 = true ∧
      outButListed.paused = false ∧ outButListed.bcLast = none := by decide +kernel

/-- Axis 0 is in the mask, and die 3 counts as in service and reachable from DISPATCH. -/
theorem outButListed_reaches_die3 :
    bit (outButListed.reg Reg.AX_BCAST_MASK) 0 = true ∧ outButListed.inService 3 = true ∧
      outButListed.undeliverable 7 3 = none := by decide +kernel

/-- Is it a broadcast parcel for die `d`? -/
def isBcastTo (d : Nat) : Msg → Bool
  | .bcast e _ _ => e == d
  | _ => false

/-- The sample leaves no parcel for die 3: the one it sent is dropped at die 4 as the parcel for die 5 crosses link 16 behind it. -/
theorem outButListed_loses_die3 : outButListed.broadcastSample.msgs.any (isBcastTo 3) = false := by decide +kernel

/-- Refutes O35: at `outButListed` the parcel of axis 0 for die 3, promised by the first clause, is not among the messages. -/
theorem not_broadcasts : ¬ Obligations.Broadcasts := by
  intro h
  obtain ⟨sampled, -⟩ := h outButListed outButListed_live
  obtain ⟨hon, hpause, hdispatch, hawake, hlast⟩ := outButListed_samples
  obtain ⟨hmask, hservice, hway⟩ := outButListed_reaches_die3
  obtain ⟨t, -, -, -, -, ht, -, -, promised⟩ :=
    sampled hon hpause hdispatch hawake fun u hu => by rw [hlast] at hu; cases hu
  rw [exec_broadcastSample outButListed_live] at ht
  obtain rfl := Host.Outcome.next.inj ht
  exact List.any_eq_false.mp outButListed_loses_die3 _
    (promised 3 0 (.inr rfl) hservice (by decide) hmask hway) rfl

end Sys2Proof.BroadcastSample
end

section
/-!
# Repetitions (O17, R117 to R123, R154)

The clerk behind REPI or REPU enters the instruction's repetition at once (`clerkInsn_repeating`). From there the four parts part ways:
a count of 0 is `repDone_only`; PREFIX is an exception entry (`takeException_entry`); and a REPU of an instruction that acts on W and S
registers alone (`RegInsn`) runs by induction on the count (`repRun_inRepu`). The products that each iteration moves on do not
touch those registers, so the iterations compose as the statement's fold does.
-/
open Sys2Proof Sys2Proof.Machine
namespace Sys2Proof.Repetition

/-! ## Retire (R76, R114, R119) -/

/-- Outstanding products move on, and nothing else of the clerk (R114). -/
theorem tickProducts_only (k : Clerk) : ∃ pl ph spl sph mp sp,
    k.tickProducts = { k with pl := pl, ph := ph, spl := spl, sph := sph, mulPend := mp, smulPend := sp } := by
  unfold Clerk.tickProducts
  dsimp only
  repeat' split
  all_goals exact ⟨_, _, _, _, _, _, rfl⟩

/-- A retire counts, and brings every pending mode change one instruction nearer. -/
theorem retireInsn_only (s : State) (c : Nat) :
    OnlyClerk s (s.retireInsn c) c ∧ (s.retireInsn c).clerk c =
      { s.clerk c with shadow := (s.clerk c).shadow.map fun (m : Shadow) => { m with left := m.left - 1 } } := by
  unfold State.retireInsn
  dsimp only
  generalize (s.reg2 (Reg.PCNT_RETL c) (Reg.PCNT_RETM c) + 2 ^ 32 * (s.reg (Reg.PCNT_RETH c)).toNat + 1) % 2 ^ 48 = n
  have counted : OnlyClerk s ((s.setReg2 (Reg.PCNT_RETL c) (Reg.PCNT_RETM c) (n % 2 ^ 32)).setReg (Reg.PCNT_RETH c) (wordOf n 2)) c :=
    ((OnlyClerk.setReg _ _ _ _ (counterKey_RET _ _ (.inl rfl))).trans
      (.setReg _ _ _ _ (counterKey_RET _ _ (.inr (.inl rfl))))).trans (.setReg _ _ _ _ (counterKey_RET _ _ (.inr (.inr rfl))))
  generalize hu : (s.setReg2 (Reg.PCNT_RETL c) (Reg.PCNT_RETM c) (n % 2 ^ 32)).setReg (Reg.PCNT_RETH c) (wordOf n 2) = u at counted
  have hc : u.clerk c = s.clerk c := by subst hu; rfl
  obtain ⟨o2, c2⟩ := State.pcnt_only u c 0x02 1
  split
  · obtain ⟨o3, c3⟩ := State.pcnt_only (u.pcnt c 0x02 1) c 0x10 1
    exact ⟨((counted.trans o2).trans o3).trans (.modClerk ..), by rw [State.clerk_modClerk_self, c3, c2, hc]⟩
  · exact ⟨(counted.trans o2).trans (.modClerk ..), by rw [State.clerk_modClerk_self, c2, hc]⟩

theorem clerk_retireInsn {s : State} {c : Nat} (h : (s.clerk c).shadow = []) : (s.retireInsn c).clerk c = s.clerk c := by
  rw [(retireInsn_only s c).2, h]
  cases hk : s.clerk c
  simp_all

/-- No mode change pends and debug asks for no stop, so that nothing follows a retire. -/
structure Unstopped (k : Clerk) : Prop where
  noShadow : k.shadow = []
  noStep : k.stepping = false
  noHalt : k.haltReq = false

theorem afterUnit_unstopped {s : State} {c : Nat} (h : Unstopped (s.clerk c)) : s.afterUnit c = s := by
  simp [State.afterUnit, h.noStep, h.noHalt]

/-- The repetition ends, and both instructions retire as one (R119). -/
theorem repDone_only {s : State} {c : Nat} (len : Nat) (h : Unstopped (s.clerk c)) :
    OnlyClerk s (s.repDone c len) c ∧
      (s.repDone c len).clerk c = { s.clerk c with rep := none, pc := (s.clerk c).next len } := by
  let u := s.modClerk c fun x => { x with rep := none, pc := (s.clerk c).next len }
  have hu : u.clerk c = { s.clerk c with rep := none, pc := (s.clerk c).next len } := State.clerk_modClerk_self ..
  have hc : (u.retireInsn c).clerk c = { s.clerk c with rep := none, pc := (s.clerk c).next len } :=
    (clerk_retireInsn (by rw [hu]; exact h.noShadow)).trans hu
  have e : s.repDone c len = u.retireInsn c :=
    afterUnit_unstopped (s := u.retireInsn c) (by rw [hc]; exact ⟨h.noShadow, h.noStep, h.noHalt⟩)
  rw [e]
  exact ⟨(OnlyClerk.modClerk ..).trans (retireInsn_only u c).1, hc⟩

/-! ## The repeated instruction issues (R154) -/

/-- The clerk once the instruction to repeat has issued: the token of its REPI or REPU covers it (R154). -/
def covered (k : Clerk) : Clerk := { k with entry := none, grant := none, loadBuf := [], lastLoad := [] }

theorem repForbids_covered (k : Clerk) (i : Instr) : repForbids (covered k) i = repForbids k i := rfl

/-- The clerk's own counters and the line cache do not move its instruction window. -/
theorem fetchable_of_onlyClerk {s u : State} {c len : Nat} (h : OnlyClerk s u c) (hpc : (u.clerk c).pc = (s.clerk c).pc) :
    u.fetchable c len = s.fetchable c len := by
  obtain ⟨-, regs, -⟩ := h
  exact State.fetchable_congr hpc (regs _ (counterKey_IWIN c))

/-- An instruction whose words lie in the window, under a repetition, enters that repetition. -/
theorem runInsn_repeated {s : State} {c : Nat} {i : Instr} {x : RepState} (rep : (s.clerk c).rep = some x)
    (fetch : s.fetchable c (insnLen i) = true) : ∃ u, OnlyClerk s u c ∧
      u.clerk c = { s.clerk c with waiting := none, grant := none, loadBuf := [], lastLoad := [] } ∧
      s.runInsn c i none false = u.runRepeated c i x none false := by
  let a := s.modClerk c fun k => { k with waiting := none, grant := none, loadBuf := [], lastLoad := [] }
  let u := a.fetchLines c (insnLen i)
  obtain ⟨hau, hua⟩ := State.fetchLines_only a c (insnLen i)
  have hu : OnlyClerk s u c := (OnlyClerk.modClerk ..).trans hau
  have huc : u.clerk c = { s.clerk c with waiting := none, grant := none, loadBuf := [], lastLoad := [] } :=
    hua.trans (State.clerk_modClerk_self ..)
  have hf : u.fetchable c (insnLen i) = true := (fetchable_of_onlyClerk hu (by rw [huc])).trans fetch
  have hr : (u.clerk c).rep = some x := by rw [huc]; exact rep
  refine ⟨u, hu, huc, ?_⟩
  show (if !(u.fetchable c (insnLen i)) then _ else _) = _
  simp only [hf, Bool.not_true, Bool.false_eq_true, ↓reduceIte]
  show (match (u.clerk c).rep with
    | none => State.finish c i false (insnBody i none u)
    | some r => u.runRepeated c i r none false) = _
  rw [hr]

theorem clerkInsn_repeating {s : State} {c : Nat} {i : Instr} {x : RepState} (h : Claims.Repeating s c x (insnLen i)) :
    ∃ u, OnlyClerk s u c ∧ u.clerk c = covered (s.clerk c) ∧ s.clerkInsn c i = u.runRepeated c i x none false := by
  obtain ⟨runs, noWait, -, rep, issued, noShadow, fetch, -, -⟩ := h
  let a := s.modClerk c fun k => { k with entry := none }
  have hac : a.clerk c = { s.clerk c with entry := none } := State.clerk_modClerk_self ..
  have enters : s.clerkInsn c i = a.issue c i := by
    simp [State.clerkInsn, runs, noWait, State.shadowEnd_none noShadow, noShadow, a]
  -- event 0Ah may count; no token is taken
  let b := if (insnReads i).any (a.clerk c).lastLoad.contains then a.pcnt c 0x0A 1 else a
  have hb : OnlyClerk s b c ∧ b.clerk c = { s.clerk c with entry := none } := by
    simp only [b]; split
    · exact ⟨(OnlyClerk.modClerk ..).trans (State.pcnt_only ..).1, (State.pcnt_only ..).2.trans hac⟩
    · exact ⟨.modClerk .., hac⟩
  have issues : a.issue c i = b.runInsn c i none false := by
    simp [State.issue, Clerk.issueCovered, hac, rep, issued, b]
  have hf : b.fetchable c (insnLen i) = true := (fetchable_of_onlyClerk hb.1 (by rw [hb.2])).trans fetch
  obtain ⟨u, ho, hc, e⟩ := runInsn_repeated (by rw [hb.2]; exact rep) hf
  exact ⟨u, hb.1.trans ho, by rw [hc, hb.2, covered, ← noWait], by rw [enters, issues, e]⟩

theorem unstopped_of_repeating {s : State} {c len : Nat} {x : RepState} (h : Claims.Repeating s c x len) :
    Unstopped (covered (s.clerk c)) := by
  obtain ⟨-, -, -, -, -, noShadow, -, noStep, noHalt⟩ := h
  exact ⟨noShadow, noStep, noHalt⟩

/-! ## REPI and REPU, and a count of 0 (R117, R119) -/

/-- The clerk with the count `v` latched by the REPI or REPU at its PC (R117, R154). -/
def latch (unint : Bool) (v : Nat) (k : Clerk) : Clerk :=
  { k with
    pc := k.next 1
    rep := some { left := v, unint := unint, pfx := k.pc, started := false, issued := true, tooMany := unint && decide (16 < v) } }

theorem finish_bodyPrefix (u : State) (c : Nat) (i : Instr) (unint again : Bool) (n : RepCount) :
    State.finish c i again (bodyPrefix unint c n u) = u.modClerk c (latch unint (RepCount.value (u.clerk c) n)) := rfl

theorem clerkInsn_prefix {s : State} {c : Nat} {i : Instr} {unint : Bool} {n : RepCount} (h : Ready s c (insnLen i))
    (hb : ∀ u, insnBody i none u = bodyPrefix unint c n u) :
    OnlyClerk s (s.clerkInsn c i) c ∧
      (s.clerkInsn c i).clerk c = latch unint (RepCount.value (s.clerk c) n) (s.clerk c).issued := by
  obtain ⟨u, ho, hc, e⟩ := State.clerkInsn_ready h
  have hv : RepCount.value (u.clerk c) n = RepCount.value (s.clerk c) n := by rw [hc]; rfl
  rw [e, hb, finish_bodyPrefix, hv]
  exact ⟨ho.trans (.modClerk ..), by rw [State.clerk_modClerk_self, hc]⟩

theorem prefixLatches : Claims.PrefixLatches := by
  intro s c n h
  obtain ⟨o1, c1⟩ := clerkInsn_prefix (i := .repi c n) (unint := false) h fun _ => rfl
  obtain ⟨o2, c2⟩ := clerkInsn_prefix (i := .repu c n) (unint := true) h fun _ => rfl
  exact ⟨⟨_, rfl, o1, c1⟩, ⟨_, rfl, o2, c2⟩⟩

theorem countZeroDoesNothing : Claims.CountZeroDoesNothing := by
  intro s i c x hexec noTrap allowed h hleft hmany
  obtain ⟨u, ho, hc, e⟩ := clerkInsn_repeating h
  have hrun : u.runRepeated c.val i x none false = u.repDone c.val (insnLen i) := by
    have allowed' : repForbids (u.clerk c.val) i = false := by rw [hc]; exact (repForbids_covered _ _).trans allowed
    simp [State.runRepeated, noTrap, allowed', hmany, hleft, State.repRun]
  obtain ⟨o2, c2⟩ := repDone_only (s := u) (c := c.val) (insnLen i) (by rw [hc]; exact unstopped_of_repeating h)
  refine ⟨_, hexec s, ?_, ?_⟩
  · rw [e, hrun]; exact ho.trans o2
  · rw [e, hrun, c2, hc]; rfl

/-! ## Exception entry (R115, R130) -/

theorem completeMul_eq (k : Clerk) : k.completeMul = Claims.scalarDone k := by
  unfold Clerk.completeMul Claims.scalarDone
  rcases k.mulPend.getLast? with _ | ⟨_, _, _⟩ <;> rfl

theorem completeSmul_eq (k : Clerk) : k.completeSmul = Claims.sheetDone k := by
  unfold Clerk.completeSmul Claims.sheetDone
  rcases k.smulPend.getLast? with _ | ⟨_, _, _⟩ <;> rfl

/-- Completing the products writes them, and nothing else of the clerk. -/
theorem done_only (k : Clerk) : ∃ pl ph spl sph mp sp, Claims.sheetDone (Claims.scalarDone k) =
    { k with pl := pl, ph := ph, spl := spl, sph := sph, mulPend := mp, smulPend := sp } := by
  unfold Claims.sheetDone Claims.scalarDone
  split <;> split <;> exact ⟨_, _, _, _, _, _, rfl⟩

/-- Where nothing waits there is only the captured answer to give up. -/
theorem dropWaiting_none {k : Clerk} (h : k.waiting = none) : k.dropWaiting = { k with waiting := none, grant := none, loadBuf := [] } := by
  simp [Clerk.dropWaiting, Clerk.loadOut, h, flag]

theorem done_dropWaiting {k : Clerk} (h : k.waiting = none) : k.dropWaiting.completeProducts =
    { Claims.sheetDone (Claims.scalarDone k) with waiting := none, grant := none, loadBuf := [] } := by
  rw [Clerk.completeProducts, completeMul_eq, completeSmul_eq, dropWaiting_none h]
  unfold Claims.sheetDone Claims.scalarDone
  dsimp only
  rcases k.mulPend.getLast? with _ | p <;> rcases k.smulPend.getLast? with _ | q <;> rfl

theorem peek_of_onlyClerk {s t : State} {c : Nat} (h : OnlyClerk s t c) (a : Nat) : t.peek a = s.peek a := by
  obtain ⟨⟨_, _, _, _, rfl, -⟩, -, -⟩ := h
  rfl

theorem onlyClerk_withMem {s t : State} {c : Nat} (h : OnlyClerk s t c) (m : Mem) :
    OnlyClerk { s with mem := m } { t with mem := m } c := by
  obtain ⟨⟨r, ms, cl, lc, rfl, hm⟩, hr, hc⟩ := h
  exact ⟨⟨r, ms, cl, lc, rfl, hm⟩, hr, hc⟩

theorem entry_after {s u t : State} {c : Nat} {k : Clerk} {cause arg : Nat} {epc : CodeAddr} (h : OnlyClerk s u c)
    (e : Claims.Entry u t c k cause arg epc) : Claims.Entry s t c k cause arg epc := by
  obtain ⟨p, mm, ho, hc, frame, rest⟩ := e
  exact ⟨p, mm, (onlyClerk_withMem h mm).trans ho, hc, frame, fun a ha => (rest a ha).trans (peek_of_onlyClerk h a)⟩

/-- A change of STATUS alone draws no key: it writes the clerk, and a flush counts. -/
theorem enterContext_only (s : State) (c : Nat) (st : Word) :
    OnlyClerk s (s.enterContext c st (s.clerk c).ctx) c ∧
      ∃ p, (s.enterContext c st (s.clerk c).ctx).clerk c = { s.clerk c with status := st, pred := p } := by
  unfold State.enterContext
  dsimp only
  simp only [if_true]
  split
  · obtain ⟨o, hc⟩ := State.pcnt_only (s.setClerk c { s.clerk c with status := st, pred := (s.clerk c).pred.flush }) c 0x12 1
    exact ⟨(OnlyClerk.setClerk ..).trans o, _, hc.trans (State.clerk_setClerk_self ..)⟩
  · exact ⟨.setClerk .., _, State.clerk_setClerk_self ..⟩

theorem privKey_frameAddr_inj (c : Nat) (k : Clerk) {i j : Nat} (hi : i < 4) (hj : j < 4) :
    privKey c (Claims.frameAddr k i) = privKey c (Claims.frameAddr k j) ↔ i = j := by
  have := k.isp.isLt
  unfold privKey Claims.frameAddr
  omega

/-- Memory with a frame's four words written, from a clerk that stands as `k` (R130). -/
def frameMem (m : Mem) (c : Nat) (k : Clerk) (pc : CodeAddr) : Mem :=
  (((m.write (privKey c (Claims.frameAddr k 0)) (Claims.frameWord k pc 0)).write
    (privKey c (Claims.frameAddr k 1)) (Claims.frameWord k pc 1)).write
    (privKey c (Claims.frameAddr k 2)) (Claims.frameWord k pc 2)).write
    (privKey c (Claims.frameAddr k 3)) (Claims.frameWord k pc 3)

theorem frameMem_frame (m : Mem) (c : Nat) (k : Clerk) (pc : CodeAddr) {j : Nat} (hj : j < 4) :
    (frameMem m c k pc).read (privKey c (Claims.frameAddr k j)) = Claims.frameWord k pc j := by
  unfold frameMem
  obtain rfl | rfl | rfl | rfl : j = 0 ∨ j = 1 ∨ j = 2 ∨ j = 3 := by omega
  all_goals simp [Mem.read_write, privKey_frameAddr_inj]

theorem frameMem_rest (m : Mem) (c : Nat) (k : Clerk) (pc : CodeAddr) {a : Nat}
    (ha : ∀ j, j < 4 → a ≠ privKey c (Claims.frameAddr k j)) : (frameMem m c k pc).read a = m.read a := by
  simp [frameMem, Mem.read_write, ha]

theorem pushFrame_eq {s : State} {c : Nat} {k : Clerk} (pc : CodeAddr) (hk : s.clerk c = k) :
    s.pushFrame c pc k.status = { s with mem := frameMem s.mem c k pc }.setClerk c { k with isp := k.isp - 4 } := by
  have key (n : Nat) : privKey c (n % 0x8000) = privKey c n := by simp only [privKey, Nat.mod_mod]
  have low (n : Nat) : Claims.mod16 (n : Int) = word n := BitVec.ofInt_natCast 16 n
  subst hk
  simp only [frameMem, Claims.frameAddr, key, Claims.frameWord, low]
  rfl

/-- No exception is being handled, and nothing is in flight or repeated that an exception would squash, give up or resume. -/
structure Interruptible (k : Clerk) : Prop where
  noWait : k.waiting = none
  noWindow : k.window = []
  noShadow : k.shadow = []
  noRep : k.rep = none
  inactive : bit k.excCause 15 = false

/-- The clerk with the cause noted and its products complete, as its frame is pushed (R115, R130). -/
def caused (k : Clerk) (cause arg : Nat) (epc : CodeAddr) : Clerk :=
  { Claims.sheetDone (Claims.scalarDone k) with
    excCause := BitVec.ofNat 16 (0x8000 + 256 * arg + cause), excPc := epc, waiting := none, grant := none, loadBuf := [] }

/-- The entry of an exception once the clerk stands as `k`, the cause noted: frame, STATUS, vector, event 15h (R130). -/
def enterVector (s : State) (c cause : Nat) (epc : CodeAddr) (k : Clerk) : State :=
  ((((s.setClerk c k).pushFrame c epc k.status).enterContext c (excStatus k.status) k.ctx).modClerk c
    fun x => { x with pc := x.excVec + BitVec.ofNat 20 (8 * cause) }).pcnt c 0x15 1

theorem takeException_eq {s : State} {c : Nat} (cause arg : Nat) (epc : CodeAddr) (h : Interruptible (s.clerk c)) :
    s.takeException c cause arg false epc = enterVector s c cause epc (caused (s.clerk c) cause arg epc) := by
  obtain ⟨noWait, noWindow, noShadow, noRep, inactive⟩ := h
  have still : (s.flushShadow c).squash c = s := by simp [State.flushShadow, State.squash, noShadow, noWindow]
  have enters : s.takeException c cause arg false epc = enterVector s c cause epc
      { (s.clerk c).dropWaiting.completeProducts with
        excCause := word (0x8000 + flag false 14 + arg * 256 + cause), excPc := epc, rpt := (s.clerk c).rpt, rep := none } := by
    unfold State.takeException
    simp only [still, inactive, noRep, Bool.false_eq_true, if_false, word, BitVec.or_zero]
    rfl
  have hcause : word (0x8000 + flag false 14 + arg * 256 + cause) = BitVec.ofNat 16 (0x8000 + 256 * arg + cause) := by
    simp [word, flag, Nat.mul_comm]
  obtain ⟨_, _, _, _, _, _, hdone⟩ := done_only (s.clerk c)
  rw [enters, hcause, done_dropWaiting noWait, ← noRep, caused, hdone]

theorem enterVector_spec (s : State) (c cause : Nat) (epc : CodeAddr) (k : Clerk) :
    OnlyClerk { s with mem := frameMem s.mem c k epc } (enterVector s c cause epc k) c ∧
      ∃ p, (enterVector s c cause epc k).clerk c =
        { k with isp := k.isp - 4, status := excStatus k.status, pc := k.excVec + BitVec.ofNat 20 (8 * cause), pred := p } := by
  let a : State := { s with mem := frameMem s.mem c k epc }
  let b := (a.setClerk c k).setClerk c { k with isp := k.isp - 4 }
  have hb : (s.setClerk c k).pushFrame c epc k.status = b := pushFrame_eq epc (State.clerk_setClerk_self ..)
  have hbc : b.clerk c = { k with isp := k.isp - 4 } := State.clerk_setClerk_self ..
  have hbo : OnlyClerk a b c := (OnlyClerk.setClerk a c k).trans (.setClerk ..)
  obtain ⟨hdo, p, hdc⟩ := enterContext_only b c (excStatus k.status)
  rw [hbc] at hdo hdc
  let e := (b.enterContext c (excStatus k.status) k.ctx).modClerk c fun x => { x with pc := x.excVec + BitVec.ofNat 20 (8 * cause) }
  obtain ⟨hto, htc⟩ := State.pcnt_only e c 0x15 1
  have he : enterVector s c cause epc k = e.pcnt c 0x15 1 := by rw [enterVector, hb]
  rw [he]
  exact ⟨hbo.trans ((OnlyClerk.trans hdo (.modClerk ..)).trans hto), p, by rw [htc, State.clerk_modClerk_self, hdc]⟩

theorem takeException_entry {s : State} {c : Nat} (cause arg : Nat) (epc : CodeAddr) (h : Interruptible (s.clerk c)) :
    Claims.Entry s (s.takeException c cause arg false epc) c (s.clerk c) cause arg epc := by
  rw [takeException_eq cause arg epc h]
  obtain ⟨ho, p, ht⟩ := enterVector_spec s c cause epc (caused (s.clerk c) cause arg epc)
  obtain ⟨_, _, _, _, _, _, hdone⟩ := done_only (s.clerk c)
  have key (j : Nat) : Claims.frameAddr (s.clerk c) j = Claims.frameAddr (caused (s.clerk c) cause arg epc) j := by
    rw [caused, hdone]; rfl
  have val (j : Nat) : Claims.frameWord (s.clerk c) epc j = Claims.frameWord (caused (s.clerk c) cause arg epc) epc j := by
    rw [caused, hdone]; rfl
  refine ⟨p, _, ho, ?_, fun j hj => ?_, fun a ha => ?_⟩
  · rw [ht, caused, Claims.entered, hdone]; rfl
  · rw [peek_of_onlyClerk ho, key, val]
    exact frameMem_frame s.mem c _ epc hj
  · rw [peek_of_onlyClerk ho]
    exact frameMem_rest s.mem c _ epc fun j hj => key j ▸ ha j hj

/-! ## Results of the register instructions (R137 to R139, R150) -/

theorem mod16_toNat (a : Word) : Claims.mod16 a.toNat = a := by
  simp [Claims.mod16]
theorem add_eq_mod16 (a b : Word) : a + b = Claims.mod16 (a.toNat + b.toNat) := by
  simp [Claims.mod16, BitVec.ofInt_add]
theorem sub_eq_mod16 (a b : Word) : a - b = Claims.mod16 (a.toNat - b.toNat) := by
  simp [Claims.mod16, sub_eq_add_neg, BitVec.ofInt_add, BitVec.ofInt_neg]
theorem add_word_eq_mod16 (a : Word) (n : Nat) : a + word n = Claims.mod16 (a.toNat + n) := by
  simp [Claims.mod16, word, BitVec.ofInt_add]
theorem sub_word_eq_mod16 (a : Word) (n : Nat) : a - word n = Claims.mod16 (a.toNat - n) := by
  simp [Claims.mod16, word, sub_eq_add_neg, BitVec.ofInt_add, BitVec.ofInt_neg]
theorem not_eq_mod16 (a : Word) : ~~~a = Claims.mod16 (65535 - a.toNat) := by
  have top : BitVec.allOnes 16 - a = Claims.mod16 (65535 - a.toNat) := sub_eq_mod16 (BitVec.allOnes 16) a
  rw [← top, BitVec.allOnes_sub_eq_not]
theorem neg_eq_mod16 (a : Word) : 0 - a = Claims.mod16 (0 - a.toNat) := by
  simp [Claims.mod16, BitVec.ofInt_neg]
theorem shlW_eq_mod16 (a : Word) (n : Nat) : shlW a n = Claims.mod16 (a.toNat * 2 ^ n) := by
  apply BitVec.eq_of_toNat_eq
  rw [shlW, Claims.mod16, BitVec.toNat_shiftLeft, Nat.shiftLeft_eq]
  norm_cast
theorem shrW_eq_mod16 (a : Word) (n : Nat) : shrW a n = Claims.mod16 (a.toNat / 2 ^ n) := by
  have quotient : ((a.toNat : Int) / 2 ^ n) = ((a >>> n).toNat : Int) := by
    rw [BitVec.toNat_ushiftRight, Nat.shiftRight_eq_div_pow]; norm_cast
  rw [shrW, quotient, mod16_toNat]
theorem sarW_eq_mod16 (a : Word) (n : Nat) : sarW a n = Claims.mod16 (a.toInt / 2 ^ n) := by
  rw [sarW, Claims.mod16, BitVec.sshiftRight, Int.shiftRight_eq_div_pow]
  norm_cast
theorem word_eq_mod16 (n : Nat) : word n = Claims.mod16 n := (BitVec.ofInt_natCast 16 n).symm
theorem field_zero (w : Word) (n : Nat) : field w 0 n = w.toNat % 2 ^ n := by simp [field]
theorem truth_eq_rel {b : Bool} {p : Prop} [Decidable p] (h : b = true ↔ p) : truth b = Claims.rel p := by
  simp [truth, Claims.rel, h]
theorem holds_iff (w : Word) : holds w = true ↔ w ≠ 0 := bne_iff_ne
theorem overflows_iff (n : Int) : overflows n = true ↔ n < -32768 ∨ 32767 < n := by simp [overflows]
theorem bit_iff (w : Word) (n : Nat) : bit w n = true ↔ w.toNat / 2 ^ n % 2 = 1 := by
  simp [bit, BitVec.getLsbD, Nat.testBit_eq_decide_div_mod_eq]
theorem sat16_eq_clamp16 (n : Int) : sat16 n = Claims.clamp16 n := by
  unfold sat16 Claims.clamp16
  congr 1
  split_ifs <;> omega
theorem toInt_pick_max (a b : Word) : (pick (fun a b => a.slt b) a b).toInt = max a.toInt b.toInt := by
  simp only [pick, BitVec.slt_iff_toInt_lt]
  split <;> omega
theorem toInt_pick_min (a b : Word) : (pick (fun a b => b.slt a) a b).toInt = min a.toInt b.toInt := by
  simp only [pick, BitVec.slt_iff_toInt_lt]
  split <;> omega
theorem toInt_foldl {f : Word → Word → Word} {g : Int → Int → Int} (h : ∀ a b, (f a b).toInt = g a.toInt b.toInt) :
    ∀ (l : List Word) (a : Word), (l.foldl f a).toInt = (l.map BitVec.toInt).foldl g a.toInt
  | [], _ => rfl
  | b :: l, a => by rw [List.foldl_cons, toInt_foldl h l, h]; rfl

theorem eq_mod16_of_toInt {a : Word} {n : Int} (h : a.toInt = n) : a = Claims.mod16 n := by
  rw [← h, Claims.mod16, BitVec.ofInt_toInt]
theorem lanes_toInt (x : Sheet) : ((List.range 8).map fun i => (x.lane i).toInt) = x.toList.map BitVec.toInt := rfl
theorem foldl_cons_absorb {g : Int → Int → Int} {a b : Int} (h : g a b = g b b) (l : List Int) :
    (b :: l).foldl g a = (b :: l).foldl g b := by
  rw [List.foldl_cons, List.foldl_cons, h]
/-- A fold over the lanes may start at lane 0 in place of a value that lane 0 absorbs. -/
theorem foldl_lanes {g : Int → Int → Int} {a : Int} (x : Sheet) (h : g a x.l0.toInt = g x.l0.toInt x.l0.toInt) :
    ((List.range 8).map fun i => (x.lane i).toInt).foldl g a = (x.toList.map BitVec.toInt).foldl g x.l0.toInt := by
  rw [lanes_toInt, Sheet.toList, List.map_cons]
  exact foldl_cons_absorb h _
theorem maxLane_eq_mod16 (x : Sheet) : x.toList.foldl (pick fun a b => a.slt b) x.l0 =
    Claims.mod16 (((List.range 8).map fun i => (x.lane i).toInt).foldl max (-32768)) := by
  have low : max (-32768) x.l0.toInt = max x.l0.toInt x.l0.toInt := by have := x.l0.le_toInt; omega
  rw [foldl_lanes x low]
  exact eq_mod16_of_toInt (toInt_foldl toInt_pick_max ..)
theorem minLane_eq_mod16 (x : Sheet) : x.toList.foldl (pick fun a b => b.slt a) x.l0 =
    Claims.mod16 (((List.range 8).map fun i => (x.lane i).toInt).foldl min 32767) := by
  have high : min 32767 x.l0.toInt = min x.l0.toInt x.l0.toInt := by have := x.l0.toInt_lt; omega
  rw [foldl_lanes x high]
  exact eq_mod16_of_toInt (toInt_foldl toInt_pick_min ..)

/-- Writing back what a register holds changes nothing. -/
theorem ww_rw_self (k : Clerk) (d : Reg4) : k.ww d (k.rw d) = k := by
  unfold Clerk.ww Clerk.rw
  split
  · rfl
  · simp [Vector.get]

theorem ite_ww_left (k : Clerk) (d : Reg4) (v : Word) (p : Prop) [Decidable p] :
    (if p then k.ww d v else k) = k.ww d (if p then v else k.rw d) := by
  split
  · rfl
  · exact (ww_rw_self k d).symm

theorem regOp_congr {c : Nat} {f g : Clerk → Clerk} {s : State} (h : ∀ k, f k = g k) : regOp c f s = regOp c g s := by
  rw [funext h]
theorem regOp_ww {c : Nat} {d : Reg4} {v v' : Clerk → Word} {s : State} (h : ∀ k, v k = v' k) :
    regOp c (fun k => k.ww d (v k)) s = regOp c (fun k => k.ww d (v' k)) s := by rw [funext h]
theorem regOp_ws {c : Nat} {d : Reg4} {v v' : Clerk → Sheet} {s : State} (h : ∀ k, v k = v' k) :
    regOp c (fun k => k.ws d (v k)) s = regOp c (fun k => k.ws d (v' k)) s := by rw [funext h]

/-! ## The tables and the bodies -/

theorem scalar_body {i : Instr} {c : ClerkId} {len : Nat} {f : Clerk → Clerk} (h : Claims.scalar i = some (c, len, f))
    (s : State) : insnBody i none s = regOp c.val f s := by
  revert h
  fun_cases Claims.scalar i <;> rintro ⟨⟩
  case case2 => exact regOp_ww fun k => add_eq_mod16 .. -- ADD
  case case3 => exact regOp_ww fun k => sub_eq_mod16 .. -- SUB
  case case7 => exact regOp_ww fun k => by simp only [field_zero]; exact shlW_eq_mod16 .. -- SHL
  case case8 => exact regOp_ww fun k => by simp only [field_zero]; exact shrW_eq_mod16 .. -- SHR
  case case9 => exact regOp_ww fun k => by simp only [field_zero]; exact sarW_eq_mod16 .. -- SAR
  case case10 => exact regOp_ww fun k => by simp only [field_zero]; rfl -- ROL
  case case11 => exact regOp_ww fun k => not_eq_mod16 .. -- NOT
  case case12 => exact regOp_ww fun k => neg_eq_mod16 .. -- NEG
  case case13 => exact regOp_ww fun k => word_eq_mod16 .. -- MOVQ
  case case14 => exact regOp_ww fun k => add_word_eq_mod16 .. -- ADDQ
  case case15 => exact regOp_ww fun k => sub_word_eq_mod16 .. -- SUBQ
  case case16 => exact regOp_ww fun k => shlW_eq_mod16 .. -- SHLQ
  case case17 => exact regOp_ww fun k => shrW_eq_mod16 .. -- SHRQ
  case case18 => exact regOp_ww fun k => sarW_eq_mod16 .. -- SARQ
  case case21 => exact regOp_ww fun k => add_eq_mod16 .. -- ADDI
  all_goals rfl

theorem compares_body {i : Instr} {c : ClerkId} {len : Nat} {f : Clerk → Clerk} (h : Claims.compares i = some (c, len, f))
    (s : State) : insnBody i none s = regOp c.val f s := by
  revert h
  fun_cases Claims.compares i <;> rintro ⟨⟩
  case case1 => exact regOp_congr fun k => by simp only [holds_iff]; exact ite_ww_left .. -- CMOVNZ
  case case2 => exact regOp_congr fun k => by simp only [holds_iff, ite_not]; exact ite_ww_left .. -- CMOVZ
  case case3 => exact regOp_ww fun k => by simp only [holds_iff] -- SEL
  case case4 => exact regOp_ww fun k => truth_eq_rel beq_iff_eq -- CEQ
  case case5 => exact regOp_ww fun k => truth_eq_rel bne_iff_ne -- CNE
  case case6 => exact regOp_ww fun k => truth_eq_rel BitVec.slt_iff_toInt_lt -- CLT
  case case7 => exact regOp_ww fun k => truth_eq_rel BitVec.sle_iff_toInt_le -- CLE
  case case8 => exact regOp_ww fun k => truth_eq_rel BitVec.ult_iff_toNat_lt -- CLTU
  case case9 => exact regOp_ww fun k => truth_eq_rel BitVec.ule_iff_toNat_le -- CLEU
  case case10 => exact regOp_ww fun k => truth_eq_rel (by simp [carries]) -- CADC
  case case11 => exact regOp_ww fun k => truth_eq_rel (overflows_iff _) -- COVA
  case case12 => exact regOp_ww fun k => truth_eq_rel (overflows_iff _) -- COVS
  case case13 => exact regOp_ww fun k => truth_eq_rel (by simp only [field_zero]; exact bit_iff ..) -- CBIT
  case case14 => exact regOp_ww fun k => truth_eq_rel beq_iff_eq -- CEQI
  case case15 => exact regOp_ww fun k => truth_eq_rel bne_iff_ne -- CNEI
  case case16 => exact regOp_ww fun k => truth_eq_rel BitVec.slt_iff_toInt_lt -- CLTI
  case case17 => exact regOp_ww fun k => truth_eq_rel BitVec.slt_iff_toInt_lt -- CGTI
  case case18 => exact regOp_ww fun k => truth_eq_rel BitVec.ult_iff_toNat_lt -- CLTUI
  case case19 => exact regOp_ww fun k => truth_eq_rel BitVec.ult_iff_toNat_lt -- CGTUI

theorem sheet_body {i : Instr} {c : ClerkId} {len : Nat} {f : Clerk → Clerk} (h : Claims.sheet i = some (c, len, f))
    (s : State) : insnBody i none s = regOp c.val f s := by
  revert h
  fun_cases Claims.sheet i <;> rintro ⟨⟩
  case case8 => exact regOp_ws fun k => by simp only [holds_iff] -- SCMOV
  case case10 => exact regOp_ws fun k => by simp [field_zero] -- SPERM
  case case12 => exact regOp_ww fun k => sat16_eq_clamp16 _ -- SSUM
  case case13 => exact regOp_ww fun k => maxLane_eq_mod16 _ -- SMAXR
  case case14 => exact regOp_ww fun k => minLane_eq_mod16 _ -- SMINR
  all_goals rfl

/-! ## What a repeated register instruction may touch -/

/-- Two clerks with the same W and S registers. -/
def SameRegs (k k' : Clerk) : Prop := k.w = k'.w ∧ k.s = k'.s

/-- `f` writes W and S registers only, with values that come from W and S registers only. -/
structure OnRegs (f : Clerk → Clerk) : Prop where
  keeps : ∀ k, f k = { k with w := (f k).w, s := (f k).s }
  congr : ∀ k k', SameRegs k k' → SameRegs (f k) (f k')

/-- A clerk of which only the W and S registers are given. -/
def ofRegs (w : Vector Word 16) (s : Vector Sheet 16) : Clerk := { Clerk.reset with w := w, s := s }

theorem eq_of_sameRegs {α : Type} {v : Clerk → α} (hv : ∀ k, v k = v (ofRegs k.w k.s)) {k k' : Clerk} (h : SameRegs k k') :
    v k = v k' := by rw [hv k, hv k', h.1, h.2]

theorem onRegs_ww {d : Reg4} {v : Clerk → Word} (hv : ∀ k, v k = v (ofRegs k.w k.s)) : OnRegs fun k => k.ww d (v k) where
  keeps k := by unfold Clerk.ww; split <;> rfl
  congr k k' h := by
    rw [eq_of_sameRegs hv h]
    unfold Clerk.ww
    split
    · exact h
    · exact ⟨by rw [h.1], h.2⟩

theorem onRegs_ws {d : Reg4} {v : Clerk → Sheet} (hv : ∀ k, v k = v (ofRegs k.w k.s)) : OnRegs fun k => k.ws d (v k) where
  keeps _ := rfl
  congr k k' h := by
    rw [eq_of_sameRegs hv h]
    exact ⟨h.1, congrArg (fun s => s.set d (v k')) h.2⟩

theorem iterate_sameRegs {f : Clerk → Clerk} (hf : OnRegs f) {k k' : Clerk} (h : SameRegs k k') :
    ∀ n, SameRegs (f^[n] k) (f^[n] k')
  | 0 => h
  | n + 1 => iterate_sameRegs hf (hf.congr k k' h) n

/-- `i` is an instruction of clerk `c` that R118 lets be repeated: its body is `f`, on W and S registers. -/
structure RegInsn (i : Instr) (c : ClerkId) (len : Nat) (f : Clerk → Clerk) : Prop where
  exec_eq : ∀ s, exec i s = .next (s.clerkInsn c.val i)
  len_eq : insnLen i = len
  noTrap : isTrap i = false
  allowed : ∀ k, repForbids k i = false
  noCause : ∀ s, State.causeFirst s c.val i = false
  body : ∀ s, insnBody i none s = regOp c.val f s
  onRegs : OnRegs f

theorem scalar_regInsn {i : Instr} {c : ClerkId} {len : Nat} {f : Clerk → Clerk} (h : Claims.scalar i = some (c, len, f)) :
    RegInsn i c len f := by
  have body := scalar_body h
  revert h
  fun_cases Claims.scalar i <;> rintro ⟨⟩
  all_goals exact ⟨fun _ => rfl, rfl, rfl, fun _ => rfl, fun _ => rfl, body, onRegs_ww fun _ => rfl⟩

theorem compares_regInsn {i : Instr} {c : ClerkId} {len : Nat} {f : Clerk → Clerk} (h : Claims.compares i = some (c, len, f)) :
    RegInsn i c len f := by
  have body := compares_body h
  revert h
  fun_cases Claims.compares i <;> rintro ⟨⟩
  all_goals exact ⟨fun _ => rfl, rfl, rfl, fun _ => rfl, fun _ => rfl, body, onRegs_ww fun _ => rfl⟩

theorem sheet_regInsn {i : Instr} {c : ClerkId} {len : Nat} {f : Clerk → Clerk} (h : Claims.sheet i = some (c, len, f)) :
    RegInsn i c len f := by
  have body := sheet_body h
  revert h
  fun_cases Claims.sheet i <;> rintro ⟨⟩
  case case11 | case12 | case13 | case14 => -- SGET, SSUM, SMAXR, SMINR
    exact ⟨fun _ => rfl, rfl, rfl, fun _ => rfl, fun _ => rfl, body, onRegs_ww fun _ => rfl⟩
  all_goals exact ⟨fun _ => rfl, rfl, rfl, fun _ => rfl, fun _ => rfl, body, onRegs_ws fun _ => rfl⟩

theorem regInsn_of_table {i : Instr} {c : ClerkId} {len : Nat} {f : Clerk → Clerk}
    (h : Claims.scalar i = some (c, len, f) ∨ Claims.compares i = some (c, len, f) ∨ Claims.sheet i = some (c, len, f)) :
    RegInsn i c len f := by
  rcases h with h | h | h
  · exact scalar_regInsn h
  · exact compares_regInsn h
  · exact sheet_regInsn h

/-! ## A count that is too large (R118) -/

theorem prefixTooLarge : Claims.PrefixTooLarge := by
  intro s i c len f x table h hmany inactive
  have r := regInsn_of_table table
  have h' : Claims.Repeating s c.val x (insnLen i) := r.len_eq.symm ▸ h
  obtain ⟨u, ho, hc, e⟩ := clerkInsn_repeating h'
  let a := u.modClerk c.val fun k => { k with rep := none }
  have ha : a.clerk c.val = { covered (s.clerk c.val) with rep := none } := by rw [State.clerk_modClerk_self, hc]
  have raised : u.runRepeated c.val i x none false = (a.takeException c.val 3 0 false x.pfx).afterUnit c.val := by
    simp [State.runRepeated, r.noTrap, hmany, r.noCause, a]
  obtain ⟨-, noWait, noWindow, -, -, noShadow, -, noStep, noHalt⟩ := h
  have entry := takeException_entry 3 0 x.pfx (by rw [ha]; exact ⟨noWait, noWindow, noShadow, rfl, inactive⟩)
  have unstopped : Unstopped ((a.takeException c.val 3 0 false x.pfx).clerk c.val) := by
    obtain ⟨p, -, -, ht, -, -⟩ := entry
    obtain ⟨_, _, _, _, _, _, hdone⟩ := done_only (a.clerk c.val)
    rw [ht, Claims.entered, hdone, ha]
    exact ⟨noShadow, noStep, noHalt⟩
  refine ⟨_, r.exec_eq s, ?_⟩
  rw [e, raised, afterUnit_unstopped unstopped]
  rw [ha] at entry
  exact entry_after (ho.trans (.modClerk ..)) entry

/-! ## A repetition that runs (R117, R122) -/

/-- Clerk `k` is inside a REPU that nothing stops. -/
structure InRepu (k : Clerk) : Prop extends Unstopped k where
  repu : ∃ x, k.rep = some x ∧ x.unint = true

/-- The clerk after one iteration with effect `f`. -/
def iterated (f : Clerk → Clerk) (k : Clerk) : Clerk :=
  (f k).tickProducts.modRep fun x => { x with left := x.left - 1, started := true }

theorem iterated_inRepu {f : Clerk → Clerk} (hf : OnRegs f) {k : Clerk} (h : InRepu k) :
    InRepu (iterated f k) ∧ (iterated f k).pc = k.pc ∧ SameRegs (iterated f k) (f k) := by
  obtain ⟨⟨noShadow, noStep, noHalt⟩, x, hx, hu⟩ := h
  obtain ⟨_, _, _, _, _, _, ht⟩ := tickProducts_only (f k)
  rw [iterated, ht, hf.keeps k]
  exact ⟨⟨⟨noShadow, noStep, noHalt⟩, { x with left := x.left - 1, started := true }, by simp [Clerk.modRep, hx], hu⟩, rfl, rfl, rfl⟩

theorem unitStop_inRepu {s : State} {c : Nat} (h : InRepu (s.clerk c)) : s.unitStop c = false := by
  obtain ⟨x, hx, hu⟩ := h.repu
  simp [State.unitStop, hx, hu]

/-- An iteration of REPU that completes leads to the next one, and after the last the repetition is done. -/
theorem repRun_succ {c : Nat} {i : Instr} {f : Clerk → Clerk} (hb : ∀ s, insnBody i none s = regOp c f s) (hf : OnRegs f)
    {s : State} (h : InRepu (s.clerk c)) (again : Bool) (n : Nat) : ∃ t, OnlyClerk s t c ∧ t.clerk c = iterated f (s.clerk c) ∧
      State.repRun c i again (n + 1) none s = State.repRun c i again n none t := by
  let t := ((s.modClerk c f).retireUnit c).modClerk c fun k => k.modRep fun x => { x with left := x.left - 1, started := true }
  have hc : t.clerk c = iterated f (s.clerk c) := by
    simp only [t, State.retireUnit, State.clerk_modClerk_self, iterated]
  have ht : InRepu (t.clerk c) := hc ▸ (iterated_inRepu hf h).1
  have goesOn (b : Bool) : ((t.clerk c).stepping && b || t.unitStop c) = false := by simp [ht.noStep, unitStop_inRepu ht]
  refine ⟨t, ((OnlyClerk.modClerk ..).trans (.modClerk ..)).trans (.modClerk ..), hc, ?_⟩
  rw [State.repRun, hb, regOp]
  dsimp only
  split
  · next hn => subst hn; rfl
  · exact if_neg (Bool.eq_false_iff.mp (goesOn _))

theorem repRun_inRepu {c : Nat} {i : Instr} {f : Clerk → Clerk} (hb : ∀ s, insnBody i none s = regOp c f s) (hf : OnRegs f)
    (again : Bool) : ∀ (n : Nat) (s : State), InRepu (s.clerk c) →
      OnlyClerk s (State.repRun c i again n none s) c ∧ ((State.repRun c i again n none s).clerk c).rep = none ∧
        ((State.repRun c i again n none s).clerk c).pc = (s.clerk c).next (insnLen i) ∧
        SameRegs ((State.repRun c i again n none s).clerk c) (f^[n] (s.clerk c)) := by
  intro n
  induction n with
  | zero =>
    intro s h
    obtain ⟨ho, hc⟩ := repDone_only (insnLen i) h.toUnstopped
    rw [State.repRun, hc]
    exact ⟨ho, rfl, rfl, rfl, rfl⟩
  | succ n ih =>
    intro s h
    obtain ⟨t, ho, hc, e⟩ := repRun_succ hb hf h again n
    obtain ⟨inRepu, hpc, same⟩ := iterated_inRepu hf h
    obtain ⟨ho', rep, pc, regs⟩ := ih t (hc ▸ inRepu)
    rw [e]
    refine ⟨ho.trans ho', rep, ?_, ?_⟩
    · rw [pc, hc, Clerk.next, hpc]; rfl
    · rw [hc] at regs
      have more := iterate_sameRegs hf same n
      exact ⟨regs.1.trans more.1, regs.2.trans more.2⟩

theorem repeatsAsLatched : Claims.RepeatsAsLatched := by
  intro s i c len f x table h hmany hunint
  have r := regInsn_of_table table
  have h' : Claims.Repeating s c.val x (insnLen i) := r.len_eq.symm ▸ h
  obtain ⟨u, ho, hc, e⟩ := clerkInsn_repeating h'
  have runs : u.runRepeated c.val i x none false = State.repRun c.val i false x.left none u := by
    simp [State.runRepeated, r.noTrap, r.allowed, hmany]
  have inRepu : InRepu (u.clerk c.val) := by
    obtain ⟨-, -, -, rep, -⟩ := h
    rw [hc]; exact ⟨unstopped_of_repeating h', x, rep, hunint⟩
  obtain ⟨ho', rep, pc, regs⟩ := repRun_inRepu r.body r.onRegs false x.left u inRepu
  have from_s := iterate_sameRegs r.onRegs (k := u.clerk c.val) (k' := s.clerk c.val) (by rw [hc]; exact ⟨rfl, rfl⟩) x.left
  refine ⟨_, r.exec_eq s, ?_⟩
  rw [e, runs, List.foldl_const, List.length_range]
  refine ⟨ho.trans ho', rep, ?_, regs.1.trans from_s.1, regs.2.trans from_s.2⟩
  rw [pc, hc, ← r.len_eq]; rfl

/-- Settles O17: REPI and REPU latch their count; a REPU above 16 enters PREFIX, since none of these instructions meets a cause that
comes first; a count of 0 retires at once; and REPU runs its iterations to the end, by induction on the count. -/
theorem repetitions : Obligations.Repetitions :=
  ⟨prefixLatches, prefixTooLarge, countZeroDoesNothing, repeatsAsLatched⟩

end Sys2Proof.Repetition
end

section
/-!
# Results of scalar and sheet instructions (O4, O6, R137, R148, R150, R151)

Both tables hold register instructions only (`scalar_regInsn`, `sheet_regInsn`): each body applies the table's effect to the clerk's
W or S registers. A ready clerk runs such a body at once and retires behind it.
-/
open Sys2Proof Sys2Proof.Machine
namespace Sys2Proof.RegisterResults

/-- A register instruction touches none of the clerk's fields that decide where it goes on and whether it stops. -/
theorem onRegs_keeps_control {f : Clerk → Clerk} (hf : Repetition.OnRegs f) (k : Clerk) :
    (f k).shadow = k.shadow ∧ (f k).stepping = k.stepping ∧ (f k).haltReq = k.haltReq ∧ (f k).pc = k.pc := by
  rw [hf.keeps k]
  exact ⟨rfl, rfl, rfl, rfl⟩

/-- A table of register instructions holds: each does its effect and retires. -/
theorem does_of_regInsn {tab : Instr → Claims.Effect}
    (h : ∀ {i c len f}, tab i = some (c, len, f) → Repetition.RegInsn i c len f) : Claims.Does tab := by
  intro s i c len f listed ready
  have r := h listed
  obtain ⟨only, retired⟩ := State.clerkInsn_regOp (r.len_eq.symm ▸ ready) (fun u _ _ => r.body u)
    (onRegs_keeps_control r.onRegs)
  rw [r.len_eq] at retired
  exact ⟨_, r.exec_eq s, only, retired⟩

/-- Settles O4: every row of the scalar table is a register instruction. -/
theorem scalarResults : Obligations.ScalarResults := does_of_regInsn Repetition.scalar_regInsn

/-- Settles O6: every row of the sheet table is a register instruction. -/
theorem sheetResults : Obligations.SheetResults := does_of_regInsn Repetition.sheet_regInsn

end Sys2Proof.RegisterResults
end
